-- ==== Sys2Proof/Word.lean ====
section
/-!
DEFINITION. The word types of the N4 (00/R4, 02/R12) and the sparse list container used for register files and tables.
-/

namespace Sys2Proof

/-- A byte of memory, of scratchpad or of a scale sideband. -/
abbrev Byte := BitVec 8
/-- One 32-bit lane of a vector register (02/R12). -/
abbrev Lane := BitVec 32
/-- A scalar register, 64 bits (02/R15). -/
abbrev Word := BitVec 64
/-- A virtual address, 52 bits (04/R62, 26/R376). -/
abbrev VAddr := BitVec 52

/-- A sparse table: pairs of a key and its value. A key that is not listed reads as the default that the reader names. -/
abbrev Map (α : Type) := List (Nat × α)

/-- Places (03/R35 PLACE codes 0 to 3). -/
inductive Place where
  | ln | sp | nb | pe
deriving DecidableEq, Repr

/-- Roles of a group (02/R13). -/
inductive Role where
  | v | m | c
deriving DecidableEq, Repr

/-- Element types (04/R61), in the order of their TYPE codes `0x01` to `0x1C`. -/
inductive Ty where
  | f64 | f32 | bf16 | f16 | e4m3 | e5m2 | e3m2 | e2m3 | e2m1 | e8m0
  | mxe4m3 | mxe5m2 | mxe3m2 | mxe2m3 | mxe2m1 | cb4
  | i4 | u4 | i8 | u8 | i16 | u16 | i32 | u32 | i64 | u64 | bf16x2 | v
deriving DecidableEq, Repr

end Sys2Proof
end

