-- ==== Sys2Proof/Config.lean ====
section
/-!
DEFINITION. What an implementation fixes and the values the spec leaves open. Every free value is an opaque constant: no
proof can see it (log 5).
-/

namespace Sys2Proof.Config

/-- The value the spec does not state, numbered by the counter `State.free` at the step that produces it, and by a
position within the step (lane, element, operand). -/
opaque freeWord (n k : Nat) : BitVec 64

/-- A byte of scratchpad that nothing has written since the region numbered `seed` was reserved (02/R23, log 11). -/
opaque freeByte (seed off : Nat) : BitVec 8

/-- Element `k` of accumulator contents that are undefined (13/R210, log 12): some FP32 value. -/
opaque freeAcc (n k : Nat) : BitVec 32

/-- Hops on the request mesh from the router of a cluster to a memory slice, while the tree with a number stands (22/R346, 28/R400). -/
opaque hops (tree cluster slice : Nat) : Nat

/-- The certificate chain and the signatures of the identity key (28/R413): the spec gives no key. -/
opaque identityChain (slot : Nat) : List (BitVec 8)
opaque identitySign (slot : Nat) (message : List (BitVec 8)) : Nat

end Sys2Proof.Config
end

