-- ==== Sys2Proof/Syntax.lean ====
section
/-!
DEFINITION. The abstract form of every row of the opcode table: one constructor of `Instr` per row.
An instruction row carries the fields of its words (04/R56-R68) as a `Form`; a row that is a step of another agent
(a place, a home, the Sluice, the Flume, the host: file 95) carries the arguments of the step beyond the one object that
moves.
-/

namespace Sys2Proof

/-- LEN, bits 1:0 of the first word (04/R56). -/
inductive Len where
  | base | ext | lit | extLit
deriving DecidableEq, Repr

/-- The next-address selector NX with its operands (04/R67). A target is the signed byte offset from the instruction's
own address (04/R62); the targets of a condition block are signed word offsets (04/R63). -/
inductive Nx where
  | seq
  | loop
  | jump (off : Word)
  | cond (neg : Bool) (cp : BitVec 3) (target join : BitVec 30)
  | call (off : Word)
  | ret
  | exit
  | yield
deriving DecidableEq, Repr

/-- A governing predicate: PNEG and PN of an instruction whose PEN is 1 (04/R60). -/
structure Pred where
  neg : Bool
  pn  : BitVec 3
deriving DecidableEq, Repr

/-- The fields of one instruction. `d`, `a`, `b`, `c` are full specifiers or indexes (04/R64, R66; the short specifiers
of R58 and R59 are expanded). `imm` is the immediate operand I that 04/R62 places, 0 where it places none; `imm2` is the
IMM22 that LEN 11 carries beside a literal operand, 0 elsewhere. -/
structure Form where
  len   : Len
  nx    : Nx
  pred  : Option Pred
  fn    : BitVec 6
  d     : BitVec 8
  a     : BitVec 8
  b     : BitVec 8
  c     : BitVec 8
  ty    : BitVec 6
  ord   : BitVec 2
  scope : BitVec 3
  kc    : BitVec 4
  plc   : BitVec 3
  imm   : Word
  imm2  : BitVec 22
deriving DecidableEq, Repr

/-- What a request asks of its home (17/R269, 18/R274). -/
inductive HomeOp where
  | read (n : Nat)
  /-- The bytes at some offsets, in order: of a vector those of its active lanes (06/R108). -/
  | gather (offs : List Nat)
  /-- Runs of bytes by offset. -/
  | write (runs : List (Nat × List Byte))
  /-- One atomic per entry, in order: offset, operand, compared value. -/
  | atoms (fn : Nat) (ty : Ty) (ops : List (Nat × Word × Word))
  | xsum (wide : Bool) (xs : List Word)
  | xrd (wide clear : Bool)
deriving DecidableEq, Repr

/-- A request of a party outside this module's own groups, arriving at its home: source module, source partition,
source group, sequence number (17/R269), module-local address. -/
structure HomeReq where
  module : Nat
  part   : Nat
  group  : Nat
  seq    : Nat
  op     : HomeOp
  la     : Nat
deriving DecidableEq, Repr

/-- What a Dyonaxo flit carries (28/R403, R404): a request of another module, or the reply to a request of a group. -/
inductive Payload where
  | idle
  | request (r : HomeReq)
  | reply (g seq : Nat) (ok : Bool) (bytes : List Byte)
deriving DecidableEq, Repr

/-- A flit at an ingress port: link sequence number and whether its CRC is good (28/R403). -/
structure Flit where
  port    : Nat
  seq     : Nat
  crcGood : Bool
  load    : Payload
deriving DecidableEq, Repr

/-- What measured boot meets at module reset (28/R413): whether each stage's signature holds, and its digest. -/
structure Boot where
  loaderGood : Bool
  firmGood   : Bool
  loader     : Nat
  firmware   : Nat
  config     : Nat
deriving DecidableEq, Repr

/-- One constructor per row of spec/opcode_table.json: the rows with operands in the table's order, then the steps of
other agents that move one object, which `State.subject` names (a choice of the schedule, like the step itself). -/
inductive Instr where
  /-- R88. No effect other than its NX clause. -/
  | nop (f : Form)
  /-- R89. Pushes a loop-stack entry with a count and a head address. -/
  | lps (f : Form)
  /-- R90. Copies one predicate register to another. -/
  | pmov (f : Form)
  /-- R90. ANDs two predicate registers. -/
  | pand (f : Form)
  /-- R90. ORs two predicate registers. -/
  | por (f : Form)
  /-- R90. XORs two predicate registers. -/
  | pxor (f : Form)
  /-- R90. ANDs one predicate with the inverse of another. -/
  | pandn (f : Form)
  /-- R90. Inverts a predicate register. -/
  | pnot (f : Form)
  /-- R90. Copies a predicate into a scalar, zero-extended. -/
  | pget (f : Form)
  /-- R90. Writes the low 32 bits of a scalar source to a predicate. -/
  | pset (f : Form)
  /-- R91. Copies the execution mask into a scalar. -/
  | emget (f : Form)
  /-- R91. Writes the execution mask, ANDed with the path mask when the stack is not empty. -/
  | emset (f : Form)
  /-- R246. Writes the whole format register fm. -/
  | fmt (f : Form)
  /-- R246. Writes the rounding-mode field of fm. -/
  | fmtRnd (f : Form)
  /-- R246. Writes the AFMT and BFMT fields of fm. -/
  | fmtAb (f : Form)
  /-- R246. Writes the FTZ and SAT fields of fm. -/
  | fmtFtz (f : Form)
  /-- R246. Writes the codebook-select field of fm. -/
  | fmtCbs (f : Form)
  /-- R117. Writes the five floating-point trap enables of fm. -/
  | fmtTrp (f : Form)
  /-- R246. Reads fm into a scalar. -/
  | fmrd (f : Form)
  /-- R247. Waits for earlier commits and reads the sticky flags ff into a scalar. -/
  | ffget (f : Form)
  /-- R247. Waits for earlier commits and clears the flags of ff named by its operand. -/
  | ffclr (f : Form)
  /-- R93. Writes a scalar from a source plus immediate. -/
  | mov (f : Form)
  /-- R93. Scalar integer add. -/
  | add (f : Form)
  /-- R93. Scalar integer subtract. -/
  | sub (f : Form)
  /-- R93. Low bits of a scalar product. -/
  | mul (f : Form)
  /-- R93. High bits of the signed scalar product. -/
  | mulh (f : Form)
  /-- R93. High bits of the unsigned scalar product. -/
  | mulhu (f : Form)
  /-- R94. Signed scalar division that never traps. -/
  | div (f : Form)
  /-- R94. Unsigned scalar division that never traps. -/
  | divu (f : Form)
  /-- R94. Signed scalar remainder. -/
  | rem (f : Form)
  /-- R94. Unsigned scalar remainder. -/
  | remu (f : Form)
  /-- R93. Scalar bitwise AND. -/
  | and (f : Form)
  /-- R93. Scalar bitwise OR. -/
  | or (f : Form)
  /-- R93. Scalar bitwise XOR. -/
  | xor (f : Form)
  /-- R93. Scalar AND with the inverse of the second operand. -/
  | andn (f : Form)
  /-- R93. Scalar shift left. -/
  | shl (f : Form)
  /-- R93. Scalar logical shift right. -/
  | shr (f : Form)
  /-- R93. Scalar arithmetic shift right. -/
  | sra (f : Form)
  /-- R93. Scalar rotate left. -/
  | rol (f : Form)
  /-- R93. Signed scalar minimum. -/
  | min (f : Form)
  /-- R93. Signed scalar maximum. -/
  | max (f : Form)
  /-- R93. Unsigned scalar minimum. -/
  | minu (f : Form)
  /-- R93. Unsigned scalar maximum. -/
  | maxu (f : Form)
  /-- R95. Compares two scalars and sets a whole predicate to all ones or zero. -/
  | cmp (f : Form)
  /-- R96. Selects one of two scalars by a third. -/
  | sel (f : Form)
  /-- R96. Counts leading zero bits of a scalar. -/
  | clz (f : Form)
  /-- R96. Counts trailing zero bits of a scalar. -/
  | ctz (f : Form)
  /-- R96. Counts the one bits of a scalar. -/
  | popc (f : Form)
  /-- R96. Sign-extends the low bits of a scalar. -/
  | sxt (f : Form)
  /-- R96. Zero-extends the low bits of a scalar. -/
  | zxt (f : Form)
  /-- R97. Reads one lane of a vector register into a scalar. -/
  | vget (f : Form)
  /-- R100. Copies a value into the active lanes of a vector register, pushing when the destination is a queue. -/
  | vmov (f : Form)
  /-- R99. Element-wise wrapping integer add. -/
  | vaddInt (f : Form)
  /-- R99. Element-wise wrapping integer subtract. -/
  | vsubInt (f : Form)
  /-- R99. Element-wise low integer product. -/
  | vmulInt (f : Form)
  /-- R99. Element-wise high integer product. -/
  | vmulh (f : Form)
  /-- R99. Element-wise integer multiply-add. -/
  | vmad (f : Form)
  /-- R99. Lane-wise bitwise AND. -/
  | vand (f : Form)
  /-- R99. Lane-wise bitwise OR. -/
  | vor (f : Form)
  /-- R99. Lane-wise bitwise XOR. -/
  | vxor (f : Form)
  /-- R99. Lane-wise AND with inverse. -/
  | vandn (f : Form)
  /-- R99. Element-wise shift left. -/
  | vshl (f : Form)
  /-- R99. Element-wise logical shift right. -/
  | vshr (f : Form)
  /-- R99. Element-wise arithmetic shift right. -/
  | vsra (f : Form)
  /-- R99. Element-wise integer minimum. -/
  | vminInt (f : Form)
  /-- R99. Element-wise integer maximum. -/
  | vmaxInt (f : Form)
  /-- R99. Element-wise integer compare writing all-ones masks. -/
  | vcmpInt (f : Form)
  /-- R101. Lane-wise 32-bit integer compare writing predicate bits. -/
  | vcmppInt (f : Form)
  /-- R102. Bitwise select between two vectors by a mask vector. -/
  | vsel (f : Form)
  /-- R104. Moves lanes by index. -/
  | vshflIdx (f : Form)
  /-- R104. Moves lanes up by a count. -/
  | vshflUp (f : Form)
  /-- R104. Moves lanes down by a count. -/
  | vshflDn (f : Form)
  /-- R104. Exchanges lanes by XOR of the lane number. -/
  | vshflXor (f : Form)
  /-- R104. Broadcasts one lane. -/
  | vshflBc (f : Form)
  /-- R105. Permutes lanes within each quad, helper lanes supplying values. -/
  | qswz (f : Form)
  /-- R103. Saturating narrow of INT32 lanes. -/
  | vpack (f : Form)
  /-- R103. Widening extension of narrow lane values. -/
  | vunpack (f : Form)
  /-- R99. Lane-wise leading-zero count. -/
  | vclz (f : Form)
  /-- R99. Lane-wise one-bit count. -/
  | vpopc (f : Form)
  /-- R248. Copies scale bytes into lane data. -/
  | vsclget (f : Form)
  /-- R248. Sets scale bytes from lane data. -/
  | vsclset (f : Form)
  /-- R233. Floating-point add with one rounding. -/
  | vaddFp (f : Form)
  /-- R233. Floating-point subtract. -/
  | vsubFp (f : Form)
  /-- R233. Floating-point multiply. -/
  | vmulFp (f : Form)
  /-- R233. Fused multiply-add with one rounding. -/
  | vfma (f : Form)
  /-- R234. Floating-point minimum without rounding. -/
  | vminFp (f : Form)
  /-- R234. Floating-point maximum without rounding. -/
  | vmaxFp (f : Form)
  /-- R235. Floating-point compare writing element masks. -/
  | vcmpFp (f : Form)
  /-- R235. Floating-point compare writing predicate bits. -/
  | vcmppFp (f : Form)
  /-- R236. Clears the sign bit. -/
  | vabs (f : Form)
  /-- R236. Inverts the sign bit. -/
  | vneg (f : Form)
  /-- R236. Takes the sign bit from a second operand. -/
  | vcpsgn (f : Form)
  /-- R237. Reciprocal approximation to 17 bits. -/
  | vrcp (f : Form)
  /-- R237. Reciprocal square-root approximation. -/
  | vrsq (f : Form)
  /-- R237. Correctly rounded square root. -/
  | vsqrt (f : Form)
  /-- R238. Correctly rounded 2 to the power a. -/
  | vexp2 (f : Form)
  /-- R238. Correctly rounded base-2 logarithm. -/
  | vlog2 (f : Form)
  /-- R238. Sine of an argument in turns. -/
  | vsin (f : Form)
  /-- R238. Cosine of an argument in turns. -/
  | vcos (f : Form)
  /-- R239. Reduces 32 lanes by a fixed addition tree. -/
  | vredAdd (f : Form)
  /-- R239. Reduces 32 lanes by a fixed minimum tree. -/
  | vredMin (f : Form)
  /-- R239. Reduces 32 lanes by a fixed maximum tree. -/
  | vredMax (f : Form)
  /-- R241. Converts between element types across register ranges. -/
  | vcvt (f : Form)
  /-- R244. Seeds the per-lane stochastic generator in o7. -/
  | vseed (f : Form)
  /-- R245. Adds two products per lane to an FP32 accumulator. -/
  | vdot2 (f : Form)
  /-- R245. Adds four 8-bit products per lane. -/
  | vdot4 (f : Form)
  /-- R245. Adds eight 4-bit or codebook products per lane. -/
  | vdot8 (f : Form)
  /-- R240. Rounds each element to an integral value. -/
  | vrint (f : Form)
  /-- R249. Loads the codebook from a register. -/
  | cbld (f : Form)
  /-- R112. Re-declares a register at a new place and slot, carrying its value. -/
  | plc (f : Form)
  /-- R113. Reads a queue's free-slot count at issue. -/
  | qfree (f : Form)
  /-- R114. Waits for a partner group and swaps a register with it. -/
  | xchg (f : Form)
  /-- R115. Requests gating of an island and returns GRANTED, HELD or REFUSED. -/
  | pgr (f : Form)
  /-- R253. One member's part of a plain matrix step, joining the rendezvous latch. -/
  | mma (f : Form)
  /-- R253. One member's part of a Swallowtail matrix step. -/
  | mmaSw (f : Form)
  /-- R214. Zeroes one accumulator as plain. -/
  | mzero (f : Form)
  /-- R214. Forms and zeroes a Swallowtail pair with its count store. -/
  | mzeroSw (f : Form)
  /-- R215. Drains one accumulator row into registers. -/
  | mdr (f : Form)
  /-- R216. Drains a whole accumulator into scratchpad behind a watermark. -/
  | mdrSp (f : Form)
  /-- R217. Drains S+ minus S− of a Swallowtail row, or its counts. -/
  | sdrDiff (f : Form)
  /-- R217. Drains the min/max ratio of a Swallowtail row. -/
  | sdrRatio (f : Form)
  /-- R217. Drains a Swallowtail row in agreement mode. -/
  | sdrAgree (f : Form)
  /-- R218. Writes an agreement register. -/
  | agset (f : Form)
  /-- R177. Writes the gang register, waiting while the latch holds arrivals. -/
  | gang (f : Form)
  /-- R175. Waits until a ring slot shows the expected phase. -/
  | racq (f : Form)
  /-- R175. Flips the phase of a ring slot. -/
  | rrel (f : Form)
  /-- R255. Configures a ring's slot count and resets its phases. -/
  | rcfg (f : Form)
  /-- R257. Checks and issues a bulk copy behind a watermark or into a batch. -/
  | cpy (f : Form)
  /-- R258. Issues a gather copy driven by an index list. -/
  | cpg (f : Form)
  /-- R259. Issues a multicast copy to cohort scratchpads. -/
  | cpm (f : Form)
  /-- R261. Seals the current batch and returns its number. -/
  | cseal (f : Form)
  /-- R262. Waits until a sealed batch is complete. -/
  | cwait (f : Form)
  /-- R263. Reads a watermark's MARK. -/
  | wmrdMark (f : Form)
  /-- R263. Reads a watermark's STATE. -/
  | wmrdState (f : Form)
  /-- R263. Reads a watermark's BASE. -/
  | wmrdBase (f : Form)
  /-- R263. Reads a watermark's LIMIT. -/
  | wmrdLimit (f : Form)
  /-- R264. Sets a watermark idle or up as a listening watermark. -/
  | wmcfg (f : Form)
  /-- R108. Plain or acquiring load into a scalar or vector register. -/
  | ld (f : Form)
  /-- R109. Plain or releasing store of a scalar or vector register. -/
  | st (f : Form)
  /-- R110. Scratchpad load gated by watermarks. -/
  | ldSp (f : Form)
  /-- R110. Scratchpad store gated by watermarks. -/
  | stSp (f : Form)
  /-- R305. Split-phase 128 B load counted on an arrival counter. -/
  | lds (f : Form)
  /-- R307. Waits until an arrival counter is at most t. -/
  | kwait (f : Form)
  /-- R265. Atomic add applied at the home. -/
  | atomAdd (f : Form)
  /-- R265. Atomic minimum. -/
  | atomMin (f : Form)
  /-- R265. Atomic maximum. -/
  | atomMax (f : Form)
  /-- R308. Atomic AND. -/
  | atomAnd (f : Form)
  /-- R308. Atomic OR. -/
  | atomOr (f : Form)
  /-- R308. Atomic XOR. -/
  | atomXor (f : Form)
  /-- R308. Atomic exchange. -/
  | atomExch (f : Form)
  /-- R308. Atomic compare-and-swap against the old value of D. -/
  | atomCas (f : Form)
  /-- R267. Adds a value exactly to an exact-sum cell. -/
  | xsum (f : Form)
  /-- R268. Reads an exact-sum cell, rounding once. -/
  | xrd (f : Form)
  /-- R268. Reads an exact-sum cell and clears it in the same step. -/
  | xrdClr (f : Form)
  /-- R314. Orders the group's own accesses at a scope. -/
  | fence (f : Form)
  /-- R315. Arrives at a team or cohort barrier and waits for all participants. -/
  | bar (f : Form)
  /-- R363. Checks a launch record and team table and starts the launch. -/
  | lnch (f : Form)
  /-- R320. Tenders one team and waits for award or failure. -/
  | tndr (f : Form)
  /-- R317. Installs the partition's bid formula. -/
  | bidf (f : Form)
  /-- R366. Reads the award and placement record of a team. -/
  | tacc (f : Form)
  /-- R367. Replaces the group's level request. -/
  | perf (f : Form)
  /-- R368. Reads an island's level status word. -/
  | pwrqLvl (f : Form)
  /-- R368. Reads an island's power-state word. -/
  | pwrqGate (f : Form)
  /-- R368. Reads a cluster's Weir budget word. -/
  | pwrqWeir (f : Form)
  /-- R368. Reads a cluster's thermal word. -/
  | pwrqTherm (f : Form)
  /-- R395. Near-bank load of a stripe row into a bank register. -/
  | nbld (f : Form)
  /-- R395. Near-bank fused multiply-add with a stripe row. -/
  | nbfma (f : Form)
  /-- R370. Near-bank dot product of stripe rows with a vector. -/
  | nbdot (f : Form)
  /-- R395. Near-bank store of a bank register into a stripe row at commit. -/
  | nbst (f : Form)
  /-- R369. Maps a pinned compute-capable 2 MiB page. -/
  | mapc (f : Form)
  /-- R396. Removes a compute-capable page. -/
  | unmapc (f : Form)
  /-- R397. Invalidates translation-buffer entries for a range. -/
  | xinv (f : Form)
  /-- R398. Replays or declares unrecoverable a fault-buffer entry. -/
  | fbsvc (f : Form)
  /-- R159. Raises the software trap. -/
  | trap (f : Form)
  /-- R141. Returns from a user handler, restoring the relieved block. -/
  | tret (f : Form)
  /-- R161. Reads a trap register. -/
  | trr (f : Form)
  /-- R161. Writes a trap register. -/
  | trw (f : Form)
  /-- R148. Safe point: pre-empts the group if a request is pending. -/
  | spt (f : Form)
  /-- R164. Opens a non-preemptible region. -/
  | npr (f : Form)
  /-- R164. Closes a non-preemptible region. -/
  | epr (f : Form)
  /-- R28. Acquires a logical register block, waiting if the pool is empty. -/
  | rbget (f : Form)
  /-- R29. Releases a logical register block. -/
  | rbput (f : Form)
  /-- R166. Reads a system register. -/
  | srr (f : Form)
  /-- R166. Writes a system register and returns a status. -/
  | srw (f : Form)
  /-- R323. An srr of TRMARK acts as an acquire at .pk. -/
  | trmarkRead (f : Form)
  /-- R170. A write of TRBASE or TRSIZE sets the report ring unless reports are unconsumed. -/
  | trapRingSet (f : Form)
  /-- R170. Advances the consumed-report count within bounds. -/
  | trtailWrite (f : Form)
  /-- R167. Write of a system register that has no behaviour of its own. -/
  | sysregWrite (f : Form)
  /-- R172. Command code 1: requests a light pre-emption of a team. -/
  | preemptLight (f : Form)
  /-- R172. Command code 2: requests a full pre-emption of a team. -/
  | preemptFull (f : Form)
  /-- R157. Command code 3: restores a team from its frames. -/
  | restore (f : Form)
  /-- R172. Command code 4: resumes a stopped group at an address. -/
  | resume (f : Form)
  /-- R172. Command code 5: restores a handler-stopped group to depth 0 at an address. -/
  | resumet (f : Form)
  /-- R172. Command code 6: ends a team. -/
  | endteam (f : Form)
  /-- R172. Command code 7: withdraws a pending pre-emption. -/
  | cancel (f : Form)
  /-- R121. A place reports that an instruction has produced its result and exceptions. -/
  | instructionCompletion (g n : Nat)
  /-- R305. A split-phase reply writes its lanes and lowers its counter. -/
  | ldsReply (g n : Nat)
  /-- R269. A request arrives at its home and is applied or answered from the retry record. -/
  | homeRequest (r : HomeReq)
  /-- R335. The end report of the oldest incomplete team lands in index order. -/
  | teamEndReport (p slot : Nat)
  /-- R353. A 10 µs control interval starts; admission and overrun cap are re-evaluated. -/
  | weirInterval (cl used : Nat)
  /-- R359. Diodes are polled every 50 µs and the thermal class may change. -/
  | thermalPoll (cl tclu tbase : Nat)
  /-- R361. A supply droop throttles the partitions whose current rose fastest. -/
  | droopDetected (terrace : Nat) (ps : List Nat)
  /-- R222. The Sluice lands copy bytes in ascending order and advances MARK. -/
  | copyLand (c id n : Nat)
  /-- R229. Multicast bytes land at each destination and set landed bits. -/
  | multicastLand (c id pos n : Nat)
  /-- R333. The next cohort binds to a facing cluster pair and reserves. -/
  | cohortBind (p slot : Nat)
  /-- R328. A host write to an on queue's ring lands or is refused. -/
  | hostRingWrite (p off : Nat) (bytes : List Byte)
  /-- R327. The store at descriptor offset 0x08 clears flags, sets size and turns the queue on or off. -/
  | descriptorControlStore (p q : Nat) (x : Word)
  /-- R327. Advances the consumed count and frees landed bits. -/
  | consWrite (p q : Nat) (x : Word)
  /-- R327. A store to another descriptor field without behaviour of its own. -/
  | descriptorWrite (p q off : Nat) (x : Word)
  /-- R346. Each candidate samples its inputs, reserves and sends its bid. -/
  | bidSample (p : Nat) (rd : List (Nat × Nat × Nat))
  /-- R403. A Dyonaxo flit is received, checked and acknowledged or resent. -/
  | flitReceive (fl : Flit)
  /-- R278. A Device completion returns, or reports an error. -/
  | deviceCompletion (g seq : Nat) (ok : Bool) (bytes : List Byte)
  /-- R401. A cluster is reset for fault containment, ending its teams and closing its routers. -/
  | clusterReset (cl : Nat) (retire : Bool)
  /-- R386. Partition stops, relayouts, drops lost pages and places, and resumes. -/
  | remapStep (p : Nat) (map : Word)
  /-- R384. Firmware moves an unpinned page granule by granule to a new location. -/
  | pageExchange (p : Nat) (va la : Nat)
  /-- R383. A bank refresh falls due every 3.9 µs. -/
  | bankRefresh (p b : Nat)
  /-- R383. A bank's activation-count alert blocks it for refresh management. -/
  | activationAlert (p b : Nat)
  /-- R387. Patrol scrub reads columns, correcting or logging errors. -/
  | patrolScrub (p la syms : Nat)
  /-- R390. SRAM words are scrubbed and single errors corrected. -/
  | sramScrub (c off bits : Nat)
  /-- R389. A bus beat fails parity and is retried. -/
  | beatParityFail (p bus grp la : Nat)
  /-- R389. After the third failed retry the bus tests, swaps a spare and resends. -/
  | busLineTest (p bus : Nat) (line : Option Nat) (again : Bool)
  /-- R302. A host write through the memory window is applied at its home. -/
  | hostWindowWrite (p off : Nat) (bytes : List Byte)
  /-- R302. A host read through the memory window returns after earlier writes. -/
  | hostWindowRead (p off n : Nat)
  /-- R408. A host write to a control-page field without behaviour of its own. -/
  | controlPageWrite (p off : Nat) (x : Word)
  /-- R410. A store to the signal page raises an MSI-X vector. -/
  | signalPageStore (p : Nat) (x : Word)
  /-- R413. SPDM algorithm negotiation. -/
  | negotiateAlgorithms (fn : Nat) (offer : List Nat)
  /-- R413. SPDM certificate chain request. -/
  | getCertificate (fn slot : Nat)
  /-- R413. SPDM challenge signed by the identity key. -/
  | challenge (fn slot : Nat) (nonce : List Byte)
  /-- R413. SPDM measurement request. -/
  | getMeasurements (fn index : Nat)
  /-- R413. Measured boot checks and runs the loader and firmware. -/
  | moduleReset (boot : Boot)
  /-- R415. Every 1,000 powered hours firmware re-plans level voltages. -/
  | voltageReplan (lowered : List (Nat × Nat))
  /-- R83. An instruction word whose OP is reserved issues and raises an illegal-instruction trap, whatever role and other fields. -/
  | reservedOpcode (word : BitVec 32)
  /-- R383. A bank's refresh or refresh-management period of tRFCsb ends and waiting accesses proceed. -/
  | refreshComplete (p b : Nat)
  /-- R383. The slice carries out a postponed refresh of a bank when the traffic allows. -/
  | postponedRefresh (p b : Nat)
  /-- R18. Next fetch address equals the top join: second path starts or the entry pops. -/
  | joinArrival
  /-- R123. The oldest completed instruction commits and its held effects become visible. Of the group in `State.subject`. -/
  | instructionCommit
  /-- R138. The oldest uncommitted instruction traps and the trap is routed and entered. Of the group in `State.subject`. -/
  | trapEntry
  /-- R137. A pending report lands in the trap report ring when it has room and translates. Of the partition in `State.subject`. -/
  | trapReportLanding
  /-- R146. An access parked without a fault-buffer entry restarts once an entry frees. Of the group in `State.subject`. -/
  | accessRestart
  /-- R47. A pushed culvert entry arrives at the in end. Of the culvert queue in `State.subject`. -/
  | culvertEntryArrival
  /-- R52. A pop's slot return reaches the out end 12 cycles later. Of the culvert queue in `State.subject`. -/
  | slotReturn
  /-- R20. A group ends after its window drains, returning its blocks. Of the group in `State.subject`. -/
  | groupExit
  /-- R30. When every resident group waits in rbget, the oldest receives the emergency block. Of the core in `State.subject`. -/
  | emergencyBlockGrant
  /-- R55. A held gating request is granted once the island empties. Of the core in `State.subject`. -/
  | heldRequestGrant
  /-- R358. 500 ns after a grant the rails have discharged and the island enters hold. Of the core in `State.subject`. -/
  | gatingDischarged
  /-- R358. 2 µs after the grant the island becomes gated or serves a queued wake. Of the core in `State.subject`. -/
  | holdEnd
  /-- R358. The Headgate gives the next queued island its in-rush slot. Of the cluster in `State.subject`. -/
  | inrushSlot
  /-- R358. 200 ns after its slot the island is on and held placements proceed. Of the core in `State.subject`. -/
  | wakeComplete
  /-- R357. An island reaches its new target level within 1 µs. Of the core in `State.subject`. -/
  | levelReached
  /-- R361. Slew throttling ends once the rise is within budget and 1 µs has passed. Of the partition in `State.subject`. -/
  | slewThrottleEnd
  /-- R151. A region open 200 µs is closed by the hardware with a report. Of the group in `State.subject`. -/
  | nprTimeLimit
  /-- R149. A pending request and a word count over 4,096 pre-empt the group. Of the group in `State.subject`. -/
  | forcedSave
  /-- R150. A group stalled on a long-latency wait is pre-empted under a pending request. Of the group in `State.subject`. -/
  | stallPreemption
  /-- R153. After its window drains, a pre-empted group stops and writes its frame. Of the group in `State.subject`. -/
  | groupFrameWrite
  /-- R153. Team sections are written once all groups stopped and copies and engine work ended. Of the team in `State.subject`. -/
  | teamSectionsWrite
  /-- R157. A held RESTORE is placed and its frames reloaded when resources and partner allow. Of the team in `State.subject`. -/
  | restorePlacement
  /-- R341. An active group waiting 33 cycles is swapped out for a ready pending group. Of the group in `State.subject`. -/
  | longWaitSwap
  /-- R341. A yield swaps the group out while a ready pending group exists. Of the group in `State.subject`. -/
  | yieldSwap
  /-- R342. A pending group ready for 512 cycles displaces the longest-staying active group. Of the group in `State.subject`. -/
  | promotion
  /-- R342. A 2-cycle swap ends and the incoming group may issue. Of the group in `State.subject`. -/
  | swapComplete
  /-- R208. The last member arrives; the latch checks cover and releases one step. Of the team in `State.subject`. -/
  | gangStepRelease
  /-- R211. A step finishes 16 cycles after release; promotion and flags follow. Of the team in `State.subject`. -/
  | mmaStepComplete
  /-- R227. An unwaited failed batch lands a 0x44 report at exit or failure. Of the group in `State.subject`. -/
  | batchFailureReport
  /-- R25. A bound team is placed when resources and Weir issueCheck it, and its groups start. Of the team in `State.subject`. -/
  | teamPlacement
  /-- R344. A tender round is announced to the remaining candidates. Of the partition in `State.subject`. -/
  | tenderAnnounce
  /-- R321. The window closes; the award is sent or the tender ends with NOBID. Of the partition in `State.subject`. -/
  | tenderWindowClose
  /-- R348. The winner receives the award and accepts or withdraws. Of the partition in `State.subject`. -/
  | awardArrival
  /-- R349. Benching ends after 1,100,000 cycles. Of the core in `State.subject`. -/
  | benchExpiry
  /-- R321. A withdrawal reaches the arbiter; a report lands and a new round or failure follows. Of the partition in `State.subject`. -/
  | withdrawalArrival
  /-- R344. An acceptance reaches the arbiter and the tndr completes. Of the partition in `State.subject`. -/
  | acceptanceArrival
  /-- R404. A remote access without reply in 1 ms raises unrecoverable translation. Of the group in `State.subject`. -/
  | remoteTimeout
  /-- R407. A Device access without completion within CTO faults. Of the group in `State.subject`. -/
  | deviceCompletionTimeout
  /-- R279. The combining buffer drains after 1 µs without a store. Of the group in `State.subject`. -/
  | wcIdleDrain
  /-- R401. Router buffers empty, allowances restored and a 0x4D report lands. Of the cluster in `State.subject`. -/
  | clusterResetDone
  /-- R409. Control-page command 1 maps pages, writes the partition block and places the steward. Of the partition in `State.subject`. -/
  | start
  /-- R411. Control-page command 2 ends the partition's work as a Function Level Reset. Of the partition in `State.subject`. -/
  | stop
  /-- R408. Control-page command 3 ends and restarts the steward team. Of the partition in `State.subject`. -/
  | restart
  /-- R411. A Function Level Reset ends every launch and removes the partition's leaves. Of the partition in `State.subject`. -/
  | functionLevelReset
  /-- R413. SPDM request answered by the DOE mailbox. Of the function in `State.subject`. -/
  | getVersion
  /-- R413. SPDM capabilities request. Of the function in `State.subject`. -/
  | getCapabilities
  /-- R413. SPDM certificate digests request. Of the function in `State.subject`. -/
  | getDigests
  /-- R414. Optical calibration ends and reduced-service partitions pass to full service. Of the terrace in `State.subject`. -/
  | calibrationEnd
  /-- R358. A wake in state Gating cancels the gate, and within 40 ns the island returns to state On. Of the core in `State.subject`. -/
  | gateCancelled
  /-- R361. A partition's current demand would rise faster than its current-slew budget, and its vector and matrix ports issue in 1 cycle of every 2. Of the partition in `State.subject`. -/
  | currentSlewExceeded
deriving DecidableEq, Repr

end Sys2Proof
end

