-- ==== Sys2Proof/Machine/Opcode.lean ====
section
/-!
DEFINITION. What the opcode map (05/R79, R81) and the instruction entries say of each instruction's fields: its opcode,
the fields it uses, the types and roles it accepts and what each specifier field may name. `WellFormed` and `Decode` read
this table, and so does the issue stage (roles, steward-only marks).
-/

namespace Sys2Proof

/-- The type that a TYPE code names (04/R61); none for 0 and for the reserved codes. -/
def Ty.ofCode (n : Nat) : Option Ty :=
  [Ty.f64, .f32, .bf16, .f16, .e4m3, .e5m2, .e3m2, .e2m3, .e2m1, .e8m0, .mxe4m3, .mxe5m2, .mxe3m2, .mxe2m3, .mxe2m1,
    .cb4, .i4, .u4, .i8, .u8, .i16, .u16, .i32, .u32, .i64, .u64, .bf16x2, .v][n - 1]? |>.bind
    fun t => if n = 0 then none else some t

/-- The TYPE code of a type (04/R61). -/
def Ty.code : Ty → Nat
  | .f64 => 0x01 | .f32 => 0x02 | .bf16 => 0x03 | .f16 => 0x04 | .e4m3 => 0x05 | .e5m2 => 0x06 | .e3m2 => 0x07
  | .e2m3 => 0x08 | .e2m1 => 0x09 | .e8m0 => 0x0A | .mxe4m3 => 0x0B | .mxe5m2 => 0x0C | .mxe3m2 => 0x0D
  | .mxe2m3 => 0x0E | .mxe2m1 => 0x0F | .cb4 => 0x10 | .i4 => 0x11 | .u4 => 0x12 | .i8 => 0x13 | .u8 => 0x14
  | .i16 => 0x15 | .u16 => 0x16 | .i32 => 0x17 | .u32 => 0x18 | .i64 => 0x19 | .u64 => 0x1A | .bf16x2 => 0x1B | .v => 0x1C

/-- What a full 8-bit specifier names (04/R64). -/
inductive Spec where
  | vec (n : Nat)
  | opf (n : Nat)
  | lr
  | zero
  | laneid
  | quadid
  | gidx
  | sca (n : Nat)
  | imm (k : Int)
  | reserved
deriving DecidableEq, Repr

/-- The map of the full specifier (04/R64). -/
def Spec.of (x : BitVec 8) : Spec :=
  let n := x.toNat
  if n < 0x80 then .vec n
  else if n < 0x88 then .opf (n - 0x80)
  else if n = 0x88 then .lr
  else if n = 0x89 then .zero
  else if n = 0x8A then .laneid
  else if n = 0x8B then .quadid
  else if n = 0x8C then .gidx
  else if n < 0x90 then .reserved
  else if n < 0xD0 then .sca (n - 0x90)
  else if n < 0xE0 then .reserved
  else .imm (Int.ofNat n - 0xF0)

/-- `vN`, `oN` and `lr`. -/
def Spec.isVector : Spec → Bool
  | .vec _ | .opf _ | .lr => true
  | _ => false

/-- The sources that supply a scalar value (04/R65): `laneid`, `quadid` and vector registers do not. -/
def Spec.isScalarSource : Spec → Bool
  | .zero | .gidx | .sca _ | .imm _ => true
  | _ => false

/-- What an operand field may hold, as far as the fields alone decide it (04/R65, R66). -/
inductive Kind where
  /-- The opcode does not use the field: it is 0 (04/R68). -/
  | unused
  /-- An unsigned index below the bound (04/R66). -/
  | idx (bound : Nat)
  /-- A scalar register `s0`-`s63`. -/
  | scalar
  /-- Any scalar source (04/R65). -/
  | src
  /-- `s0`-`s63`, `zero` or an immediate (15/R247). -/
  | clearMask
  /-- `v0`-`v127`. -/
  | vreg
  /-- `vN` as the first register of a destination range. -/
  | vrange
  /-- `vN` or `oN`. -/
  | vdst
  /-- `vN`, `oN` or `lr`. -/
  | vol
  /-- Any source of a vector operand. -/
  | vsrc
  /-- A scalar register, `vN` or `oN`. -/
  | anyDst
  /-- A scalar source, `vN` or `oN`. -/
  | srcOrVec
  /-- Judged when its value is used (13/R206: the first fragment register). -/
  | late
deriving DecidableEq, Repr

/-- Whether a full specifier, or an index, is allowed in a field of this kind. -/
def Kind.ok (k : Kind) (x : BitVec 8) : Bool :=
  match k with
  | .unused => x == 0
  | .idx b => x.toNat < b
  | .scalar => match Spec.of x with | .sca _ => true | _ => false
  | .src => (Spec.of x).isScalarSource
  | .clearMask => match Spec.of x with | .sca _ | .zero | .imm _ => true | _ => false
  | .vreg | .vrange => match Spec.of x with | .vec _ => true | _ => false
  | .vdst => match Spec.of x with | .vec _ | .opf _ => true | _ => false
  | .vol => (Spec.of x).isVector
  | .vsrc => match Spec.of x with | .reserved => false | _ => true
  | .anyDst => match Spec.of x with | .sca _ | .vec _ | .opf _ => true | _ => false
  | .srcOrVec => match Spec.of x with | .vec _ | .opf _ => true | y => y.isScalarSource
  | .late => true

/-- Whether the field holds an index and not a specifier (04/R66), so that its short form is not expanded. -/
def Kind.isIndex : Kind → Bool
  | .idx _ | .unused => true
  | _ => false

/-- Which roles may issue (02/R13). -/
inductive Roles where
  | any | v | m | c | vm
deriving DecidableEq, Repr

def Roles.permits : Roles → Role → Bool
  | .any, _ | .v, .v | .m, .m | .c, .c | .vm, .v | .vm, .m => true
  | _, _ => false

/-- One instruction's row of R79, with its sub-function (R81) and what its entry accepts. `types = []` means that the
opcode takes no type. `steward` is the dagger mark (05/R84). `more` is what the entry adds, from the fields alone. -/
structure Info where
  op      : Nat
  fn      : Nat
  fnLast  : Nat := fn
  roles   : Roles := .any
  steward : Bool := false
  types   : List Ty := []
  base    : Ty := .v
  d       : Kind := .unused
  a       : Kind := .unused
  b       : Kind := .unused
  c       : Kind := .unused
  predOk  : Bool := false
  ords    : List Nat := [0]
  scopes  : List Nat := [0]
  counter : Bool := false
  place   : Bool := false
  immOk   : Bool := false
  imm2Ok  : Bool := false
  extOnly : Bool := false
  more    : Form → Bool := fun _ => true
  /-- How many registers, from the one named, D and each vector source name (02/R31, 04/R66). -/
  dspan   : Form → Nat := fun _ => 1
  sspan   : Form → Nat := fun _ => 1
  /-- The vector sources are FP64 pairs, whose registers must share a place (04/R66). -/
  spair   : Form → Bool := fun _ => false
  /-- D is read as an operand too (15/R245). -/
  readsD  : Bool := false
  /-- The places the destination may live at (03/R42), which may depend on `fm`. -/
  places  : Form → BitVec 32 → Place → Bool := fun _ _ p => p == .ln
  /-- A destination that is a queue register, or lies in a local queue's range, is illegal-at-place (13/R215, 19/R305). -/
  noQueue : Bool := false

/-- The effective type: TYPE, or the opcode's base type where TYPE is 0 (04/R61). -/
def Form.type (f : Form) (base : Ty) : Ty := (Ty.ofCode f.ty.toNat).getD base

/-- Whether the words carry the extended fields (LEN 01 and 11, 04/R60). -/
def Form.isExt (f : Form) : Bool := f.len == .ext || f.len == .extLit

/-- The specifier of source C: the destination in the base forms (04/R57). -/
def Form.cSpec (f : Form) : BitVec 8 := if f.isExt then f.c else f.d

/-- ORD asks for a release (19/R303). -/
def Form.releases (f : Form) : Bool := f.ord == 2 || f.ord == 3

/-- The scope is not `.gp` (18/R282). -/
def Form.wide (f : Form) : Bool := f.scope != 1

/-- The scope is `.sy` (18/R282). -/
def Form.sys (f : Form) : Bool := f.scope == 5

namespace Opcode

def scalarTypes : List Ty := [.i64, .u64, .i32, .u32]
def laneTypes : List Ty := [.i8, .u8, .i16, .u16, .i32, .u32]
def halfTypes : List Ty := [.i8, .u8, .i16, .u16]
def memTypes : List Ty := [.i8, .u8, .i16, .u16, .i32, .u32, .i64, .u64, .v]
def fpTypes : List Ty := [.f32, .bf16, .f16, .f64]
def mmaTypes : List Ty := [.bf16, .f16, .e4m3, .e5m2, .mxe4m3, .mxe5m2, .mxe2m1, .f32, .f64]
def atomTypes : List Ty := [.i32, .u32, .i64, .u64, .f32, .f64, .bf16x2]
def atomIntTypes : List Ty := [.i32, .u32, .i64, .u64]
def memScopes : List Nat := [0, 1, 2, 3, 4, 5]
def cvtTypes : List Ty :=
  [.f64, .f32, .bf16, .f16, .e4m3, .e5m2, .e2m1, .e8m0, .cb4, .mxe4m3, .mxe5m2, .mxe2m1,
    .i4, .u4, .i8, .u8, .i16, .u16, .i32, .u32]
/-- Source types that `vcvt` takes beside `cvtTypes` (15/R241, R243). -/
def cvtStorage : List Ty := [.e3m2, .e2m3, .mxe3m2, .mxe2m3]

def Ty.isInt : Ty → Bool
  | .i4 | .u4 | .i8 | .u8 | .i16 | .u16 | .i32 | .u32 | .i64 | .u64 => true
  | _ => false

def Ty.isMx : Ty → Bool
  | .mxe4m3 | .mxe5m2 | .mxe3m2 | .mxe2m3 | .mxe2m1 => true
  | _ => false

/-- The pairs of types that `vcvt` converts between (15/R241). -/
def cvtPair (src dst : Ty) : Bool :=
  cvtTypes.contains dst && (cvtTypes.contains src || cvtStorage.contains src) && src != dst
    && !(Ty.isInt src && Ty.isInt dst) && !(Ty.isMx src && Ty.isMx dst && !cvtStorage.contains src)
    && (match src with
        | .e3m2 => dst == .e5m2 | .e2m3 => dst == .e4m3 | .mxe3m2 => dst == .mxe5m2 | .mxe2m3 => dst == .mxe4m3
        | _ => true)

/-- The source type in FN of `vcvt`; 0 means FP32 (15/R241). -/
def cvtSource (f : Form) : Option Ty := if f.fn = 0 then some .f32 else Ty.ofCode f.fn.toNat

/-- An FP64 operand may not be an odd `vN` or `oN`, nor `lr` (04/R66). -/
def evenPair (x : BitVec 8) : Bool :=
  match Spec.of x with
  | .vec n | .opf n => n % 2 == 0
  | .lr => false
  | _ => true

/-- An immediate source that the float type holds exactly (04/R65). -/
def immFits (t : Ty) (x : BitVec 8) : Bool :=
  match Spec.of x with
  | .imm k => match t with
    | .e5m2 | .mxe5m2 => !([9, 11, 13, 15].contains k.natAbs)
    | .e2m1 | .mxe2m1 => [0, 1, 2, 3, 4, 6].contains k.natAbs
    | .cb4 => false
    | _ => true
  | _ => true

def pairsOk (ks : List (BitVec 8)) (t : Ty) : Bool := t != .f64 || ks.all evenPair

/-- Scalar destinations take the integer types and no predicate, vector ones `.v` (06/R108). -/
def loadMore (f : Form) : Bool :=
  match Spec.of f.d with
  | .sca _ => f.type .v != .v && f.pred.isNone
  | _ => f.type .v == .v

/-- Stores of a scalar type take a scalar source and no predicate (06/R109). -/
def storeMore (f : Form) : Bool :=
  f.type .v == .v || ((Spec.of f.d).isScalarSource && f.pred.isNone)

/-- The scalar and the vector form of an atomic (17/R265, 19/R309). -/
def atomMore (f : Form) : Bool :=
  match Spec.of f.d with
  | .sca _ => f.pred.isNone && (Spec.of f.b).isScalarSource && (Spec.of f.cSpec).isScalarSource
  | _ => [Ty.i32, .u32, .f32, .bf16x2].contains (f.type .i32)

/-- The scalar and the vector form of `xsum` (17/R267, 19/R311, R312). -/
def xsumMore (f : Form) : Bool :=
  match Spec.of f.d with
  | .vec n | .opf n => f.type .f32 != .f64 || n % 2 == 0
  | x => x.isScalarSource && f.pred.isNone

/-- A range of registers from D that stays below `v127`. -/
def rangeOk (x : BitVec 8) (n : Nat) : Bool := x.toNat + n ≤ 0x80

/-- `tndr`: WIN 64 to 4,096 in bits 12:0, TRAP in bit 16, the rest 0; next address values of 20/R320. -/
def tndrMore (f : Form) : Bool :=
  let w := f.imm2.toNat % 0x2000
  f.len == .extLit && f.imm2.toNat - w ∈ [0, 0x1_0000] && 64 ≤ w && w ≤ 4096
    && (match f.nx with | .seq | .loop | .ret | .exit | .yield => true | _ => false)

/-- `cpy` and `cpg` flags (16/R256): bits 63:4 zero, WID not 11, D 0 for a global destination. -/
def copyMore (f : Form) : Bool :=
  f.imm.toNat < 16 && f.imm.toNat / 4 != 3 && (f.imm.toNat % 2 == 0 || f.d == 0)

def anyPlace : Form → BitVec 32 → Place → Bool := fun _ _ _ => true
def lnSp : Form → BitVec 32 → Place → Bool := fun _ _ p => p == .ln || p == .sp
def lnPlace : Form → BitVec 32 → Place → Bool := fun _ _ p => p == .ln
def nbOnly : Form → BitVec 32 → Place → Bool := fun _ _ p => p == .nb

/-- Floating point at a place: everywhere, FP64 only at `ln` and `sp` (03/R42). -/
def fpPlace (base : Ty) : Form → BitVec 32 → Place → Bool :=
  fun f _ p => f.type base != .f64 || p == .ln || p == .sp

def rintPlace : Form → BitVec 32 → Place → Bool :=
  fun f _ p => p == .ln || p == .sp || (p == .pe && f.type .f32 != .f64)

/-- Two registers for an FP64 operand (04/R66). -/
def pairSpan (base : Ty) : Form → Nat := fun f => if f.type base == .f64 then 2 else 1

def scalar3 (op fn : Nat) (types : List Ty) (base : Ty) : Info :=
  { op, fn, types, base, d := .scalar, a := .src, b := .src, immOk := true }

def vint (op fn : Nat) (types : List Ty) (base : Ty) (b : Kind := .vsrc) : Info :=
  { op, fn, types, base, roles := .v, d := .vdst, a := .vsrc, b, predOk := true, places := anyPlace }

def vfp (op fn : Nat) (types : List Ty) (b : Kind) : Info :=
  { op, fn, types, base := .f32, roles := .v, d := .vdst, a := .vsrc, b, predOk := true, places := fpPlace .f32,
    dspan := pairSpan .f32, sspan := pairSpan .f32, spair := fun f => f.type .f32 == .f64,
    more := fun f => pairsOk [f.d, f.a, f.b] (f.type .f32) && immFits (f.type .f32) f.a && immFits (f.type .f32) f.b }

def vdot (op : Nat) (types : List Ty) (base : Ty) : Info :=
  { op, fn := 0, types, base, roles := .v, d := .vdst, a := .vsrc, b := .vsrc, predOk := true, places := lnSp,
    readsD := true }

def pred3 (fn : Nat) (b : Kind) : Info := { op := 0x02, fn, d := .idx 8, a := .idx 8, b }

def fmtI (fn : Nat) : Info := { op := 0x06, fn, a := .src, immOk := true }

def atomI (fn : Nat) (types : List Ty) : Info :=
  { op := 0xB6, fn, types, base := .i32, d := .anyDst, a := .src, b := .srcOrVec, c := .vsrc, predOk := true,
    ords := [0, 1, 2, 3], scopes := memScopes, immOk := true, more := atomMore }

def sdrI (fn : Nat) (types : List Ty) : Info :=
  { op := 0x94, fn, types, base := .f32, roles := .vm, d := .vrange, a := .idx 8, b := .src, noQueue := true, dspan := fun _ => 3,
    more := fun f => f.a.toNat % 2 == 0 && rangeOk f.d 3 }

def cmdI (code : Nat) : Info :=
  { op := 0xEF, fn := 1, steward := true, d := .scalar, a := .src, immOk := true,
    more := fun f => f.imm == 0x24 && f.a.toNat == 0xF0 + code }

def fmaMore (f : Form) : Bool :=
  pairsOk [f.d, f.a, f.b, f.cSpec] (f.type .f32) && [f.a, f.b, f.cSpec].all (immFits (f.type .f32))

def cmppMore (f : Form) : Bool :=
  pairsOk [f.a, f.b] (f.type .f32) && immFits (f.type .f32) f.a && immFits (f.type .f32) f.b

/-- Elements of a type in one 32-bit lane of a unit (15/R242). -/
def perLane : Ty → Nat
  | .bf16 | .f16 | .i16 | .u16 => 2
  | .e4m3 | .e5m2 | .mxe4m3 | .mxe5m2 | .e8m0 | .i8 | .u8 => 4
  | .e2m1 | .mxe2m1 | .cb4 | .i4 | .u4 => 8
  | _ => 1

/-- FP6 is read packed from one register (15/R243). -/
def Ty.isFp6 : Ty → Bool
  | .e3m2 | .e2m3 | .mxe3m2 | .mxe2m3 => true
  | _ => false

/-- The registers that the source and the destination of `vcvt` span (15/R242). -/
def cvtSourceSpan (f : Form) : Nat :=
  let src := (cvtSource f).getD .f32
  if Ty.isFp6 src then 1 else (if src == .f64 then 2 else 1) * max 1 (perLane (f.type .f32) / perLane src)

def cvtDestSpan (f : Form) : Nat :=
  let src := (cvtSource f).getD .f32
  if Ty.isFp6 src then 1 else (if f.type .f32 == .f64 then 2 else 1) * max 1 (perLane src / perLane (f.type .f32))

/-- A range of more than one unit names `v` registers and stays below `v127` (15/R242). -/
def cvtRange (x : BitVec 8) (units span : Nat) : Bool :=
  units ≤ 1 || (match Spec.of x with | .vec n => n + span ≤ 0x80 | _ => false)

def cvtMore (f : Form) : Bool :=
  match cvtSource f with
  | some src => cvtPair src (f.type .f32) && pairsOk [f.a] src && pairsOk [f.d] (f.type .f32)
      && (Ty.isFp6 src || (cvtRange f.a (perLane (f.type .f32) / perLane src) (cvtSourceSpan f)
        && cvtRange f.d (perLane src / perLane (f.type .f32)) (cvtDestSpan f)))
  | none => false

/-- The places of `vcvt` (15/R241), by RND of `fm` and the codebook. -/
def cvtPlace (f : Form) (fm : BitVec 32) (p : Place) : Bool :=
  let dst := f.type .f32
  let stochastic := fm.toNat / 2 ^ 5 % 8 == 4
  if stochastic && [Ty.bf16, .e5m2, .e4m3, .e2m1, .mxe5m2, .mxe4m3, .mxe2m1].contains dst then p == .ln
  else if dst == .cb4 || cvtSource f == some .cb4 then p == .ln || p == .sp
  else p == .ln || p == .sp || p == .pe

/-- `mma`: K steps 1 to 16; an FP64 accumulator is an even pair (13/R206, R213). -/
def mmaMore (f : Form) : Bool :=
  0 < f.imm.toNat && f.imm.toNat ≤ 16 && (f.type .bf16 != .f64 || f.d.toNat % 2 == 0)

def mmaSwMore (f : Form) : Bool := 0 < f.imm.toNat && f.imm.toNat ≤ 16 && f.d.toNat % 2 == 0

/-- `mdr` writes three registers, or three pairs (13/R215). -/
def mdrMore (f : Form) : Bool :=
  if f.type .f32 == .f64 then f.d.toNat % 2 == 0 && rangeOk f.d 6 else rangeOk f.d 3

def cpgMore (f : Form) : Bool := f.ty != 0 && copyMore f

def cpmMore (f : Form) : Bool := f.imm.toNat < 0x2_0000 && f.imm.toNat % 0x1_0000 != 0

def barMore (f : Form) : Bool := f.imm.toNat < (if f.scope == 3 then 0x1_0000 else 0x1_0000_0000)

def perfMore (f : Form) : Bool :=
  (Spec.of f.a).isVector || ((Spec.of f.a).isScalarSource && f.pred.isNone)

def srrMore (f : Form) : Bool :=
  [0x00, 0x01, 0x02, 0x03, 0x10, 0x11, 0x13, 0x20, 0x21, 0x22, 0x23].contains f.imm.toNat

def srwMore (f : Form) : Bool := f.imm == 0x24 && !(0xF1 ≤ f.a.toNat && f.a.toNat ≤ 0xF7)

def sysregMore (f : Form) : Bool := 0x20 ≤ f.imm.toNat && f.imm.toNat ≤ 0x23

end Opcode

open Opcode

/-- The row of each instruction and its fields; none for the constructors that are no instruction word. FN 0 and 1 of `0x57` use no B
(log 9). -/
def Instr.row : Instr → Option (Info × Form)
  | .nop f => some ({ op := 0x00, fn := 0 }, f)
  | .lps f => some ({ op := 0x01, fn := 0, a := .src, immOk := true }, f)
  | .pmov f => some (pred3 0 .unused, f)
  | .pand f => some (pred3 1 (.idx 8), f)
  | .por f => some (pred3 2 (.idx 8), f)
  | .pxor f => some (pred3 3 (.idx 8), f)
  | .pandn f => some (pred3 4 (.idx 8), f)
  | .pnot f => some (pred3 5 .unused, f)
  | .pget f => some ({ op := 0x03, fn := 0, d := .scalar, a := .idx 8 }, f)
  | .pset f => some ({ op := 0x04, fn := 0, d := .idx 8, a := .src }, f)
  | .emget f => some ({ op := 0x05, fn := 0, d := .scalar }, f)
  | .emset f => some ({ op := 0x05, fn := 1, a := .src, immOk := true }, f)
  | .fmt f => some (fmtI 0, f)
  | .fmtRnd f => some (fmtI 1, f)
  | .fmtAb f => some (fmtI 2, f)
  | .fmtFtz f => some (fmtI 3, f)
  | .fmtCbs f => some (fmtI 4, f)
  | .fmtTrp f => some (fmtI 5, f)
  | .fmrd f => some ({ op := 0x06, fn := 6, d := .scalar }, f)
  | .ffget f => some ({ op := 0x07, fn := 0, d := .scalar }, f)
  | .ffclr f => some ({ op := 0x07, fn := 1, d := .clearMask }, f)
  | .mov f => some ({
      op := 0x10, fn := 0, types := scalarTypes, base := .u64, d := .scalar, a := .src, immOk := true }, f)
  | .add f => some (scalar3 0x11 0 scalarTypes .u64, f)
  | .sub f => some (scalar3 0x12 0 scalarTypes .u64, f)
  | .mul f => some (scalar3 0x13 0 scalarTypes .u64, f)
  | .mulh f => some (scalar3 0x13 1 scalarTypes .u64, f)
  | .mulhu f => some (scalar3 0x13 2 scalarTypes .u64, f)
  | .div f => some (scalar3 0x14 0 scalarTypes .u64, f)
  | .divu f => some (scalar3 0x14 1 scalarTypes .u64, f)
  | .rem f => some (scalar3 0x14 2 scalarTypes .u64, f)
  | .remu f => some (scalar3 0x14 3 scalarTypes .u64, f)
  | .and f => some (scalar3 0x15 0 [] .u64, f)
  | .or f => some (scalar3 0x15 1 [] .u64, f)
  | .xor f => some (scalar3 0x15 2 [] .u64, f)
  | .andn f => some (scalar3 0x15 3 [] .u64, f)
  | .shl f => some (scalar3 0x16 0 [] .u64, f)
  | .shr f => some (scalar3 0x16 1 [] .u64, f)
  | .sra f => some (scalar3 0x16 2 [] .u64, f)
  | .rol f => some (scalar3 0x16 3 [] .u64, f)
  | .min f => some (scalar3 0x17 0 [.i64, .i32] .i64, f)
  | .max f => some (scalar3 0x17 1 [.i64, .i32] .i64, f)
  | .minu f => some (scalar3 0x17 2 [.i64, .i32] .i64, f)
  | .maxu f => some (scalar3 0x17 3 [.i64, .i32] .i64, f)
  | .cmp f => some ({ scalar3 0x18 0 scalarTypes .i64 with fnLast := 5, d := .idx 8 }, f)
  | .sel f => some ({ op := 0x19, fn := 0, d := .scalar, a := .src, b := .src, c := .src }, f)
  | .clz f => some ({ op := 0x1A, fn := 0, d := .scalar, a := .src }, f)
  | .ctz f => some ({ op := 0x1A, fn := 1, d := .scalar, a := .src }, f)
  | .popc f => some ({ op := 0x1A, fn := 2, d := .scalar, a := .src }, f)
  | .sxt f => some ({ op := 0x1B, fn := 0, types := laneTypes, base := .u32, d := .scalar, a := .src }, f)
  | .zxt f => some ({ op := 0x1B, fn := 1, types := laneTypes, base := .u32, d := .scalar, a := .src }, f)
  | .vget f => some ({ op := 0x1C, fn := 0, d := .scalar, a := .vol, b := .src }, f)
  | .vmov f => some ({ vint 0x30 0 [.v, .f32, .bf16, .f16, .e4m3, .e5m2, .i8, .u8, .i16, .u16, .i32, .u32] .v .unused with
      more := fun f => immFits (f.type .v) f.a }, f)
  | .vaddInt f => some (vint 0x31 0 laneTypes .i32, f)
  | .vsubInt f => some (vint 0x32 0 laneTypes .i32, f)
  | .vmulInt f => some ({ vint 0x33 0 laneTypes .i32 with places := lnSp }, f)
  | .vmulh f => some ({ vint 0x33 1 laneTypes .i32 with places := lnSp }, f)
  | .vmad f => some ({ vint 0x34 0 laneTypes .i32 with c := .vsrc, places := lnSp }, f)
  | .vand f => some (vint 0x35 0 [] .u32, f)
  | .vor f => some (vint 0x35 1 [] .u32, f)
  | .vxor f => some (vint 0x35 2 [] .u32, f)
  | .vandn f => some (vint 0x35 3 [] .u32, f)
  | .vshl f => some (vint 0x36 0 laneTypes .u32, f)
  | .vshr f => some (vint 0x36 1 laneTypes .u32, f)
  | .vsra f => some (vint 0x36 2 laneTypes .u32, f)
  | .vminInt f => some (vint 0x37 0 laneTypes .i32, f)
  | .vmaxInt f => some (vint 0x37 1 laneTypes .i32, f)
  | .vcmpInt f => some ({ vint 0x38 0 laneTypes .i32 with fnLast := 5 }, f)
  | .vcmppInt f => some ({ vint 0x39 0 [.i32, .u32] .i32 with fnLast := 5, d := .idx 8 }, f)
  | .vsel f => some ({ vint 0x3A 0 [] .u32 with c := .vsrc }, f)
  | .vshflIdx f => some ({ vint 0x3B 0 [] .u32 with a := .vol, places := lnPlace }, f)
  | .vshflUp f => some ({ vint 0x3B 1 [] .u32 .src with a := .vol, places := lnPlace }, f)
  | .vshflDn f => some ({ vint 0x3B 2 [] .u32 .src with a := .vol, places := lnPlace }, f)
  | .vshflXor f => some ({ vint 0x3B 3 [] .u32 .src with a := .vol, places := lnPlace }, f)
  | .vshflBc f => some ({ vint 0x3B 4 [] .u32 .src with a := .vol, places := lnPlace }, f)
  | .qswz f => some ({ vint 0x3C 0 [] .u32 .unused with places := lnPlace, immOk := true, more := fun f => f.imm.toNat < 256 }, f)
  | .vpack f => some (vint 0x3D 0 halfTypes .i16 .unused, f)
  | .vunpack f => some (vint 0x3D 1 halfTypes .i16 .unused, f)
  | .vclz f => some (vint 0x3E 0 [] .u32 .unused, f)
  | .vpopc f => some (vint 0x3E 1 [] .u32 .unused, f)
  | .vsclget f => some (vint 0x3F 0 [] .v .unused, f)
  | .vsclset f => some (vint 0x3F 1 [] .v .unused, f)
  | .vaddFp f => some (vfp 0x50 0 fpTypes .vsrc, f)
  | .vsubFp f => some (vfp 0x51 0 fpTypes .vsrc, f)
  | .vmulFp f => some (vfp 0x52 0 fpTypes .vsrc, f)
  | .vfma f => some ({ vfp 0x53 0 fpTypes .vsrc with c := .vsrc, more := fmaMore }, f)
  | .vminFp f => some (vfp 0x54 0 fpTypes .vsrc, f)
  | .vmaxFp f => some (vfp 0x54 1 fpTypes .vsrc, f)
  | .vcmpFp f => some ({ vfp 0x55 0 fpTypes .vsrc with fnLast := 7 }, f)
  | .vcmppFp f => some ({ vfp 0x56 0 [.f32, .f64] .vsrc with fnLast := 7, d := .idx 8, more := cmppMore }, f)
  | .vabs f => some (vfp 0x57 0 fpTypes .unused, f)
  | .vneg f => some (vfp 0x57 1 fpTypes .unused, f)
  | .vcpsgn f => some (vfp 0x57 2 fpTypes .vsrc, f)
  | .vrcp f => some ({ vfp 0x58 0 [.f32] .unused with places := lnPlace }, f)
  | .vrsq f => some ({ vfp 0x58 1 [.f32] .unused with places := lnPlace }, f)
  | .vsqrt f => some ({ vfp 0x58 2 [.f32, .f64] .unused with places := lnPlace }, f)
  | .vexp2 f => some ({ vfp 0x59 0 [.f32] .unused with places := lnPlace }, f)
  | .vlog2 f => some ({ vfp 0x59 1 [.f32] .unused with places := lnPlace }, f)
  | .vsin f => some ({ vfp 0x5A 0 [.f32] .unused with places := lnPlace }, f)
  | .vcos f => some ({ vfp 0x5A 1 [.f32] .unused with places := lnPlace }, f)
  | .vredAdd f => some ({ vfp 0x5B 0 [.f32] .unused with places := lnPlace }, f)
  | .vredMin f => some ({ vfp 0x5B 1 [.f32] .unused with places := lnPlace }, f)
  | .vredMax f => some ({ vfp 0x5B 2 [.f32] .unused with places := lnPlace }, f)
  | .vcvt f => some ({
      op := 0x5C, fn := 0, fnLast := 0x1C, roles := .v, types := cvtTypes, base := .f32, d := .vrange, a := .vol,
      predOk := true, more := cvtMore, places := cvtPlace, dspan := cvtDestSpan, sspan := cvtSourceSpan,
      spair := fun f => cvtSource f == some .f64 }, f)
  | .vseed f => some ({ op := 0x5D, fn := 0, roles := .v, a := .vsrc, predOk := true }, f)
  | .vdot2 f => some (vdot 0x5E [.bf16, .f16] .bf16, f)
  | .vdot4 f => some (vdot 0x5F [.e4m3, .e5m2, .mxe4m3, .mxe5m2] .e4m3, f)
  | .vdot8 f => some (vdot 0x60 [.e2m1, .mxe2m1, .cb4] .e2m1, f)
  | .vrint f => some ({ vfp 0x61 0 fpTypes .unused with places := rintPlace }, f)
  | .cbld f => some ({ op := 0x62, fn := 0, roles := .v, a := .vol }, f)
  | .plc f => some ({ op := 0x80, fn := 0, d := .vreg, place := true, immOk := true }, f)
  | .qfree f => some ({ op := 0x81, fn := 0, d := .scalar, a := .vreg }, f)
  | .xchg f => some ({ op := 0x82, fn := 0, d := .vreg, a := .src }, f)
  | .pgr f => some ({ op := 0x83, fn := 0, d := .scalar, a := .src }, f)
  | .mma f => some ({
      op := 0x90, fn := 0, roles := .m, types := mmaTypes, base := .bf16, d := .idx 8, a := .late, b := .late,
      c := .src, immOk := true, extOnly := true, more := mmaMore }, f)
  | .mmaSw f => some ({
      op := 0x91, fn := 0, roles := .m, types := mmaTypes.filter (· != .f64), base := .bf16, d := .idx 8, a :=
      .late, b := .late, c := .src, immOk := true, extOnly := true, more := mmaSwMore }, f)
  | .mzero f => some ({ op := 0x92, fn := 0, roles := .m, d := .idx 8 }, f)
  | .mzeroSw f => some ({ op := 0x92, fn := 1, roles := .m, d := .idx 8, more := fun f => f.d.toNat % 2 == 0 }, f)
  | .mdr f => some ({
      op := 0x93, fn := 0, roles := .vm, types := [.f32, .f64], base := .f32, d := .vrange, a := .idx 8, b :=
      .src, more := mdrMore, noQueue := true, dspan := fun f => if f.type .f32 == .f64 then 6 else 3 }, f)
  | .mdrSp f => some ({
      op := 0x93, fn := 1, roles := .vm, types := [.f32, .f64], base := .f32, d := .idx 8, a := .idx 8, b :=
      .src }, f)
  | .sdrDiff f => some (sdrI 0 [.f32, .u32], f)
  | .sdrRatio f => some (sdrI 1 [.f32], f)
  | .sdrAgree f => some (sdrI 2 [.f32], f)
  | .agset f => some ({ op := 0x95, fn := 0, roles := .vm, d := .idx 4, a := .src }, f)
  | .gang f => some ({ op := 0x96, fn := 0, roles := .m, a := .src }, f)
  | .racq f => some ({ op := 0x97, fn := 0, d := .idx 32, immOk := true, more := fun f => f.imm.toNat < 2 }, f)
  | .rrel f => some ({ op := 0x98, fn := 0, d := .idx 32 }, f)
  | .rcfg f => some ({ op := 0x99, fn := 0, d := .idx 4, a := .src }, f)
  | .cpy f => some ({
      op := 0xA0, fn := 0, roles := .c, d := .idx 8, a := .src, b := .src, c := .vol, immOk := true, extOnly :=
      true, more := copyMore }, f)
  | .cpg f => some ({
      op := 0xA1, fn := 0, roles := .c, types := [.u16, .u32, .i32], base := .v, d := .idx 8, a := .src, b :=
      .src, c := .vol, immOk := true, extOnly := true, more := cpgMore }, f)
  | .cpm f => some ({
      op := 0xA2, fn := 0, roles := .c, d := .idx 8, a := .src, b := .src, c := .vol, immOk := true, extOnly :=
      true, more := cpmMore }, f)
  | .cseal f => some ({ op := 0xA3, fn := 0, roles := .c, d := .scalar }, f)
  | .cwait f => some ({ op := 0xA4, fn := 0, roles := .c, a := .src }, f)
  | .wmrdMark f => some ({ op := 0xA5, fn := 0, d := .scalar, a := .idx 8 }, f)
  | .wmrdState f => some ({ op := 0xA5, fn := 1, d := .scalar, a := .idx 8 }, f)
  | .wmrdBase f => some ({ op := 0xA5, fn := 2, d := .scalar, a := .idx 8 }, f)
  | .wmrdLimit f => some ({ op := 0xA5, fn := 3, d := .scalar, a := .idx 8 }, f)
  | .wmcfg f => some ({ op := 0xA6, fn := 0, roles := .c, d := .idx 8, a := .src, b := .src }, f)
  | .ld f => some ({
      op := 0xB0, fn := 0, types := memTypes, d := .anyDst, a := .src, b := .src, predOk := true, ords := [0,
      1], scopes := memScopes, immOk := true, more := loadMore,
      places := lnSp }, f)
  | .st f => some ({
      op := 0xB1, fn := 0, types := memTypes, d := .vsrc, a := .src, b := .src, predOk := true, ords := [0, 2],
      scopes := memScopes, immOk := true, more := storeMore }, f)
  | .ldSp f => some ({
      op := 0xB2, fn := 0, types := memTypes, d := .anyDst, a := .src, b := .src, predOk := true, immOk :=
      true, more := loadMore, places := lnSp }, f)
  | .stSp f => some ({
      op := 0xB3, fn := 0, types := memTypes, d := .vsrc, a := .src, b := .src, predOk := true, immOk := true,
      more := storeMore }, f)
  | .lds f => some ({
      op := 0xB4, fn := 0, types := [.v], d := .vdst, a := .src, b := .src, predOk := true, ords := [0, 1],
      scopes := memScopes, counter := true, immOk := true, places := lnSp,
      noQueue := true }, f)
  | .kwait f => some ({ op := 0xB5, fn := 0, a := .idx 16, b := .src }, f)
  | .atomAdd f => some (atomI 0 atomTypes, f)
  | .atomMin f => some (atomI 1 atomTypes, f)
  | .atomMax f => some (atomI 2 atomTypes, f)
  | .atomAnd f => some (atomI 3 atomIntTypes, f)
  | .atomOr f => some (atomI 4 atomIntTypes, f)
  | .atomXor f => some (atomI 5 atomIntTypes, f)
  | .atomExch f => some (atomI 6 atomIntTypes, f)
  | .atomCas f => some ({ atomI 7 atomIntTypes with readsD := true }, f)
  | .xsum f => some ({
      op := 0xB7, fn := 0, types := [.f32, .f64], base := .f32, d := .srcOrVec, a := .src, b := .src, predOk :=
      true, scopes := memScopes, immOk := true, more := xsumMore, dspan := pairSpan .f32, spair := fun f => f.type .f32 == .f64 }, f)
  | .xrd f => some ({
      op := 0xB8, fn := 0, types := [.f32, .f64], base := .f32, d := .scalar, a := .src, b := .src, scopes :=
      memScopes, immOk := true }, f)
  | .xrdClr f => some ({
      op := 0xB8, fn := 1, types := [.f32, .f64], base := .f32, d := .scalar, a := .src, b := .src, scopes :=
      memScopes, immOk := true }, f)
  | .fence f => some ({ op := 0xB9, fn := 0, ords := [0, 1, 2, 3], scopes := memScopes }, f)
  | .bar f => some ({ op := 0xBA, fn := 0, scopes := [0, 2, 3], immOk := true, more := barMore }, f)
  | .lnch f => some ({ op := 0xD0, fn := 0, steward := true, d := .scalar, a := .src }, f)
  | .tndr f => some ({
      op := 0xD1, fn := 0, steward := true, d := .scalar, a := .src, immOk := true, imm2Ok := true, extOnly :=
      true, more := tndrMore }, f)
  | .bidf f => some ({ op := 0xD2, fn := 0, steward := true, a := .src, immOk := true }, f)
  | .tacc f => some ({ op := 0xD3, fn := 0, steward := true, d := .scalar, a := .src }, f)
  | .perf f => some ({ op := 0xD4, fn := 0, a := .vsrc, predOk := true, more := perfMore }, f)
  | .pwrqLvl f => some ({ op := 0xD5, fn := 0, d := .scalar, a := .src }, f)
  | .pwrqGate f => some ({ op := 0xD5, fn := 1, d := .scalar, a := .src }, f)
  | .pwrqWeir f => some ({ op := 0xD5, fn := 2, d := .scalar, a := .src }, f)
  | .pwrqTherm f => some ({ op := 0xD5, fn := 3, d := .scalar, a := .src }, f)
  | .nbld f => some ({
      op := 0xE0, fn := 0, roles := .v, types := [.v], d := .vdst, a := .src, b := .src, predOk := true, immOk
      := true, places := nbOnly }, f)
  | .nbfma f => some ({
      op := 0xE1, fn := 0, roles := .v, types := [.f32, .bf16, .f16], base := .f32, d := .vdst, a := .src, b :=
      .vsrc, c := .vsrc, predOk := true, places := nbOnly }, f)
  | .nbdot f => some ({
      op := 0xE2, fn := 0, roles := .v, types := [.bf16, .f16], base := .bf16, d := .vdst, a := .src, b :=
      .vsrc, predOk := true, places := nbOnly }, f)
  | .nbst f => some ({
      op := 0xE3, fn := 0, roles := .v, types := [.v], d := .vdst, a := .src, b := .src, predOk := true, immOk
      := true, places := nbOnly }, f)
  | .mapc f => some ({ op := 0xE4, fn := 0, steward := true, d := .scalar, a := .src, b := .src }, f)
  | .unmapc f => some ({ op := 0xE4, fn := 1, steward := true, d := .scalar, a := .src }, f)
  | .xinv f => some ({ op := 0xE5, fn := 0, steward := true, a := .src, b := .src, scopes := [0, 3, 4] }, f)
  | .fbsvc f => some ({ op := 0xE6, fn := 0, steward := true, d := .scalar, a := .src }, f)
  | .trap f => some ({ op := 0xE8, fn := 0, immOk := true }, f)
  | .tret f => some ({ op := 0xE9, fn := 0, more := fun f => f.nx == .seq }, f)
  | .trr f => some ({ op := 0xEA, fn := 0, d := .scalar, a := .idx 5 }, f)
  | .trw f => some ({ op := 0xEB, fn := 0, d := .idx 5, a := .src }, f)
  | .spt f => some ({ op := 0xEC, fn := 0, immOk := true, more := fun f => f.imm.toNat < 0x1_0000 }, f)
  | .npr f => some ({ op := 0xED, fn := 0 }, f)
  | .epr f => some ({ op := 0xED, fn := 1 }, f)
  | .rbget f => some ({ op := 0xEE, fn := 0, d := .idx 16 }, f)
  | .rbput f => some ({ op := 0xEE, fn := 1, d := .idx 16 }, f)
  | .srr f => some ({ op := 0xEF, fn := 0, d := .scalar, immOk := true, more := srrMore }, f)
  | .trmarkRead f => some ({ op := 0xEF, fn := 0, d := .scalar, immOk := true, more := fun f => f.imm == 0x12 }, f)
  | .srw f => some ({
      op := 0xEF, fn := 1, steward := true, d := .scalar, a := .src, immOk := true, more := srwMore }, f)
  | .trapRingSet f => some ({
      op := 0xEF, fn := 1, steward := true, d := .scalar, a := .src, immOk := true, more := fun f => f.imm ==
      0x10 || f.imm == 0x11 }, f)
  | .trtailWrite f => some ({
      op := 0xEF, fn := 1, steward := true, d := .scalar, a := .src, immOk := true, more := fun f => f.imm ==
      0x13 }, f)
  | .sysregWrite f => some ({
      op := 0xEF, fn := 1, steward := true, d := .scalar, a := .src, immOk := true, more := sysregMore }, f)
  | .preemptLight f => some (cmdI 1, f)
  | .preemptFull f => some (cmdI 2, f)
  | .restore f => some (cmdI 3, f)
  | .resume f => some (cmdI 4, f)
  | .resumet f => some (cmdI 5, f)
  | .endteam f => some (cmdI 6, f)
  | .cancel f => some (cmdI 7, f)
  | _ => none

/-- Why words are no instruction, or a term stands for no words (04/R68, 05/R83). -/
inductive Reject where
  /-- FN names no sub-function. -/
  | noSubFunction
  /-- A short specifier, or a specifier field, holds a reserved value or one the field does not take. -/
  | badOperand
  /-- TYPE is reserved or not accepted. -/
  | badType
  /-- ORD is not accepted. -/
  | badOrder
  /-- SCOPE is reserved or not accepted. -/
  | badScope
  /-- A governing predicate on an opcode that takes none, or PNEG, PN without PEN. -/
  | badPredicate
  /-- KC or PLC on an opcode that does not use it. -/
  | unusedField
  /-- An immediate on an opcode that takes none. -/
  | badImmediate
  /-- NX in a LEN that does not allow it, or a literal target beyond 52 bits. -/
  | badNext
  /-- What the instruction's own entry forbids of its fields. -/
  | entryRule
  /-- The term's fields do not fit the words its LEN gives it. -/
  | notEncodable
deriving DecidableEq, Repr

/-- The opcode values that 05/R79 reserves. -/
def reservedOp (op : Nat) : Bool :=
  (0x08 ≤ op && op ≤ 0x0F) || (0x1D ≤ op && op ≤ 0x2F) || (0x40 ≤ op && op ≤ 0x4F) || (0x63 ≤ op && op ≤ 0x7F)
    || (0x84 ≤ op && op ≤ 0x8F) || (0x9A ≤ op && op ≤ 0x9F) || (0xA7 ≤ op && op ≤ 0xAF) || (0xBB ≤ op && op ≤ 0xCF)
    || (0xD6 ≤ op && op ≤ 0xDF) || op == 0xE7 || (0xF0 ≤ op && op ≤ 0xFF)

/-- The expansion of a 7-bit destination field (04/R58); an index field is taken as it stands. -/
def expandD (index : Bool) (x : Nat) : Option (BitVec 8) :=
  if index || x < 0x40 then some (BitVec.ofNat 8 x)
  else if x < 0x49 then some (BitVec.ofNat 8 (x + 0x40))
  else if x < 0x50 then none
  else some (BitVec.ofNat 8 (x + 0x40))

/-- The expansion of a 6-bit source field (04/R59); an index field is taken as it stands. -/
def expandS (index : Bool) (x : Nat) : Option (BitVec 8) :=
  if index || x < 0x20 then some (BitVec.ofNat 8 x)
  else if x < 0x29 then some (BitVec.ofNat 8 (x + 0x60))
  else if x < 0x30 then some (BitVec.ofNat 8 (x + 0x67))
  else if x < 0x34 then some (BitVec.ofNat 8 (x + 0x59))
  else if x < 0x38 then none
  else some (BitVec.ofNat 8 (x + 0xB4))

/-- The 7-bit field that expands to a specifier, where one does. -/
def shortD (index : Bool) (y : BitVec 8) : Option Nat :=
  let x := y.toNat
  if index then (if x < 0x80 then some x else none)
  else if x < 0x40 then some x
  else if 0x80 ≤ x && x < 0x89 then some (x - 0x40)
  else if 0x90 ≤ x && x < 0xC0 then some (x - 0x40)
  else none

/-- The 6-bit field that expands to a specifier, where one does. -/
def shortS (index : Bool) (y : BitVec 8) : Option Nat :=
  let x := y.toNat
  if index then (if x < 0x40 then some x else none)
  else if x < 0x20 then some x
  else if 0x80 ≤ x && x < 0x89 then some (x - 0x60)
  else if 0x90 ≤ x && x < 0x97 then some (x - 0x67)
  else if 0x89 ≤ x && x < 0x8D then some (x - 0x59)
  else if 0xEC ≤ x && x < 0xF4 then some (x - 0xB4)
  else none

/-- A 22-bit two's-complement value (04/R60). -/
def sext22 (x : Nat) : Word := (BitVec.ofNat 22 x).signExtend 64

def fits22 (x : Word) : Bool := x == sext22 x.toNat

/-- NX with the operands its LEN can hold (04/R62, R67). A literal target must be a 52-bit value (R68). -/
def Form.nextOk (f : Form) : Bool :=
  match f.nx, f.len with
  | .jump _, .base | .call _, .base | .cond .., .base | .cond .., .ext => false
  | .jump off, .lit | .call off, .lit => off == (off.truncate 52).signExtend 64
  | .jump off, _ | .call off, _ => off == sext22 (off.toNat / 4) * 4
  | _, _ => true

/-- The immediate operands that the words can carry (04/R62). -/
def Form.immPlaced (f : Form) : Bool :=
  match f.len, f.nx with
  | .base, _ => f.imm == 0 && f.imm2 == 0
  | .ext, .jump _ | .ext, .call _ => f.imm == 0 && f.imm2 == 0
  | .ext, _ => fits22 f.imm && f.imm2 == 0
  | .lit, .jump _ | .lit, .call _ | .lit, .cond .. => f.imm == 0 && f.imm2 == 0
  | .lit, _ => f.imm2 == 0
  | .extLit, .cond .. => fits22 f.imm && f.imm2 == 0
  | .extLit, .jump _ | .extLit, .call _ => f.imm2 == 0
  | .extLit, _ => true

/-- Base-word forms carry no extended field (04/R57) and short specifiers only. -/
def Form.shortOk (info : Info) (f : Form) : Bool :=
  f.isExt || (f.pred.isNone && f.fn == 0 && f.c == 0 && f.ty == 0 && f.ord == 0 && f.scope == 0 && f.kc == 0
    && f.plc == 0 && (shortD info.d.isIndex f.d).isSome && (shortS info.a.isIndex f.a).isSome
    && (shortS info.b.isIndex f.b).isSome)

def Form.typeOk (info : Info) (f : Form) : Bool :=
  f.ty == 0 || (match Ty.ofCode f.ty.toNat with
    | some t => info.types.contains t
    | none => false)

/-- Source C: its own field in the extended forms, the destination in the others (04/R57). -/
def Form.cOk (info : Info) (f : Form) : Bool :=
  if f.isExt then info.c.ok f.c else info.c == .unused || info.c.ok f.d

/-- What the fields of one instruction break, in the order of 04/R68; none for a legal instruction. `anyNext` is `trap`,
whose NX clause is not checked (10/R159). -/
def Form.check (info : Info) (anyNext : Bool) (f : Form) : Option Reject :=
  if f.fn.toNat < info.fn || info.fnLast < f.fn.toNat then some .noSubFunction
  else if !f.typeOk info then some .badType
  else if !info.ords.contains f.ord.toNat then some .badOrder
  else if !info.scopes.contains f.scope.toNat then some .badScope
  else if f.pred.isSome && !info.predOk then some .badPredicate
  else if (f.kc != 0 && !info.counter) || (f.plc != 0 && !info.place) then some .unusedField
  else if !(info.d.ok f.d && info.a.ok f.a && info.b.ok f.b && f.cOk info) then some .badOperand
  else if (f.imm != 0 && !info.immOk) || (f.imm2 != 0 && !info.imm2Ok) then some .badImmediate
  else if !(f.nextOk || (anyNext && f.len == .lit && (match f.nx with | .jump _ | .call _ => true | _ => false))) then
    some .badNext
  else if (info.extOnly && !f.isExt) || !info.more f then some .entryRule
  else if !(f.immPlaced && f.shortOk info) then some .notEncodable
  else none

/-- What an instruction's fields break (04/R68); none for a legal instruction, and for a step of another agent. -/
def Instr.check (i : Instr) : Option Reject :=
  match i with
  | .reservedOpcode w => if reservedOp (w.toNat / 32 % 256) then none else some .noSubFunction
  | i => match i.row with
    | some (info, f) => f.check info (info.op == 0xE8)
    | none => none

/-- The constructor of an opcode and its sub-function (05/R79, R81). For opcode `0xEF` the register number and the
command code choose the row. -/
def ctorOf (op fn : Nat) (a : BitVec 8) (imm : Word) : Option (Form → Instr) :=
  match op with
  | 0x00 => ([.nop] : List (Form → Instr))[fn]?
  | 0x01 => ([.lps] : List (Form → Instr))[fn]?
  | 0x02 => ([.pmov, .pand, .por, .pxor, .pandn, .pnot] : List (Form → Instr))[fn]?
  | 0x03 => ([.pget] : List (Form → Instr))[fn]?
  | 0x04 => ([.pset] : List (Form → Instr))[fn]?
  | 0x05 => ([.emget, .emset] : List (Form → Instr))[fn]?
  | 0x06 => ([.fmt, .fmtRnd, .fmtAb, .fmtFtz, .fmtCbs, .fmtTrp, .fmrd] : List (Form → Instr))[fn]?
  | 0x07 => ([.ffget, .ffclr] : List (Form → Instr))[fn]?
  | 0x10 => ([.mov] : List (Form → Instr))[fn]?
  | 0x11 => ([.add] : List (Form → Instr))[fn]?
  | 0x12 => ([.sub] : List (Form → Instr))[fn]?
  | 0x13 => ([.mul, .mulh, .mulhu] : List (Form → Instr))[fn]?
  | 0x14 => ([.div, .divu, .rem, .remu] : List (Form → Instr))[fn]?
  | 0x15 => ([.and, .or, .xor, .andn] : List (Form → Instr))[fn]?
  | 0x16 => ([.shl, .shr, .sra, .rol] : List (Form → Instr))[fn]?
  | 0x17 => ([.min, .max, .minu, .maxu] : List (Form → Instr))[fn]?
  | 0x18 => if fn ≤ 5 then some .cmp else none
  | 0x19 => ([.sel] : List (Form → Instr))[fn]?
  | 0x1A => ([.clz, .ctz, .popc] : List (Form → Instr))[fn]?
  | 0x1B => ([.sxt, .zxt] : List (Form → Instr))[fn]?
  | 0x1C => ([.vget] : List (Form → Instr))[fn]?
  | 0x30 => ([.vmov] : List (Form → Instr))[fn]?
  | 0x31 => ([.vaddInt] : List (Form → Instr))[fn]?
  | 0x32 => ([.vsubInt] : List (Form → Instr))[fn]?
  | 0x33 => ([.vmulInt, .vmulh] : List (Form → Instr))[fn]?
  | 0x34 => ([.vmad] : List (Form → Instr))[fn]?
  | 0x35 => ([.vand, .vor, .vxor, .vandn] : List (Form → Instr))[fn]?
  | 0x36 => ([.vshl, .vshr, .vsra] : List (Form → Instr))[fn]?
  | 0x37 => ([.vminInt, .vmaxInt] : List (Form → Instr))[fn]?
  | 0x38 => if fn ≤ 5 then some .vcmpInt else none
  | 0x39 => if fn ≤ 5 then some .vcmppInt else none
  | 0x3A => ([.vsel] : List (Form → Instr))[fn]?
  | 0x3B => ([.vshflIdx, .vshflUp, .vshflDn, .vshflXor, .vshflBc] : List (Form → Instr))[fn]?
  | 0x3C => ([.qswz] : List (Form → Instr))[fn]?
  | 0x3D => ([.vpack, .vunpack] : List (Form → Instr))[fn]?
  | 0x3E => ([.vclz, .vpopc] : List (Form → Instr))[fn]?
  | 0x3F => ([.vsclget, .vsclset] : List (Form → Instr))[fn]?
  | 0x50 => ([.vaddFp] : List (Form → Instr))[fn]?
  | 0x51 => ([.vsubFp] : List (Form → Instr))[fn]?
  | 0x52 => ([.vmulFp] : List (Form → Instr))[fn]?
  | 0x53 => ([.vfma] : List (Form → Instr))[fn]?
  | 0x54 => ([.vminFp, .vmaxFp] : List (Form → Instr))[fn]?
  | 0x55 => if fn ≤ 7 then some .vcmpFp else none
  | 0x56 => if fn ≤ 7 then some .vcmppFp else none
  | 0x57 => ([.vabs, .vneg, .vcpsgn] : List (Form → Instr))[fn]?
  | 0x58 => ([.vrcp, .vrsq, .vsqrt] : List (Form → Instr))[fn]?
  | 0x59 => ([.vexp2, .vlog2] : List (Form → Instr))[fn]?
  | 0x5A => ([.vsin, .vcos] : List (Form → Instr))[fn]?
  | 0x5B => ([.vredAdd, .vredMin, .vredMax] : List (Form → Instr))[fn]?
  | 0x5c => if fn ≤ 28 then some .vcvt else none
  | 0x5D => ([.vseed] : List (Form → Instr))[fn]?
  | 0x5E => ([.vdot2] : List (Form → Instr))[fn]?
  | 0x5F => ([.vdot4] : List (Form → Instr))[fn]?
  | 0x60 => ([.vdot8] : List (Form → Instr))[fn]?
  | 0x61 => ([.vrint] : List (Form → Instr))[fn]?
  | 0x62 => ([.cbld] : List (Form → Instr))[fn]?
  | 0x80 => ([.plc] : List (Form → Instr))[fn]?
  | 0x81 => ([.qfree] : List (Form → Instr))[fn]?
  | 0x82 => ([.xchg] : List (Form → Instr))[fn]?
  | 0x83 => ([.pgr] : List (Form → Instr))[fn]?
  | 0x90 => ([.mma] : List (Form → Instr))[fn]?
  | 0x91 => ([.mmaSw] : List (Form → Instr))[fn]?
  | 0x92 => ([.mzero, .mzeroSw] : List (Form → Instr))[fn]?
  | 0x93 => ([.mdr, .mdrSp] : List (Form → Instr))[fn]?
  | 0x94 => ([.sdrDiff, .sdrRatio, .sdrAgree] : List (Form → Instr))[fn]?
  | 0x95 => ([.agset] : List (Form → Instr))[fn]?
  | 0x96 => ([.gang] : List (Form → Instr))[fn]?
  | 0x97 => ([.racq] : List (Form → Instr))[fn]?
  | 0x98 => ([.rrel] : List (Form → Instr))[fn]?
  | 0x99 => ([.rcfg] : List (Form → Instr))[fn]?
  | 0xA0 => ([.cpy] : List (Form → Instr))[fn]?
  | 0xA1 => ([.cpg] : List (Form → Instr))[fn]?
  | 0xA2 => ([.cpm] : List (Form → Instr))[fn]?
  | 0xA3 => ([.cseal] : List (Form → Instr))[fn]?
  | 0xA4 => ([.cwait] : List (Form → Instr))[fn]?
  | 0xA5 => ([.wmrdMark, .wmrdState, .wmrdBase, .wmrdLimit] : List (Form → Instr))[fn]?
  | 0xA6 => ([.wmcfg] : List (Form → Instr))[fn]?
  | 0xB0 => ([.ld] : List (Form → Instr))[fn]?
  | 0xB1 => ([.st] : List (Form → Instr))[fn]?
  | 0xB2 => ([.ldSp] : List (Form → Instr))[fn]?
  | 0xB3 => ([.stSp] : List (Form → Instr))[fn]?
  | 0xB4 => ([.lds] : List (Form → Instr))[fn]?
  | 0xB5 => ([.kwait] : List (Form → Instr))[fn]?
  | 0xB6 => ([.atomAdd, .atomMin, .atomMax, .atomAnd, .atomOr, .atomXor, .atomExch, .atomCas] : List (Form → Instr))[fn]?
  | 0xB7 => ([.xsum] : List (Form → Instr))[fn]?
  | 0xB8 => ([.xrd, .xrdClr] : List (Form → Instr))[fn]?
  | 0xB9 => ([.fence] : List (Form → Instr))[fn]?
  | 0xBA => ([.bar] : List (Form → Instr))[fn]?
  | 0xD0 => ([.lnch] : List (Form → Instr))[fn]?
  | 0xD1 => ([.tndr] : List (Form → Instr))[fn]?
  | 0xD2 => ([.bidf] : List (Form → Instr))[fn]?
  | 0xD3 => ([.tacc] : List (Form → Instr))[fn]?
  | 0xD4 => ([.perf] : List (Form → Instr))[fn]?
  | 0xD5 => ([.pwrqLvl, .pwrqGate, .pwrqWeir, .pwrqTherm] : List (Form → Instr))[fn]?
  | 0xE0 => ([.nbld] : List (Form → Instr))[fn]?
  | 0xE1 => ([.nbfma] : List (Form → Instr))[fn]?
  | 0xE2 => ([.nbdot] : List (Form → Instr))[fn]?
  | 0xE3 => ([.nbst] : List (Form → Instr))[fn]?
  | 0xE4 => ([.mapc, .unmapc] : List (Form → Instr))[fn]?
  | 0xE5 => ([.xinv] : List (Form → Instr))[fn]?
  | 0xE6 => ([.fbsvc] : List (Form → Instr))[fn]?
  | 0xE8 => ([.trap] : List (Form → Instr))[fn]?
  | 0xE9 => ([.tret] : List (Form → Instr))[fn]?
  | 0xEA => ([.trr] : List (Form → Instr))[fn]?
  | 0xEB => ([.trw] : List (Form → Instr))[fn]?
  | 0xEC => ([.spt] : List (Form → Instr))[fn]?
  | 0xED => ([.npr, .epr] : List (Form → Instr))[fn]?
  | 0xEE => ([.rbget, .rbput] : List (Form → Instr))[fn]?
  | 0xEF =>
    if fn = 0 then some (if imm = 0x12 then .trmarkRead else .srr)
    else if fn = 1 then
      if imm = 0x10 || imm = 0x11 then some .trapRingSet
      else if imm = 0x13 then some .trtailWrite
      else if 0x20 ≤ imm.toNat && imm.toNat ≤ 0x23 then some .sysregWrite
      else if a.toNat < 0xF1 then some .srw
      else some (([.preemptLight, .preemptFull, .restore, .resume, .resumet, .endteam, .cancel] : List (Form → Instr)).getD
        (a.toNat - 0xF1) .srw)
    else none
  | _ => none

end Sys2Proof
end

