-- ==== Sys2Proof/WellFormed.lean ====
section
/-!
DEFINITION. Well-formed instructions: the terms of `Instr` that stand for words the hardware does not reject (04/R68).
-/

namespace Sys2Proof

/-- The instruction's fields break no rule of 04/R68, R65, R66 or of its own entry. -/
def Instr.wellFormed (i : Instr) : Bool := i.check.isNone

end Sys2Proof
end

