-- ==== Sys2Proof/Decode.lean ====
section
/-!
DEFINITION. The decoder and the encoder. An instruction's words are one number, bit n of the instruction being bit n of
the number (04/R56); the longest instruction has 160 bits.
-/

namespace Sys2Proof

/-- `n` bits of an instruction from bit `lo` (04/R56). -/
def bitsAt (w lo n : Nat) : Nat := w / 2 ^ lo % 2 ^ n

def Len.ofCode (n : Nat) : Len :=
  match n with
  | 0 => .base
  | 1 => .ext
  | 2 => .lit
  | _ => .extLit

def Len.code : Len → Nat
  | .base => 0 | .ext => 1 | .lit => 2 | .extLit => 3

/-- The length in bytes (04/R56). -/
def Len.bytes : Len → Nat
  | .base => 4 | .ext => 12 | .lit => 12 | .extLit => 20

/-- The NX code (04/R67). -/
def Nx.code : Nx → Nat
  | .seq => 0 | .loop => 1 | .jump _ => 2 | .cond .. => 3 | .call _ => 4 | .ret => 5 | .exit => 6 | .yield => 7

/-- The target of a jump or call, as a signed byte offset (04/R62). -/
def targetOf (len : Len) (i22 lit : Nat) : Option Word :=
  match len with
  | .base => none
  | .lit => some (BitVec.ofNat 64 lit)
  | _ => some (sext22 i22 * 4)

/-- NX with its operands from the words (04/R62, R63, R67); none where the LEN does not allow it. -/
def nextOf (len : Len) (code i22 lit : Nat) : Option Nx :=
  match code with
  | 0 => some .seq
  | 1 => some .loop
  | 2 => (targetOf len i22 lit).map .jump
  | 3 =>
    if len == .lit || len == .extLit then
      some (.cond (bitsAt lit 63 1 == 1) (BitVec.ofNat 3 (bitsAt lit 60 3)) (BitVec.ofNat 30 (bitsAt lit 30 30))
        (BitVec.ofNat 30 (bitsAt lit 0 30)))
    else none
  | 4 => (targetOf len i22 lit).map .call
  | 5 => some .ret
  | 6 => some .exit
  | _ => some .yield

/-- The immediate operand I (04/R62), 0 where the table places none. -/
def immOf (len : Len) (code i22 lit : Nat) : Word :=
  match len with
  | .base => 0
  | .ext => if code == 2 || code == 4 then 0 else sext22 i22
  | .lit => if code == 2 || code == 3 || code == 4 then 0 else BitVec.ofNat 64 lit
  | .extLit => if code == 3 then sext22 i22 else BitVec.ofNat 64 lit

/-- The IMM22 that LEN 11 carries beside a literal operand (04/R62). -/
def imm2Of (len : Len) (code i22 : Nat) : BitVec 22 :=
  if len == .extLit && !(code == 2 || code == 3 || code == 4) then BitVec.ofNat 22 i22 else 0

/-- The governing predicate (04/R60); none inside is a predicate of all ones. -/
def predOf (w : Nat) : Option (Option Pred) :=
  if bitsAt w 31 1 == 1 then some (some { neg := bitsAt w 30 1 == 1, pn := BitVec.ofNat 3 (bitsAt w 27 3) })
  else if bitsAt w 27 4 == 0 then some none
  else none

/-- The fields of the words of an extended form (04/R60); none where NX or the predicate fields are not allowed. -/
def extForm (len : Len) (w : Nat) : Except Reject Form :=
  let code := bitsAt w 2 3
  let i22 := bitsAt w 80 16 + bitsAt w 13 6 * 2 ^ 16
  let lit := bitsAt w 96 64
  match nextOf len code i22 lit, predOf w with
  | some nx, some pred =>
    .ok { len, nx, pred
          fn := BitVec.ofNat 6 (bitsAt w 21 6)
          d := BitVec.ofNat 8 (bitsAt w 32 8)
          a := BitVec.ofNat 8 (bitsAt w 40 8)
          b := BitVec.ofNat 8 (bitsAt w 48 8)
          c := BitVec.ofNat 8 (bitsAt w 56 8)
          ty := BitVec.ofNat 6 (bitsAt w 64 6)
          ord := BitVec.ofNat 2 (bitsAt w 19 2)
          scope := BitVec.ofNat 3 (bitsAt w 70 3)
          kc := BitVec.ofNat 4 (bitsAt w 73 4)
          plc := BitVec.ofNat 3 (bitsAt w 77 3)
          imm := immOf len code i22 lit
          imm2 := imm2Of len code i22 }
  | none, _ => .error .badNext
  | _, none => .error .badPredicate

/-- The fields of the words of a base form (04/R57-R59), `info` telling which fields are indexes. -/
def shortForm (info : Info) (len : Len) (w : Nat) : Except Reject Form :=
  let code := bitsAt w 2 3
  let lit := bitsAt w 32 64
  match nextOf len code 0 lit, expandD info.d.isIndex (bitsAt w 13 7), expandS info.a.isIndex (bitsAt w 20 6),
    expandS info.b.isIndex (bitsAt w 26 6) with
  | some nx, some d, some a, some b =>
    .ok { len, nx, pred := none, fn := 0, d, a, b, c := 0, ty := 0, ord := 0, scope := 0, kc := 0, plc := 0
          imm := immOf len code 0 lit
          imm2 := 0 }
  | none, _, _, _ => .error .badNext
  | _, _, _, _ => .error .badOperand

/-- A form with nothing in it, to ask a constructor for its row. -/
def Form.blank : Form :=
  { len := .base, nx := .seq, pred := none, fn := 0, d := 0, a := 0, b := 0, c := 0, ty := 0, ord := 0, scope := 0
    kc := 0, plc := 0, imm := 0, imm2 := 0 }

/-- The instruction with its checks made (04/R68). -/
def checked (i : Instr) : Except Reject Instr :=
  match i.check with
  | none => .ok i
  | some r => .error r

/-- Decoding: the words at an address, 160 bits of which the instruction takes its length (04/R56-R68, 05/R79-R83). -/
def decodeBits (w : Nat) : Except Reject Instr :=
  let len := Len.ofCode (bitsAt w 0 2)
  let op := bitsAt w 5 8
  if reservedOp op then .ok (.reservedOpcode (BitVec.ofNat 32 w))
  else match len with
    | .ext | .extLit =>
      match extForm len w with
      | .error r => .error r
      | .ok f =>
        match ctorOf op f.fn.toNat f.a f.imm with
        | some c => checked (c f)
        | none => .error .noSubFunction
    | .base | .lit =>
      match ctorOf op 0 0 (immOf len (bitsAt w 2 3) 0 (bitsAt w 32 64)) with
      | none => .error .noSubFunction
      | some c =>
        match (c .blank).row with
        | none => .error .noSubFunction
        | some (info, _) =>
          match shortForm info len w with
          | .error r => .error r
          | .ok f => checked (c f)

/-- IMM22 of a form (04/R62). -/
def Form.imm22 (f : Form) : Nat :=
  match f.len, f.nx with
  | .ext, .jump off | .ext, .call off | .extLit, .jump off | .extLit, .call off => off.toNat / 4 % 2 ^ 22
  | .ext, _ | .extLit, .cond .. => f.imm.toNat % 2 ^ 22
  | .extLit, _ => f.imm2.toNat
  | _, _ => 0

/-- A condition block (04/R63). -/
def condBlock (neg : Bool) (cp : BitVec 3) (target join : BitVec 30) : Nat :=
  join.toNat + target.toNat * 2 ^ 30 + cp.toNat * 2 ^ 60 + neg.toNat * 2 ^ 63

/-- The literal of a form (04/R62). -/
def Form.literal (f : Form) : Nat :=
  match f.len, f.nx with
  | .lit, .jump off | .lit, .call off => off.toNat
  | .lit, .cond neg cp t j | .extLit, .cond neg cp t j => condBlock neg cp t j
  | .lit, _ | .extLit, _ => f.imm.toNat
  | _, _ => 0

def Form.predBits (f : Form) : Nat :=
  match f.pred with
  | none => 0
  | some p => p.pn.toNat + p.neg.toNat * 8 + 16

/-- The words of a form under an opcode (04/R56-R63). -/
def Form.encode (info : Info) (f : Form) : Nat :=
  let head := f.len.code + f.nx.code * 2 ^ 2 + info.op * 2 ^ 5
  if f.isExt then
    head + f.imm22 / 2 ^ 16 * 2 ^ 13 + f.ord.toNat * 2 ^ 19 + f.fn.toNat * 2 ^ 21 + f.predBits * 2 ^ 27
      + f.d.toNat * 2 ^ 32 + f.a.toNat * 2 ^ 40 + f.b.toNat * 2 ^ 48 + f.c.toNat * 2 ^ 56
      + f.ty.toNat * 2 ^ 64 + f.scope.toNat * 2 ^ 70 + f.kc.toNat * 2 ^ 73 + f.plc.toNat * 2 ^ 77
      + f.imm22 % 2 ^ 16 * 2 ^ 80 + f.literal * 2 ^ 96
  else
    head + (shortD info.d.isIndex f.d).getD 0 * 2 ^ 13 + (shortS info.a.isIndex f.a).getD 0 * 2 ^ 20
      + (shortS info.b.isIndex f.b).getD 0 * 2 ^ 26 + f.literal * 2 ^ 32

/-- The words of an instruction; 0 for the rows that are no instruction. -/
def encode (i : Instr) : Nat :=
  match i with
  | .reservedOpcode w => w.toNat
  | i => match i.row with
    | some (info, f) => f.encode info
    | none => 0

/-- The first word, which `tval` of an illegal-instruction trap holds (04/R68). -/
def Instr.firstWord (i : Instr) : Nat := encode i % 2 ^ 32

/-- The length in bytes of an instruction (04/R56), a reserved opcode's too (05/R83). -/
def Instr.bytes (i : Instr) : Nat :=
  match i with
  | .reservedOpcode w => (Len.ofCode (w.toNat % 4)).bytes
  | i => match i.row with
    | some (_, f) => f.len.bytes
    | none => 4

/-- The major opcode of an instruction. -/
def Instr.opcode (i : Instr) : Nat :=
  match i with
  | .reservedOpcode w => w.toNat / 32 % 256
  | i => match i.row with
    | some (info, _) => info.op
    | none => 0

def Instr.form (i : Instr) : Form :=
  match i.row with
  | some (_, f) => f
  | none => Form.blank

/-- Whether a field names a specifier, and not an index. -/
def Kind.names (k : Kind) : Bool := !k.isIndex && k != .late

/-- D is a vector destination, whose place decides where the instruction executes (03/R39). -/
def Kind.isDest (k : Kind) : Bool := k == .vdst || k == .vrange || k == .anyDst

def Place.code : Place → Nat
  | .ln => 0 | .sp => 1 | .nb => 2 | .pe => 3

/-- A field is read as a vector operand: it pops a queue it names (03/R40). -/
def Kind.isSource (k : Kind) : Bool := k == .vsrc || k == .vol || k == .srcOrVec

/-- The instruction that the decoder reads from the words `w`, the bits above `nbits` being 0. -/
def decodeTableWord (nbits w : Nat) : Option Instr :=
  match decodeBits (w % 2 ^ nbits) with
  | .ok i => some i
  | .error _ => none

end Sys2Proof
end

