-- ==== Sys2Proof/Machine/Map.lean ====
section
/-!
DEFINITION. Sparse tables by key (`Map`): the only container of register files, queues and tables of the model.
-/

namespace Sys2Proof

/-- The value listed at a key. -/
def Map.get? {α : Type} : Map α → Nat → Option α
  | [], _ => none
  | (j, v) :: m, k => if j = k then some v else Map.get? m k

/-- The value at a key, `d` where none is listed. -/
def Map.get {α : Type} (m : Map α) (k : Nat) (d : α) : α := (Map.get? m k).getD d

/-- The table with `v` at `k`, keys rising. -/
def Map.set {α : Type} : Map α → Nat → α → Map α
  | [], k, v => [(k, v)]
  | (j, w) :: m, k, v =>
    if k = j then (k, v) :: m else if k < j then (k, v) :: (j, w) :: m else (j, w) :: Map.set m k v

/-- The table without the key. -/
def Map.erase {α : Type} : Map α → Nat → Map α
  | [], _ => []
  | (j, w) :: m, k => if j = k then Map.erase m k else (j, w) :: Map.erase m k

/-- The values, keys rising. -/
def Map.values {α : Type} (m : Map α) : List α := m.map (·.2)

def Map.keys {α : Type} (m : Map α) : List Nat := m.map (·.1)

/-- Every listed value changed by `f`, which is told the key. -/
def Map.update {α : Type} (m : Map α) (f : Nat → α → α) : Map α := m.map fun p => (p.1, f p.1 p.2)

/-- A key above every listed key. -/
def Map.fresh {α : Type} (m : Map α) : Nat := m.foldl (fun n p => if n ≤ p.1 then p.1 + 1 else n) 0

end Sys2Proof
end

