-- ==== Sys2Proof/Machine/State.lean ====
section
/-!
DEFINITION. The state of one N4 module as plain data: everything the spec names (INVENTORY.md, State), and the model's own
fields `issued`, `agenda`, `subject`, `free`, `order`, `nextId`.
-/

namespace Sys2Proof.Machine

open Sys2Proof

/-- A vector register, a queue entry, a slot: 128 data bytes and 8 scale bytes (02/R12, R15). -/
structure VReg where
  data  : BitVec 1024
  scale : BitVec 64
deriving DecidableEq, Repr

/-- Data 0 and scale bytes `0x7F` (02/R15). -/
def VReg.fresh : VReg := { data := 0, scale := 0x7F7F_7F7F_7F7F_7F7F }

/-- A reconvergence-stack entry (02/R19). -/
structure REntry where
  join   : VAddr
  resume : VAddr
  pmask  : BitVec 32
  emd    : BitVec 32
  fmc    : BitVec 32
  ldep   : Nat
  phase  : Bool
deriving DecidableEq, Repr

/-- A loop-stack entry (02/R21). -/
structure LEntry where
  head  : VAddr
  count : BitVec 32
deriving DecidableEq, Repr

/-- The relieved block H in the trap save slots (08/R139): its index, the saved registers at `ln`, and the map entries. -/
structure Relief where
  block : Nat
  regs  : List VReg
  map   : List (BitVec 32)
deriving DecidableEq, Repr

/-- Why a group waits. The conditions of 21/R340 are long-latency; the others are not. `formula` and `image` are the waits of a `bidf`
(22/R350), the second for inbound bytes of its image. -/
inductive Wait where
  | kwait | gated | ring | latch | gang | queue | rbget | xchg | copyRoom | copyMark | cseal | cwait | barrier | tender
  | reorder | inbound | window | counter | register | answer | report | batch | formula | image
deriving DecidableEq, Repr

/-- Whether the wait is a long-latency condition (21/R340). -/
def Wait.long : Wait → Bool
  | .window | .counter | .register | .answer | .report | .batch | .formula => false
  | _ => true

/-- Where a group stands (02/R20, 08/R137, R145, 09/R153). -/
inductive Status where
  | absent | running | parked | stopped | preempted | out | exiting
deriving DecidableEq, Repr

/-- Membership of the active set (21/R341). -/
inductive Sched where
  | pending | active | entering | leaving
deriving DecidableEq, Repr

/-- A trap that is ready to be taken (08/R128, R134, R418). -/
structure Trap where
  kind  : Nat
  tval  : Word
  tlm   : BitVec 32
  place : Nat
  op    : Nat
  nxs   : Bool
deriving DecidableEq, Repr

/-- Where the bytes of an access live (18/R274). -/
inductive Home where
  | ram (la : Nat)
  | window (off : Nat)
  | log (off : Nat)
  | signal (off : Nat)
  | comb (la : Nat)
  | device (la : Nat)
  | remote (module la : Nat)
deriving DecidableEq, Repr

/-- A replayable fault met by an access (08/R145, R146): the address, the fault-buffer entry, if one was free, the
trap that the access raises if the steward declares it unrecoverable, how many instructions of the group stand before it
in program order, the instruction (none for the fetch of one), whether the steward has declared the fault unrecoverable
while earlier ones had still to commit, and whether the access keeps the rules of reduced service (28/R414). -/
structure Parked where
  va    : Word
  entry : Option Nat
  trap  : Trap
  pos   : Nat
  ins   : Option Instr
  doomed : Bool
  reduced : Bool := false
deriving DecidableEq, Repr

/-- An instruction that has issued and not committed (08/R121-R123): its address and the next one, a scalar write that was
held at issue (`qfree`, `pgr`, `pwrq`, R124, 24/R368), whether it stands in the place window (R122), the lanes active for it, the address
that its operands give, whether its place has reported completion (R121), what a load has read from memory by then
(R124), the translation that `fbsvc` found for it (R146), and whether it keeps the rules of reduced service (28/R414). -/
structure WinEntry where
  pc    : VAddr
  ins   : Instr
  next  : VAddr
  held  : Option Word
  away  : Bool
  act   : BitVec 32
  va    : Word
  done  : Bool
  early : Option (List Byte)
  found : Option (Word × Home × Bool)
  reduced : Bool := false
deriving DecidableEq, Repr

/-- An arrival counter (02/R22) with the damage that the next `kwait` reports (26/R388). -/
structure Ctr where
  count  : Nat
  damage : Option Word
deriving DecidableEq, Repr

/-- An outstanding split-phase load (19/R305): destination, active lanes, address, where its bytes live, counter, and whether
later accesses wait for it (R306). `got` holds what the home has answered: the lanes, none for a lane of a damaged column, and
the address of the first damaged byte. One that another module or a PCI Express device answers carries its sequence number,
its time limit and the bytes of the line that the group held in its combining buffer (18/R279). `inner` says that it issued in the
handler, whose registers it writes. -/
structure Split where
  dest : BitVec 8
  mask : BitVec 32
  va   : Word
  home : Home
  ctr  : Nat
  acq  : Bool
  seq  : Option Nat
  due  : Nat
  mine : Map Byte
  inner : Bool
  got  : Option (List (Option Nat) × Option Word)
deriving DecidableEq, Repr

/-- A combining-buffer entry (18/R279): a 64 B line of a Write-combining page, its bytes by offset, the virtual address and the cycle
of its last store. -/
structure WcLine where
  line  : Nat
  va    : Nat
  bytes : Map Byte
  last  : Nat
deriving DecidableEq, Repr

/-- A request of a group that an outside party answers: a PCI Express access (18/R278, 28/R407) or a packet to another
module (28/R404), with its time limit and what has come back. `fetch` marks the fetch of instruction bytes; `olds` keeps
what the lanes of a vector atomic have already received, `mine` the bytes that the group held in its combining buffer when a
load was sent (18/R279), by their place among the bytes asked for. `again` marks a plain read, which a trap may drop and the group make
again. A load that has read DRAM before its commit finds its bytes here too (08/R124). -/
structure Asked where
  va     : Word
  due    : Nat
  seq    : Nat
  fetch  : Bool
  answer : Option (Bool × List Byte)
  olds   : Map Nat
  mine   : Map Byte
  again  : Bool := false
deriving DecidableEq, Repr

/-- A group waiting at `xchg` (03/R54): the instruction, the partner's team and group index, the active lanes. -/
structure XWait where
  form  : Form
  team  : Nat
  group : Nat
  mask  : BitVec 32
deriving DecidableEq, Repr

/-- A batch of copies into global memory (14/R226, R227): copies outstanding, the first faulting address, and whether
`cwait` has met the failure. -/
structure Batch where
  copies : Nat := 0
  failed : Option Word := none
  waited : Bool := false
deriving DecidableEq, Repr

/-- The fields of a 64 B report (08/R137); `ends` is the launch slot whose oldest incomplete team it ends (21/R335). -/
structure Report where
  team   : Nat := 0
  group  : Nat := 0
  depth  : Nat := 0
  tcause : Word := 0
  tepc   : Word := 0
  tval   : Word := 0
  tlm    : Nat := 0
  launch : Nat := 0
  ends   : Option Nat := none
deriving DecidableEq, Repr

/-- Everything one group holds (02/R15, 03/R35, 08, 09, 14/R226, 21/R337, 23/R356). The defaults are the values at group
start; `regs`, `sregs`, `preds`, `cb`, `ctrs`, `pmap` list only what differs from them or has been written. `sealed` lists the
batches by their ascending serial, whose low four bits are the number. `notBefore` is the cycle of the core in which the handler's first
instruction may issue (08/R138). `posted` are the writes to PCI Express homes that have not been acknowledged (18/R284), by number, with
their virtual address. `granted` is the translation that `fbsvc` found for the access that had parked (08/R146), `raised` the counter that a parked `lds` has raised (19/R306). `ident` names an
exited group whose batches go on. -/
structure Group where
  status  : Status := .running
  team    : Nat := 0
  index   : Nat := 0
  core    : Nat := 0
  role    : Role := .v
  pc      : VAddr := 0
  regs    : Map VReg := []
  ofile   : Map VReg := []
  lr      : VReg := .fresh
  sregs   : Map Word := []
  preds   : Map (BitVec 32) := []
  em      : BitVec 32 := 0xFFFF_FFFF
  fm      : BitVec 32 := 0
  ff      : BitVec 32 := 0
  cb      : Map (BitVec 16) := []
  ctrs    : Map Ctr := []
  rstack  : List REntry := []
  lstack  : List LEntry := []
  tvec    : Word := 0
  tcause  : Word := 0
  tepc    : Word := 0
  tval    : Word := 0
  tlm     : Word := 0
  depth   : Bool := false
  tem     : BitVec 32 := 0
  setR    : List REntry := []
  setL    : List LEntry := []
  relief  : Option Relief := none
  held    : BitVec 16 := 0
  emg     : Bool := false
  pmap    : Map (BitVec 32) := []
  lqueues : Map (List VReg) := []
  words   : Nat := 0
  npr     : Option Nat := none
  nprt    : Bool := false
  level   : Nat := 7
  batch   : Batch := {}
  sealed  : Map Batch := []
  nextb   : Nat := 0
  wc      : List WcLine := []
  posted  : List (Nat × Nat) := []
  splits  : List Split := []
  win     : List WinEntry := []
  wait    : Option Wait := none
  waited  : Nat := 0
  notBefore : Nat := 0
  pend    : Option Trap := none
  parked  : Option Parked := none
  granted : Option (Word × Home × Bool) := none
  raised  : Option Nat := none
  asked   : Option Asked := none
  bargen  : Option Nat := none
  xw      : Option XWait := none
  fetched : Map Byte := []
  sched   : Sched := .pending
  age     : Nat := 0
  stay    : Nat := 0
  ready   : Option Nat := none
  promo   : Option Nat := none
  yielded : Bool := false
  stopAt  : Option (Nat × BitVec 16) := none
  want    : Option Nat := none
  tres    : Option Word := none
  ident   : Report := {}
deriving DecidableEq, Repr

/-- A watermark (14/R222) with the issue order of its copy (14/R223). -/
structure Watermark where
  base   : Nat := 0
  limit  : Nat := 0
  mark   : Nat := 0
  st     : Nat := 0
  listen : Bool := false
  order  : Nat := 0
deriving DecidableEq, Repr

/-- A stage ring (11/R175): 0 slots means unconfigured. -/
structure Ring where
  slots : Nat := 0
  phase : BitVec 8 := 0
deriving DecidableEq, Repr

/-- A barrier (19/R315, R316): the members, numbered, that have arrived in this generation, those already released, and
the generation. -/
structure Barrier where
  arrived : List Nat := []
  gen     : Nat := 0
  mask    : Nat := 0
deriving DecidableEq, Repr

/-- An accumulator (13/R210-R213): mode 0 plain FP32, 1 half of an FP64 pair, 2 half of a Swallowtail pair, 3 never
written; the elements row by row, 96 a row (unlisted ones are +0.0); the two chains of the open interval (unlisted
elements are -0.0); the step count; the chains' rounding (0 IA25, 1 FP32, 2 FP64). An FP64 pair stands whole in its even half. -/
structure Accum where
  valid : Bool := false
  mode  : Nat := 3
  cells : List (BitVec 64) := []
  even  : List (BitVec 64) := []
  odd   : List (BitVec 64) := []
  n     : Nat := 0
  kind  : Nat := 0
deriving DecidableEq, Repr

/-- A count store (13/R213): N+ in bits 15:0 and N- in bits 31:16 of each element (unlisted ones are 0), and what the open
interval adds to them when it is promoted. -/
structure Counts where
  valid : Bool := false
  cells : List (BitVec 32) := []
  pend  : List (BitVec 32) := []
deriving DecidableEq, Repr

/-- A member's arrival at the rendezvous latch (13/R207, 16/R253), with its time and what it carries: operands, effective encodings,
the first fragments and the registers supplied. -/
structure Arrival where
  gid   : Nat
  index : Nat
  since : Nat
  form  : Form
  swal  : Bool
  aenc  : Ty
  benc  : Ty
  first : Nat × Nat
  afrag : List VReg
  bfrag : List VReg
deriving DecidableEq, Repr

/-- A step released into the engine (13/R204, R219): its members, the flags it raised, and the cycle it ends. -/
structure Step where
  members : List (Nat × Form)
  swal    : Bool
  flags   : Nat
  due     : Nat
deriving DecidableEq, Repr

/-- A pre-emption request of a team (09/R152, 10/R172): full or light, the frame area, which groups have stopped, and
which frames are written. -/
structure Preempt where
  full    : Bool
  addr    : Nat
  stopped : List Nat
  written : List Nat
deriving DecidableEq, Repr

/-- Where a team of a started launch stands (21/R333, R334, 09/R152). -/
inductive TeamState where
  | bound | awarded | placed | restoring | out
deriving DecidableEq, Repr

/-- What a team holds (02/R23) and its place in its launch. -/
structure Team where
  part    : Nat := 0
  slot    : Nat := 0
  index   : Nat := 0
  cohort  : Nat := 0
  pos     : Nat := 0
  core    : Nat := 0
  state   : TeamState := .bound
  steward : Bool := false
  launch  : Nat := 0
  params  : Word := 0
  entry   : VAddr := 0
  n       : Nat := 0
  m       : Nat := 0
  ngroups : Nat := 0
  blocks  : Nat := 0
  exited  : List Nat := []
  order   : Nat := 0
  wms     : Map Watermark := []
  rings   : Map Ring := []
  gn      : List Nat := []
  ag      : Map (BitVec 32) := []
  accs    : Map Accum := []
  counts  : Map Counts := []
  latch   : List Arrival := []
  engine  : List Step := []
  claims  : Bool := false
  mrole   : Bool := false
  sp      : Map Byte := []
  spScale : Map (BitVec 64) := []
  seed    : Nat := 0
  bar     : Barrier := {}
  energy  : Nat := 0
  peak    : Nat := 0
  preempt : Option Preempt := none
  light   : Bool := false
  frame   : Nat := 0
  rcore   : Option Nat := none
  partner : Bool := false
deriving DecidableEq, Repr

/-- A cohort (02/R34, 14/R228-R230): its facing cluster pair, its teams by position, the multicast count, the barrier, and
its scratchpad and landed lines by position. -/
structure Cohort where
  part   : Nat := 0
  slot   : Nat := 0
  index  : Nat := 0
  pair   : Nat := 0
  total  : Nat := 0
  teams  : Map Nat := []
  ended  : Nat := 0
  mcount : Nat := 0
  bar    : Barrier := {}
  m      : Map Nat := []
  sp     : Map (Map Byte) := []
  lines  : Map (List Nat) := []
  seed   : Nat := 0
deriving DecidableEq, Repr

/-- One dimension of a copy shape (11/R176): count, source stride, destination stride. -/
structure Dim where
  n : Nat
  s : Int
  d : Int
deriving DecidableEq, Repr

/-- The four copies of 14/R220 and the drain. -/
inductive CopyKind where
  | cpy | cpg | cpm | drain
deriving DecidableEq, Repr

/-- A copy's request that another module or a PCI Express device answers (18/R278, 28/R404); a write carries n bytes. -/
structure CopyAsk where
  write  : Bool
  n      : Nat
  va     : Word
  due    : Nat
  seq    : Nat
  answer : Option (Bool × List Byte)
deriving DecidableEq, Repr

/-- The scratchpad that a copy still reads after its team has left it (14/R226, 09/R153): bytes, their seed, the words with
double errors, and the size in units of 64 KiB. -/
structure Kept where
  sp   : Map Byte
  seed : Nat
  bad  : List Nat
  n    : Nat
deriving DecidableEq, Repr

/-- A packet of the hardware to another module, for an access that it makes by virtual address, and its answer
(28/R404). -/
structure HwAsk where
  core   : Nat
  va     : Nat
  module : Nat
  la     : Nat
  op     : HomeOp
  due    : Nat
  seq    : Nat
  answer : Option (Bool × List Byte)
  mine   : Map Byte := []
deriving DecidableEq, Repr

/-- A copy in progress (14/R220): what it moves and how many bytes have landed. For a multicast, `fronts` holds the bytes
landed at each masked position and `data` the source bytes read so far; for a drain, `data` holds the accumulator. `run` keeps the
source address of the run begun by a gather; `lines` the two source granules read last, by address; `frozen` the fault-buffer entry
(64: none was free); `ident` names the issuing group; `reduced` says that it keeps the rules of reduced service (28/R414). -/
structure Copy where
  kind   : CopyKind
  team   : Nat
  cohort : Nat
  pos    : Nat
  part   : Nat
  slot   : Nat
  steward : Bool
  gid    : Nat
  ident  : Report
  kept   : Option Kept
  wm     : Option Nat
  batch  : Option Nat
  dst    : Int
  src    : Int
  global : Bool
  spSrc  : Bool
  wid    : Nat
  n0     : Nat
  dims   : List Dim
  list   : Nat
  lty    : Ty
  mask   : BitVec 16
  fronts : Map Nat
  data   : List Byte
  run    : Option (Nat × Int)
  lines  : List (Nat × List Byte)
  ask    : Option CopyAsk
  landed : Nat
  frozen : Option Nat
  order  : Nat
  reduced : Bool := false
deriving DecidableEq, Repr

/-- Who took a fault-buffer entry (08/R146, 14/R225): a group or a copy. -/
inductive FbOwner where
  | group (g : Nat)
  | copy (id : Nat)
deriving DecidableEq, Repr

/-- Power states of an island (23/R358). -/
inductive Power where
  | on | gating | hold | gated | waking
deriving DecidableEq, Repr

/-- A leaf in a translation buffer (26/R378): the page's address, whether it is a 2 MiB page, the entry. -/
structure Leaf where
  base  : Nat
  large : Bool
  entry : Word
deriving DecidableEq, Repr

/-- What a core holds (02/R26, R30, 08/R146, 14/R220, 21/R342, 22/R347, R349, 23/R355-R358, 26/R378); `target` is the target
level with the time since which it stands, `pace` the times at which the clock changed, newest first, with the cycles counted by then
and the clock from then on, `promoted` the cycle of the last promotion, `grantAt` the cycle in which a held
request is granted. -/
structure Core where
  freeBlocks : Nat := 255
  emergency  : Bool := true
  fbuf       : Map (FbOwner × Word) := []
  copies     : Map Copy := []
  tlb        : List Leaf := []
  power      : Power := .on
  since      : Nat := 0
  wake       : Bool := false
  request    : Bool := false
  grantAt    : Option Nat := none
  reached    : Nat := 7
  target     : Nat := 7
  targetAt   : Nat := 0
  promoted   : Option Nat := none
  pace       : List (Nat × Nat × Nat) := []
  ocap       : Nat := 7
  withdrew   : List Nat := []
  benched    : Option Nat := none
  reserved   : Option Nat := none
  inReset    : Bool := false
  retired    : Bool := false
  wasReset   : Nat := 0
deriving DecidableEq, Repr

/-- A culvert queue (03/R50-R53), keyed by the lower core's number, the direction and the queue number: entries at the in
end, pushes in flight and slot returns in flight with the cycle in which each arrives, counted by the core that sent it, slots taken, the two end
groups and whether they have exited; `past` the returns in flight of a queue that held the number before (R55). -/
structure Culvert where
  depth   : Nat := 0
  entries : List VReg := []
  flying  : List (Nat × VReg) := []
  taken   : Nat := 0
  returns : List Nat := []
  past    : List Nat := []
  outTeam : Nat := 0
  outEnd  : Nat := 0
  inTeam  : Nat := 0
  inEnd   : Nat := 0
  outGone : Bool := false
  inGone  : Bool := false
  away    : Bool := false
deriving DecidableEq, Repr

/-- A cluster (23/R353-R360): Weir budget, the energy used in this interval and the time of the last one, caps, thermal class and
thresholds, the temperatures at its diodes and the time of the last poll, the Headgate queue. -/
structure Cluster where
  energy  : Nat := 250
  peak    : Nat := 40
  overrun : Bool := false
  used    : Nat := 0
  weirAt  : Nat := 0
  heat    : Int := 0
  heatBase : Int := 0
  pollAt  : Nat := 0
  cls     : Nat := 0
  tclu    : Int := 0
  tbase   : Int := 0
  t1      : Int := 95
  t2      : Int := 102
  t3      : Int := 110
  hyst    : Int := 3
  bubble  : Nat := 4
  queue   : List Nat := []
  tlb     : List Leaf := []
  reset   : Option Nat := none
  retiring : Bool := false
deriving DecidableEq, Repr

/-- An inbound queue (21/R327, R328); `landed` lists the landed ring offsets. -/
structure Inbound where
  base   : Nat := 0
  size   : Nat := 0
  on     : Bool := false
  ovf    : Bool := false
  mark   : Nat := 0
  cons   : Nat := 0
  drop   : Nat := 0
  landed : List Nat := []
deriving DecidableEq, Repr

/-- A launch slot (21/R331-R335): the copy of the record, the teams of the template with the groups, blocks, scratchpad
units and M role of each, the bank registers of the first, the oldest incomplete index,
the marked entries of the reorder window with their TVAL, whether the end of the oldest one is on its way to the ring, how far binding
has gone, which teams have ended (4 exited, 5 by ENDTEAM), and core, bid and withdrawals of the teams placed. -/
structure Launch where
  addr    : Nat := 0
  entry   : Nat := 0
  params  : Word := 0
  done    : Word := 0
  grid    : Nat := 0
  cls     : Nat := 0
  energy  : Nat := 0
  peak    : Nat := 0
  teams   : Nat := 0
  groups  : List Nat := []
  blocks  : List Nat := []
  units   : List Nat := []
  mrole   : List Bool := []
  banks   : List (Nat × Nat) := []
  oldest  : Nat := 0
  marked  : Map Nat := []
  told    : Bool := false
  next    : Nat := 0
  last    : Option Nat := none
  ended   : Map Nat := []
  awards  : Map (Nat × Nat × Nat) := []
  order   : Nat := 0
deriving DecidableEq, Repr

/-- The command registers of one steward group (10/R167). -/
structure Cmd where
  launch : Word := 0
  team   : Word := 0
  addr   : Word := 0
  core   : Word := 0
deriving DecidableEq, Repr

/-- A bid formula (20/R318): constants and operations (opcode, destination, sources). -/
structure Formula where
  consts : List Nat := []
  ops    : List (Nat × Nat × Nat × Nat × Nat) := []
deriving DecidableEq, Repr

/-- A bid that a candidate has sent (20/R321, 22/R344): core, bid, Q, reset count at sampling. -/
structure Bid where
  core : Nat
  bid  : Nat
  q    : Nat
  at_  : Nat
deriving DecidableEq, Repr

/-- A tender (20/R320, R321, 22/R344): who issued it, in which cycle and with which index, the task, the candidates left, the
window, the round's cycle, the bids, the winner's answer and the withdrawals; the place of the team in the order of binding
(21/R334), which it has from the award on; `mute` says that the winner is held in reset and withdraws without an answer (22/R344). -/
structure Tender where
  gid     : Nat
  since   : Nat × Nat
  slot    : Nat
  team    : Nat
  mask    : BitVec 64
  win     : Nat
  round   : Option Nat := none
  bids    : List Bid := []
  sampled : Bool := false
  award   : Option Bid := none
  answer  : Option (Bool × Nat) := none
  wdraws  : Nat := 0
  wdcore  : Nat := 0
  mute    : Bool := false
  bound   : Option Nat := none
deriving DecidableEq, Repr

/-- A page exchange (26/R384): old and new location and granules forwarded. -/
structure Exchange where
  va   : Nat
  old  : Nat
  new  : Nat
  size : Nat
  done : Nat
deriving DecidableEq, Repr

/-- A beat that a log entry names (26/R389, R393): column, parity group, retries, line swapped, spare used. -/
structure Beat where
  col     : Nat
  group   : Nat
  retries : Nat
  line    : Nat := 0xFFFF
  spare   : Nat := 0xFF
deriving DecidableEq, Repr

/-- A vertical bus (26/R389): spare lines left; a beat that is sent again, when next, and the group whose it is; the beat for which the
bus has stopped to test its lines, since when, and its group; the time of its last retry that succeeded; beats that failed for good,
which the accesses to their columns meet. -/
structure Bus where
  spares  : Nat := 8
  resend  : Option (Nat × Beat × Option Report) := none
  testing : Option (Nat × Beat × Option Report) := none
  last    : Option Nat := none
  failed  : List Beat := []
deriving DecidableEq, Repr

/-- A bank (26/R383, R380): when its last refresh fell due, postponed refreshes, busy until, registers claimed, stripe slots in
use. -/
structure Bank where
  due       : Nat := 0
  postponed : Nat := 0
  busy      : Nat := 0
  alert     : Bool := false
  regs      : Map VReg := []
  owner     : Map (Nat × Nat) := []
  slots     : List Nat := []
  corrected : Nat := 0
  lastCorr  : Option Nat := none
deriving DecidableEq, Repr

/-- A host request that a link has delivered to a virtual function (18/R302): through the memory window, where it may wait for a
refreshing bank (26/R383); a write to the inbound window, with the cycle in which it came; a read of that window or of the control
page. -/
inductive HostReq where
  | write (off : Nat) (bytes : List Byte)
  | read (off n : Nat)
  | ring (off : Nat) (bytes : List Byte) (since : Nat)
  | page (bar off n : Nat)
  /-- An AtomicOp: 0 FetchAdd, 6 Swap, 7 CAS, as the `atom` codes; its operand and compared value (28/R405). -/
  | atomic (off fn : Nat) (wide : Bool) (c e : Word)
deriving DecidableEq, Repr

/-- A partition (28/R408-R411, 10/R167, R170, 21/R327-R335, 20, 22, 23/R357, R361, 26/R385, R392); `remapTo` is the map of a remap
step that waits until the partition stands still (26/R386); `msix` the bytes that the host has written into its MSI-X table (28/R406). -/
structure Partition where
  stewrec : Nat := 0
  root    : Nat := 0
  state   : Nat := 0
  service : Nat := 0
  winva   : Nat := 0
  logva   : Nat := 0
  sigva   : Nat := 0
  cto     : Nat := 10
  strap   : Report := {}
  trbase  : Nat := 0
  trsize  : Nat := 64
  trmark  : Nat := 0
  trtail  : Nat := 0
  notice  : Bool := false
  reports : List Report := []
  cmds    : Map Cmd := []
  queues  : Map Inbound := []
  ring    : Map Byte := []
  slots   : Map Launch := []
  formula : Option Formula := none
  pointer : Nat := 0
  tender  : Option Tender := none
  waiting : List Tender := []
  msi     : List Nat := []
  cap     : Nat := 7
  aged    : Nat := 7
  slew    : Option Nat := none
  slewMax : Nat := 0
  rise    : Nat := 0
  reconf  : Bool := false
  /-- The addresses of a START have been checked (28/R409). -/
  begun   : Bool := false
  banks   : Map Bank := []
  buses   : Map Bus := []
  bankmap : Word := 0xFFFF_FFFF_FFFF_FFFF
  remaps  : Nat := 0
  spool   : Nat := 0x200_0000
  rsv     : Nat := 2
  cpages  : Map Word := []
  acount  : Nat := 0
  alog    : Map (List Byte) := []
  tcount  : Nat := 0
  tlog    : Map (List Byte) := []
  sramcorr : Nat := 0
  exch    : Option Exchange := none
  patrolAt  : Nat := 0
  patrolCol : Nat := 0
  msix    : Map Byte := []
  remapTo : Option Word := none
deriving DecidableEq, Repr

/-- The status of a PCI Express completion: successful, Unsupported Request (28/R406, R411), Completer Abort (26/R388). -/
inductive HostStatus where
  | success
  | unsupported
  | aborted
deriving DecidableEq, Repr

/-- A message that leaves the module: by a PCI Express link to a bus address (18/R278, 28/R407), by the Dyonaxo fabric through one of
the ports `via` (28/R403, R404), or a completion of a host read of the memory window (18/R302), or of the inbound window or the control
page by its BAR (28/R406). -/
inductive Outgoing where
  | deviceRead (gid seq : Nat) (link addr : Nat) (offs : List Nat)
  | deviceWrite (gid seq : Nat) (link addr : Nat) (bytes : List Byte)
  | deviceAtomic (gid seq : Nat) (link addr : Nat) (fn : Nat) (ty : Ty) (ops : List (Nat × Word × Word))
  | remote (gid seq : Nat) (via : List Nat) (module la : Nat) (op : HomeOp)
  | reply (module part group seq : Nat) (ok : Bool) (bytes : List Byte)
  | hostData (part off : Nat) (status : HostStatus) (bytes : List Byte)
  | hostPage (part bar off : Nat) (status : HostStatus) (bytes : List Byte)
  | flitAck (port seq : Nat) (good : Bool)
  /-- A flit with the message that stands at this place among those that leave the module. -/
  | flit (port seq message : Nat)
deriving DecidableEq, Repr

/-- An entry of the share table (28/R412): a 2 MiB-aligned local range, its owner, and who may reach it. -/
structure Share where
  base   : Nat
  size   : Nat
  owner  : Nat
  parts  : BitVec 48
  modLo  : Nat
  modHi  : Nat
deriving DecidableEq, Repr

/-- A port of the fabric (28/R403): the number of the flit that it expects and how often it has asked for it again; the number of the
next flit that it sends, its retry buffer of flits not yet acknowledged, with their messages, and how often it has sent the oldest one
again. -/
structure Port where
  up     : Bool := true
  expect : Nat := 0
  resent : Nat := 0
  next   : Nat := 0
  buffer : List (Nat × Nat) := []
  fails  : Nat := 0
deriving DecidableEq, Repr

/-- A home's retry record of an applied request (17/R269); `home` is the request's local address. -/
structure Retry where
  module : Nat
  part   : Nat
  group  : Nat
  home   : Nat
  seq    : Nat
  ok     : Bool
  reply  : List Byte
deriving DecidableEq, Repr

/-- A message that a DOE mailbox answers (28/R413); `digest`, `signed` bytes are what the mailbox computed. -/
inductive Spdm where
  | version (fn : Nat) (major minor : Nat)
  | capabilities (fn : Nat) (messages : List Nat)
  | algorithms (fn : Nat) (agreed : Bool)
  | digests (fn : Nat) (slots : List Nat) (digest : Nat)
  | certificate (fn slot : Nat) (chain : List Byte)
  | challenge (fn slot : Nat) (nonce : List Byte) (signature : Nat)
  | measurements (fn : Nat) (values : List (Nat × Nat))
  | error (fn : Nat)
deriving DecidableEq, Repr

/-- What moves next, where the schedule or the outside world chooses (the model's own, log 2). -/
inductive Act where
  /-- A step of the opcode table by another agent than a group's issue, with its subject. -/
  | event (i : Instr) (subject : Nat)
  /-- The group runs its next instruction; its turn is placed from outside (log 27). -/
  | run (g : Nat)
  /-- n cycles of 1.1 GHz pass. -/
  | tick (n : Nat)
  /-- The next group to issue does so ahead of its commit (08/R121-R124). -/
  | defer
  /-- A core's translation buffer, or its cluster's, takes the leaf of a page (26/R378). -/
  | fill (core : Nat) (shared : Bool) (va : Nat)
  /-- Symbols of a DRAM column go bad (26/R387). -/
  | damage (la syms : Nat)
  /-- Two bits of a word go bad: of a team's scratchpad, or of the trap save slots of a group (26/R390). -/
  | sramDamage (key word : Nat)
  /-- The physical function writes or clears an entry of a table (28/R403, R407, R412). -/
  | share (k : Nat) (e : Option Share)
  | route (module : Nat) (ports : List Nat)
  | outbound (la bus size : Nat)
  /-- Firmware sets the Weir budget of a cluster (23/R353), or the stripe pool and the reserve of a stopped partition
  (26/R374, R385). -/
  | budget (cluster energy peak : Nat)
  /-- What the sensors of a cluster show: the energy used in the interval, its diode and the one of its base region (23/R354,
  R359). -/
  | sense (cluster used : Nat) (clu base : Int)
  | pool (p spool rsv : Nat)
  /-- Firmware sets the thresholds of a cluster (23/R359), or the current-slew budget of a partition, whose current would now
  rise by `rise` A per µs (23/R361). -/
  | thresholds (cluster : Nat) (t1 t2 t3 hyst : Int)
  | slew (p budget rise : Nat)
  /-- The host reads n bytes of the inbound window (BAR 0) or of the control page (BAR 4) of a link's virtual function (21/R327,
  28/R405, R408). -/
  | hostRead (link vf bar off n : Nat)
  /-- The host sends an AtomicOp through the memory window of a link's virtual function (28/R405). -/
  | hostAtomic (link vf off fn : Nat) (wide : Bool) (c e : Word)
  /-- A port sends a message that leaves the module, or hears of one of its flits (28/R403). -/
  | flitSend (port message : Nat)
  | flitHeard (port seq : Nat) (good : Bool)
  /-- Firmware sets n of the matrix bubbles of a cluster (23/R360). -/
  | bubbles (cluster n : Nat)
deriving DecidableEq, Repr

/-- The reasons the machine stops. The spec gives every case an effect (a trap, a wait, a parked group, a report), so the
model has no fault. -/
inductive Fault where
deriving DecidableEq, Repr

/-- The reasons an instruction has no meaning. -/
inductive Refusal where
  /-- Raised by an arm of `exec` for an instruction not modelled yet; safe: nothing is proved of it. -/
  | notModelled (mnemonic : String)
deriving DecidableEq, Repr

/-- Main memory by module-local address (26/R374): addresses rising, no byte 0 listed. -/
abbrev Memory := List Host.Cell

/-- The module. `issued` holds what has issued in this cycle, with core and port (21/R339), and which cores have judged their pending
groups; `hwAsks` the packets of the hardware's own accesses, `inbox` the requests that wait for a refresh (26/R383), `hostQs` those of
the host by link (18/R302). -/
structure State where
  time     : Nat
  me       : Group
  meId     : Nat
  others   : Map Group
  teams    : Map Team
  cohorts  : Map Cohort
  cores    : Map Core
  clusters : Map Cluster
  culverts : Map Culvert
  parts    : Map Partition
  mem      : Memory
  damaged  : Map Nat
  codes    : Map Nat
  spDamage : Map (List Nat)
  retries  : List Retry
  hwAsks   : List HwAsk
  inbox    : List HomeReq
  hostQs   : Map (List (Nat × HostReq))
  shares   : Map Share
  routes   : Map (List Nat)
  outbound : List (Nat × Nat × Nat)
  ports    : Map Port
  outbox   : List Outgoing
  module   : Nat
  measured : Map Nat
  doe      : List Spdm
  calib    : Map Bool
  issued   : List (Nat × Nat × Nat)
  agenda   : List Act
  subject  : Nat
  free     : Nat
  order    : Nat
  nextId   : Nat
deriving DecidableEq, Repr

/-- The group's registers before any group starts (log 4): the values of group start, the status `absent`. -/
def Group.vacant : Group := { status := .absent }

/-- The module right after module reset (28/R408, R413; log 4): no group, no partition running, memory with nothing
listed. -/
def State.reset : State :=
  { time := 0, me := Group.vacant, meId := 0, others := [], teams := [], cohorts := [], cores := [], clusters := []
    culverts := [], parts := [], mem := [], damaged := [], codes := [], spDamage := []
    retries := [], hwAsks := [], inbox := [], hostQs := [], shares := [], routes := []
    outbound := [], ports := [], outbox := [], module := 0, measured := [], doe := [], calib := []
    issued := [], agenda := [], subject := 0, free := 0, order := 0, nextId := 1 }

end Sys2Proof.Machine
end

