-- ==== Sys2Proof/Machine/Ops.lean ====
section
/-!
DEFINITION. The shared operations over the state: lanes and bytes, the geometry of the module, access to groups, teams,
cores and partitions, main memory, traps (taking one and returning), and the next-address clause.
-/

namespace Sys2Proof.Machine

open Sys2Proof

/-! ### Bits and bytes -/

/-- `n` digits in base `2 ^ w`, digit k being `f k mod 2 ^ w`. -/
def packNat (w : Nat) (f : Nat → Nat) : Nat → Nat
  | 0 => 0
  | n + 1 => packNat w f n + f n % 2 ^ w * 2 ^ (w * n)

/-- Digit k of a number in base `2 ^ w`. -/
def digit (w x k : Nat) : Nat := x / 2 ^ (w * k) % 2 ^ w

/-- Lane l (00/R4). -/
def VReg.lane (v : VReg) (l : Nat) : Nat := digit 32 v.data.toNat l

/-- Scale byte q (00/R4). -/
def VReg.scaleByte (v : VReg) (q : Nat) : Nat := digit 8 v.scale.toNat q

/-- A register from its lanes and scale bytes. -/
def VReg.ofLanes (lane scale : Nat → Nat) : VReg :=
  { data := BitVec.ofNat 1024 (packNat 32 lane 32), scale := BitVec.ofNat 64 (packNat 8 scale 8) }

/-- Bit l of a lane mask. -/
def laneOn (m : BitVec 32) (l : Nat) : Bool := m.getLsbD l

/-- A mask from its bits. -/
def maskOf (f : Nat → Bool) : BitVec 32 := BitVec.ofNat 32 (packNat 1 (fun l => (f l).toNat) 32)

/-- Quad q holds an active lane (02/R32). -/
def quadOn (m : BitVec 32) (q : Nat) : Bool := digit 4 m.toNat q != 0

/-- The bytes of a number, least significant first. -/
def bytesOf (x : Nat) : Nat → List Byte
  | 0 => []
  | n + 1 => BitVec.ofNat 8 x :: bytesOf (x / 256) n

/-- The number of little-endian bytes (00/R4). -/
def numOf : List Byte → Nat
  | [] => 0
  | b :: bs => b.toNat + 256 * numOf bs

def VReg.bytes (v : VReg) : List Byte := bytesOf v.data.toNat 128

/-- The 136 bytes of a register in a frame (09/R156). -/
def VReg.frameBytes (v : VReg) : List Byte := bytesOf v.data.toNat 128 ++ bytesOf v.scale.toNat 8

def VReg.ofFrame (bs : List Byte) : VReg :=
  { data := BitVec.ofNat 1024 (numOf (bs.take 128)), scale := BitVec.ofNat 64 (numOf ((bs.drop 128).take 8)) }

/-- An address within 52 bits (04/R62). -/
def addrAdd (pc : VAddr) (off : Word) : VAddr := pc + off.truncate 52

/-! ### Geometry (00/R1, 02/R34, 06/R115) -/

def coreCount : Nat := 3072

/-- The partition of a core: four facing cluster pairs (00/R1). -/
def corePart (c : Nat) : Nat := 4 * (c / 256) + c % 128 / 8 / 4

/-- The cluster of a core, 0-383 (06/R115). -/
def coreCluster (c : Nat) : Nat := c / 8

/-- The facing core. -/
def facing (c : Nat) : Nat := if c / 128 % 2 = 0 then c + 128 else c - 128

/-- The lower core of a facing pair. -/
def lowerCore (c : Nat) : Nat := if c / 128 % 2 = 0 then c else c - 128

/-- The i-th core of a partition, in ascending module core number. -/
def partCore (p i : Nat) : Nat := 256 * (p / 4) + 128 * (i / 32) + 32 * (p % 4) + i % 32

/-- The core at a cohort position of facing cluster pair k (0-3) of a partition (02/R34). -/
def pairCore (p k pos : Nat) : Nat := 256 * (p / 4) + 128 * (pos / 8) + 32 * (p % 4) + 8 * k + pos % 8

/-- The key of a culvert queue: lower core, direction (0 up, 1 down), queue number. -/
def culvertKey (low dir num : Nat) : Nat := low * 16 + dir * 8 + num

/-! ### Groups, teams, cores, partitions -/

/-- The group with a number; the group whose turn it is stands in `me`. -/
def State.group? (s : State) (g : Nat) : Option Group :=
  if g = s.meId then (if s.me.status = .absent then none else some s.me) else s.others.get? g

def State.group (s : State) (g : Nat) : Group := (s.group? g).getD Group.vacant

def State.setGroup (s : State) (g : Nat) (x : Group) : State :=
  if g = s.meId then { s with me := x } else { s with others := s.others.set g x }

def State.modGroup (s : State) (g : Nat) (f : Group → Group) : State :=
  match s.group? g with
  | some x => s.setGroup g (f x)
  | none => s

/-- The group is gone. -/
def State.dropGroup (s : State) (g : Nat) : State :=
  if g = s.meId then { s with me := Group.vacant, meId := 0 } else { s with others := s.others.erase g }

/-- The turn of another group: it stands in `me`. -/
def State.turn (s : State) (g : Nat) : State :=
  if g = s.meId then s
  else match s.others.get? g with
    | none => s
    | some x =>
      let rest := s.others.erase g
      { s with me := x, meId := g, others := if s.meId = 0 then rest else rest.set s.meId s.me }

/-- The turn is no group's. -/
def State.noTurn (s : State) : State :=
  if s.meId = 0 then s else { s with me := Group.vacant, meId := 0, others := s.others.set s.meId s.me }

/-- A step of another group, after which the turn is what it was. -/
def State.asGroup (s : State) (g : Nat) (f : State → State) : State :=
  let t := f (s.turn g)
  if s.meId = 0 then t.noTurn else t.turn s.meId

/-- Every group with its number. -/
def State.groups (s : State) : Map Group :=
  if s.me.status = .absent then s.others else s.others.set s.meId s.me

def State.team (s : State) (t : Nat) : Team := s.teams.get t {}

def State.setTeam (s : State) (t : Nat) (x : Team) : State := { s with teams := s.teams.set t x }

def State.modTeam (s : State) (t : Nat) (f : Team → Team) : State := s.setTeam t (f (s.team t))

def State.cohort (s : State) (k : Nat) : Cohort := s.cohorts.get k {}

def State.modCohort (s : State) (k : Nat) (f : Cohort → Cohort) : State :=
  { s with cohorts := s.cohorts.set k (f (s.cohort k)) }

def State.core (s : State) (c : Nat) : Core := s.cores.get c {}

def State.modCore (s : State) (c : Nat) (f : Core → Core) : State := { s with cores := s.cores.set c (f (s.core c)) }

/-- The control interval of a cluster's weir, 10 µs (23/R353), and the period of its thermal poll, 50 µs (23/R359). -/
def weirPeriod : Nat := 11_000
def pollPeriod : Nat := 55_000

/-- A cluster that no step has touched: its intervals and polls have gone by from cycle 0 on (log 2). -/
def idleCluster (t : Nat) : Cluster := { weirAt := t / weirPeriod * weirPeriod, pollAt := t / pollPeriod * pollPeriod }

def State.cluster (s : State) (c : Nat) : Cluster := s.clusters.get c (idleCluster s.time)

def State.modCluster (s : State) (c : Nat) (f : Cluster → Cluster) : State :=
  { s with clusters := s.clusters.set c (f (s.cluster c)) }

def State.part (s : State) (p : Nat) : Partition := s.parts.get p {}

def State.modPart (s : State) (p : Nat) (f : Partition → Partition) : State :=
  { s with parts := s.parts.set p (f (s.part p)) }

/-- A bank is refreshed every 3.9 µs: 4,290 cycles (26/R383). -/
def refreshPeriod : Nat := 4290

/-- tRFCsb = 190 ns in cycles of 1.1 GHz. -/
def refreshCycles : Nat := 209

/-- A bank that no step has touched: each refresh since cycle 0 has been carried out when it fell due (log 2). -/
def idleBank (t : Nat) : Bank :=
  let due := t / refreshPeriod * refreshPeriod
  { due, busy := if due ≠ 0 && t < due + refreshCycles then due + refreshCycles else 0 }

def State.bank (s : State) (p b : Nat) : Bank := (s.part p).banks.get b (idleBank s.time)

/-- A partition stops for a reconfiguration that waits until it stands still (26/R386): a remap step, new routes after a cluster is
retired (28/R400), the end of calibration (28/R414). -/
def State.standsDown (s : State) (p : Nat) : Bool :=
  (s.part p).remapTo.isSome || ((s.part p).service == 1 && s.calib.get (p / 4) false)
    || s.clusters.any fun k => corePart (8 * k.1) == p && k.2.retiring && k.2.reset.isNone

/-- A group stops at its next instruction boundary: one whose request is under way completes its instruction first. -/
def State.standing (s : State) (x : Group) : Bool := s.standsDown (corePart x.core) && x.asked.isNone

def State.culvert (s : State) (q : Nat) : Culvert := s.culverts.get q {}

def State.modCulvert (s : State) (q : Nat) (f : Culvert → Culvert) : State :=
  { s with culverts := s.culverts.set q (f (s.culvert q)) }

/-- The team of the group whose turn it is. -/
def State.myTeam (s : State) : Team := s.team s.me.team

/-- The partition of the group whose turn it is. -/
def State.myPart (s : State) : Nat := corePart s.me.core

/-- The groups resident on a core (21/R337): those that run, are parked or stopped there; a pre-empted one until its
pre-emption ends (09/R153). -/
def State.residents (s : State) (c : Nat) : Map Group :=
  s.groups.filter fun p => p.2.core == c && p.2.status != .absent && p.2.status != .out

/-- What tenders hold back on a core (22/R347): groups, blocks and scratchpad units of the team under tender, where the core
has bid for it, and of teams that wait there for a wake. -/
def State.reservedOn (s : State) (c : Nat) : Nat × Nat × Nat :=
  let bid : Nat × Nat × Nat := match (s.core c).reserved with
    | some slot => match (s.part (corePart c)).slots.get? slot with
      | some l => (l.groups.getD 0 0, l.blocks.getD 0 0, l.units.getD 0 0)
      | none => (0, 0, 0)
    | none => (0, 0, 0)
  s.teams.foldl (fun acc t =>
    if t.2.core == c && t.2.state == .awarded then (acc.1 + t.2.ngroups, acc.2.1 + t.2.blocks, acc.2.2 + t.2.n) else acc) bid

/-- Blocks of a core's pool that no tender holds back. -/
def State.blocksFree (s : State) (c : Nat) : Nat := (s.core c).freeBlocks - (s.reservedOn c).2.1

/-- Group slots of a core that are free. -/
def State.slotsFree (s : State) (c : Nat) : Nat := 32 - ((s.residents c).length + (s.reservedOn c).1)

/-! ### Levels (00/R3, 23/R355-R357) -/

/-- The thermal cap of a class (23/R360). -/
def thermalCap (cls : Nat) : Nat := if cls ≤ 1 then 7 else if cls = 2 then 3 else 0

/-- The partition cap (23/R357, 28/R414, R415). -/
def Partition.levelCap (p : Partition) : Nat := min p.cap p.aged

/-- The target level of an island (23/R357). -/
def State.targetLevel (s : State) (c : Nat) : Nat :=
  let want := (s.residents c).foldl (fun n g => max n g.2.level) 0
  min (min want (s.part (corePart c)).levelCap) (min (thermalCap (s.cluster (coreCluster c)).cls) (s.core c).ocap)

/-- The level at which an island runs. -/
def State.levelNow (s : State) (c : Nat) : Nat := min (s.core c).reached (s.targetLevel c)

/-- The clock of a level in units of 10 MHz (23/R355). -/
def levelClock (l : Nat) : Nat := [35, 45, 55, 65, 75, 85, 95].getD l 110

/-- The clock at which a core runs. -/
def State.clock (s : State) (c : Nat) : Nat := levelClock (s.levelNow c)

/-- Cycles that a core has counted at a time: a cycle of the core lasts as the clock of its level says, and one of 1.1 GHz is the unit
of time (00/R3). -/
def State.cycleOf (s : State) (c t : Nat) : Nat :=
  match (s.core c).pace.find? (·.1 ≤ t) with
  | some (t0, n, clock) => n + (t - t0) * clock / 110
  | none => t

/-- Cycles that a core has counted. -/
def State.cycles (s : State) (c : Nat) : Nat := s.cycleOf c s.time

/-- The clocks of cores that have changed, from the current time on. -/
def State.notePace (s : State) : State :=
  { s with cores := s.cores.update fun c (k : Core) =>
    if s.clock c = ((k.pace.head?.map (·.2.2)).getD 110) then k else { k with pace := (s.time, s.cycles c, s.clock c) :: k.pace } }

/-- A cycle of the core begins at the current time. -/
def State.ticks (s : State) (c : Nat) : Bool := s.cycleOf c s.time != s.cycleOf c (s.time + 1)

/-! ### Main memory: one byte is one entry, a byte 0 is not listed (log 3) -/

/-- What an unlisted address reads as (26/R374 gives no contents at power-on; log 3). -/
def Memory.unlisted : Byte := 0

def Memory.read (m : Memory) (a : Nat) : Byte := Map.get m a Memory.unlisted

def Memory.write (m : Memory) (a : Nat) (b : Byte) : Memory :=
  if b = Memory.unlisted then Map.erase m a else Map.set m a b

/-- The canonical form: addresses strictly rising, no entry equal to an unlisted byte. -/
def Memory.wf : Memory → Bool
  | [] => true
  | [(_, b)] => b != Memory.unlisted
  | (a, b) :: (a', b') :: m => a < a' && b != Memory.unlisted && Memory.wf ((a', b') :: m)

def Memory.readN (m : Memory) (a : Nat) : Nat → List Byte
  | 0 => []
  | n + 1 => Memory.read m a :: Memory.readN m (a + 1) n

def Memory.writeN (m : Memory) (a : Nat) : List Byte → Memory
  | [] => m
  | b :: bs => Memory.writeN (Memory.write m a b) (a + 1) bs

/-- An aligned little-endian number. -/
def Memory.num (m : Memory) (a n : Nat) : Nat := numOf (Memory.readN m a n)

/-! ### Reports (08/R137) -/

def State.addReport (s : State) (p : Nat) (r : Report) : State :=
  s.modPart p fun x => { x with reports := x.reports ++ [r] }

/-- A report of the hardware that names no trap: its KIND stands in TCAUSE. -/
def State.notify (s : State) (p kind : Nat) (tval : Word) (r : Report := {}) : State :=
  s.addReport p { r with tcause := BitVec.ofNat 64 kind, tval := tval }

/-- The part of a report that names a group. -/
def State.groupReport (s : State) (g : Group) : Report :=
  let t := s.team g.team
  { team := t.index, group := g.index, depth := g.depth.toNat, launch := t.launch }

/-! ### The group scheduler (21/R337, R341, R342) -/

/-- A list of numbers is lexically less. -/
def lexLess : List Nat → List Nat → Bool
  | [], [] => false
  | [], _ => true
  | _, [] => false
  | a :: as, b :: bs => a < b || (a == b && lexLess as bs)

/-- Age with its ties: the lowest is the oldest (21/R337). -/
def State.ageKey (s : State) (g : Group) : List Nat := [g.age, g.index, (s.team g.team).slot, (s.team g.team).index]

/-- The least of some groups by a key. -/
def leastGroup (key : Group → List Nat) (gs : Map Group) : Option (Nat × Group) :=
  gs.foldl (fun best x => match best with
    | none => some x
    | some b => if lexLess (key x.2) (key b.2) then some x else best) none

/-- Groups of a core that wait for a seat in the active set. -/
def State.pendings (s : State) (c : Nat) : Map Group :=
  (s.residents c).filter fun x => x.2.status == .running && x.2.sched == .pending

/-- Seats of the active set in use, those of groups swapping in included. -/
def State.seats (s : State) (c : Nat) : Nat :=
  ((s.residents c).filter fun x => x.2.sched == .active || x.2.sched == .entering).length

/-- The group that fills a vacancy (21/R342): of the ready ones that promoted earliest, else the oldest ready one, else the oldest. A
pending group is ready since the cycle `ready`, when its next instruction would not wait (log 22). -/
def State.nextPending (s : State) (c : Nat) : Option (Nat × Group) :=
  let ps := s.pendings c
  let promoted := ps.filter fun x => x.2.promo.isSome && x.2.ready.isSome
  let ready := ps.filter fun x => x.2.ready.isSome
  (leastGroup (fun g => g.promo.getD 0 :: s.ageKey g) promoted).or
    ((leastGroup s.ageKey ready).or (leastGroup s.ageKey ps))

/-- A pending group begins its swap into the active set: it may issue after so many cycles of its core, 2 from the current one on. -/
def State.enter (s : State) (g : Nat) (cycles : Nat := 2) : State :=
  s.modGroup g fun x => { x with sched := .entering, stay := s.cycles x.core + cycles, promo := none, ready := none }

/-- A group that becomes resident (21/R337): it enters the active set in the next cycle of its core if the set has room, else it is
pending. -/
def State.seat (s : State) (g : Nat) : State :=
  let c := (s.group g).core
  let room := s.seats c < 8
  s.modGroup g fun x => { x with sched := if room then .entering else .pending, stay := s.cycles c + 1 }

/-- Vacancies of a core filled, at most n of them. -/
def State.fillN (s : State) (c : Nat) : Nat → State
  | 0 => s
  | n + 1 =>
    if 8 ≤ s.seats c then s
    else match s.nextPending c with
      | none => s
      | some (g, _) => (s.enter g).fillN c n

def State.fill (s : State) (c : Nat) : State := s.fillN c 8

/-! ### Traps -/

/-- The place of a register, by its map entry (03/R35). -/
def mapPlace (e : BitVec 32) : Nat := e.toNat / 2 ^ 29
def mapQKind (e : BitVec 32) : Nat := e.toNat / 2 ^ 27 % 4
def mapQDepth (e : BitVec 32) : Nat := e.toNat / 2 ^ 22 % 32 + 1
def mapQNum (e : BitVec 32) : Nat := e.toNat / 2 ^ 19 % 8
def mapSlot (e : BitVec 32) : Nat := e.toNat % 2 ^ 16

/-- The map entry of `vN` (03/R35). -/
def Group.entry (g : Group) (n : Nat) : BitVec 32 := g.pmap.get n 0

/-- The map entry of `vN` of the group itself, also while its block lies in the trap save slots (08/R139). -/
def Group.ownEntry (g : Group) (n : Nat) : BitVec 32 :=
  match g.relief with
  | some r => if r.block = n / 8 then r.map.getD (n % 8) 0 else g.entry n
  | none => g.entry n

/-- The map entries that `vN` stands for: the group's own, and the handler's while its block lies in the trap save slots (08/R139). -/
def Group.entries (g : Group) (n : Nat) : List (BitVec 32) := [g.ownEntry n, g.entry n]

/-- The block of `vN` lies in the trap save slots (08/R139). -/
def Group.relieved (g : Group) (n : Nat) : Bool := g.relief.any (·.block == n / 8)

/-- The bank and bank register of a map entry at `nb` (03/R35). -/
def bankOf (e : BitVec 32) : Nat × Nat := (mapSlot e / 2 ^ 10, mapSlot e / 2 ^ 5 % 32)

/-- A bank register claimed or freed (03/R37). -/
def State.ownBank (s : State) (p b r : Nat) (o : Option (Nat × Nat)) : State :=
  let k := s.bank p b
  s.modPart p fun x => { x with banks := x.banks.set b { k with
      owner := match o with | some v => k.owner.set r v | none => k.owner.erase r
      regs := match o with | some _ => k.regs | none => k.regs.erase r } }

/-- The head of the local queue whose range holds `vN` (03/R46). -/
def Group.localHead (g : Group) (n : Nat) : Option Nat :=
  (g.pmap.find? fun p => mapQKind p.2 == 1 && p.1 ≤ n && n < p.1 + mapQDepth p.2).map (·.1)

/-- The block of `vN` holds a queue register of any kind (02/R29, 08/R139). -/
def Group.blockQueue (g : Group) (b : Nat) : Bool :=
  g.pmap.any fun p => mapQKind p.2 != 0 && p.1 / 8 == b

def Group.holds (g : Group) (b : Nat) : Bool := g.held.getLsbD b

/-- The relieved block H (08/R139): the highest held block without a queue register. -/
def Group.relievable (g : Group) : Option Nat :=
  ((List.range 16).filter fun b => g.holds b && !g.blockQueue b).getLast?

/-- Registers 8b to 8b+7 without what the table lists for them. -/
def dropBlock {α : Type} (m : Map α) (b : Nat) : Map α := m.filter fun p => p.1 / 8 != b

/-- The relief of a block (08/R139): its lane registers and map entries go to the save slots. -/
def Group.relieve (g : Group) : Group :=
  match g.relievable with
  | none => { g with relief := none }
  | some b =>
    { g with
      relief := some { block := b, regs := (List.range 8).map fun j => g.regs.get (8 * b + j) .fresh
                       map := (List.range 8).map fun j => g.entry (8 * b + j) }
      regs := dropBlock g.regs b
      pmap := dropBlock g.pmap b }

/-- Entries of a list at keys 8b to 8b+7. -/
def putBlock {α : Type} (m : Map α) (b : Nat) (xs : List α) : Map α :=
  (xs.zipIdx).foldl (fun m x => m.set (8 * b + x.2) x.1) m

/-- Block H comes back from the save slots (08/R141); what is still to land in a register that the handler saw in its place lands nowhere. -/
def Group.unrelieve (g : Group) : Group :=
  match g.relief with
  | none => g
  | some r =>
    { g with relief := none, regs := putBlock (dropBlock g.regs r.block) r.block r.regs
             pmap := putBlock (dropBlock g.pmap r.block) r.block r.map
             splits := g.splits.map fun l => if l.inner then { l with mask := 0 } else l }

/-- The steering bit of a trap kind in `tvec` (08/R133). -/
def steerBit (kind : Nat) : Option Nat :=
  if kind ≤ 5 then some 52 else if kind ≤ 11 then some 53 else if kind = 12 then some 54
  else if kind ≤ 14 then some 55 else if kind ≤ 17 then some 56 else if kind = 18 then some 57
  else if kind = 19 then some 58 else if kind = 20 then some 59 else if kind = 22 then some 60 else none

/-- Routing (08/R136). -/
def Group.toSteward (g : Group) (steward : Bool) (kind : Nat) : Bool :=
  let addr := g.tvec.toNat % 2 ^ 52
  g.depth || addr == 0 || addr % 4 != 0 || steward || kind == 21
    || (match steerBit kind with | some b => g.tvec.getLsbD b | none => true)

/-- The `tcause` word (08/R134). -/
def causeWord (t : Trap) (depth : Nat) (stew : Bool) : Word :=
  BitVec.ofNat 64 (t.kind + t.nxs.toNat * 2 ^ 8 + stew.toNat * 2 ^ 9 + depth * 2 ^ 10 + t.place * 2 ^ 12 + t.op * 2 ^ 16)

/-- Entering the user handler (08/R138). -/
def Group.enterHandler (g : Group) (t : Trap) : Group :=
  let g := { g with
    tepc := g.pc.zeroExtend 64, tcause := causeWord t 1 false, tval := t.tval, tlm := t.tlm.zeroExtend 64
    tem := g.em, setR := g.rstack, setL := g.lstack, rstack := [], lstack := [] }
  { g.relieve with
    depth := true, pc := g.tvec.truncate 52, wait := none, waited := 0
    asked := none, fetched := [], xw := none, want := none, stopAt := none }

/-- The key under which the double errors of a group's trap save slots stand (26/R390). -/
def saveSlotKey (g : Nat) : Nat := 2 ^ 32 + g

/-- Map entries that an uncommitted `plc` of the group has claimed (03/R45), with its register. -/
def Group.claims (g : Group) : List (Nat × BitVec 32) :=
  g.win.filterMap fun w => match w.ins with
    | .plc f => some (f.d.toNat, BitVec.ofNat 32 (f.plc.toNat * 2 ^ 29 + f.imm.toNat % 2 ^ 16))
    | _ => none

/-- What the uncommitted instructions of a group hold outside it is given back (08/R126): slots that a `plc` claimed, the
fault-buffer entry of a parked access. -/
def State.squash (s : State) (g : Nat) : State :=
  match s.group? g with
  | none => s
  | some x =>
    let p := corePart x.core
    let s := x.claims.foldl (fun s c =>
      let (b, r) := bankOf c.2
      if mapPlace c.2 == 2 && x.ownEntry c.1 != c.2 && (((s.part p).banks.get b {}).owner.get? r) == some (g, c.1) then
        s.ownBank p b r none else s) s
    match x.parked with
    | some { entry := some e, .. } => s.modCore x.core fun k => { k with fbuf := k.fbuf.erase e }
    | _ => s

/-- A group whose uncommitted instructions are gone (08/R126): a parked one runs again; the counter that a parked `lds` had
raised comes down (19/R306). -/
def Group.squashed (g : Group) : Group :=
  { g with
    status := if g.status = .parked then .running else g.status
    win := [], parked := none, granted := none, raised := none
    ctrs := match g.raised with
      | some k => let c := g.ctrs.get k { count := 0, damage := none }; g.ctrs.set k { c with count := c.count - 1 }
      | none => g.ctrs }

/-- Taking a trap (08/R136-R138, R142, 28/R411): the one operation by which every trap is taken. What has issued after it is
squashed (R126). The group of the trap enters its handler; or it stops, and its report goes to the steward's ring, or, for the
steward team, to STRAP. -/
def State.takeTrap (s : State) (g : Nat) (t : Trap) : State :=
  match s.group? g with
  | none => s
  | some y =>
    let s := s.squash g
    let x := y.squashed
    let team := s.team x.team
    if !x.toSteward team.steward t.kind then
      { s.setGroup g { x.enterHandler t with notBefore := s.cycles x.core + 6 } with spDamage := s.spDamage.erase (saveSlotKey g) }
    else
      let r : Report := { s.groupReport x with
        tcause := causeWord t 2 true, tepc := x.pc.zeroExtend 64, tval := t.tval, tlm := t.tlm.toNat }
      let s := s.setGroup g { x with status := .stopped, wait := none, waited := 0
                                     asked := none, fetched := [], xw := none, want := none, stopAt := none
                                     sched := .pending, yielded := false, tres := none }
      let s := s.fill x.core
      if team.steward then
        let off (d : Tender) : Tender := if d.gid = g then { d with gid := 0 } else d
        s.modPart team.part fun p => { p with
          strap := r, state := 3, msi := p.msi ++ [0], tender := p.tender.map off, waiting := p.waiting.map off }
      else s.addReport team.part r

/-- The return of `tret` (08/R141) up to the misaligned check. -/
def Group.returnTo (g : Group) (pc : VAddr) : Group :=
  { g.unrelieve with em := g.tem, rstack := g.setR, lstack := g.setL, setR := [], setL := [], depth := false, pc := pc }

/-- The trap of a fault of the fetch at an address (08/R131, R141): OP 0. -/
def fetchTrap (kind place : Nat) (tval : Word) (g : Group) : Trap :=
  { kind, tval, tlm := g.em, place, op := 0, nxs := false }

/-! ### The next-address clause (04/R67) -/

/-- The reconvergence stack's room: 32 entries, 8 in a handler (02/R18, 08/R140). -/
def Group.rRoom (g : Group) : Nat := if g.depth then 8 else 32

/-- The loop stack's room: 4 entries, 2 in a handler (02/R21, 08/R140). -/
def Group.lRoom (g : Group) : Nat := if g.depth then 2 else 4

/-- A signed word offset from the instruction (04/R63). -/
def wordOff (pc : VAddr) (off : BitVec 30) : VAddr := pc + (off.signExtend 52) * 4

/-- Why the next-address stage traps (08/R130 rank 5): kind and `tval`. -/
inductive NextFault where
  | emptyLoop
  | overflow (tval : Nat)
  | misaligned (target : VAddr)
deriving DecidableEq, Repr

/-- The path mask of the top entry (02/R17); all lanes with an empty stack. -/
def Group.pathMask (g : Group) : BitVec 32 :=
  match g.rstack with
  | [] => 0xFFFF_FFFF
  | e :: _ => if e.phase then e.pmask else e.emd &&& ~~~e.pmask

/-- Predicate register n. -/
def Group.pred (g : Group) (n : Nat) : BitVec 32 := g.preds.get n 0

/-- The effect of NX after the instruction's own effect (04/R67, 02/R18, R20, R21). The stacks hold their top first. -/
def Group.advance (g : Group) (nx : Nx) (len : Nat) : Except NextFault Group :=
  let next := g.pc + BitVec.ofNat 52 len
  match nx with
  | .seq => .ok { g with pc := next }
  | .yield => .ok { g with pc := next, yielded := true }
  | .exit => .ok { g with status := .exiting, rstack := [], lstack := [] }
  | .jump off => .ok { g with pc := addrAdd g.pc off }
  | .call off => .ok { g with pc := addrAdd g.pc off, sregs := g.sregs.set 63 (next.zeroExtend 64) }
  | .ret =>
    let t := (g.sregs.get 63 0).truncate 52
    if t.toNat % 4 = 0 then .ok { g with pc := t } else .error (.misaligned t)
  | .loop =>
    match g.lstack with
    | [] => .error .emptyLoop
    | e :: es =>
      if 1 < e.count.toNat then .ok { g with pc := e.head, lstack := { e with count := e.count - 1 } :: es }
      else .ok { g with pc := next, lstack := es }
  | .cond neg cp target join =>
    let p := if neg then ~~~g.pred cp.toNat else g.pred cp.toNat
    let t := g.em &&& p
    let f := g.em &&& ~~~p
    if f = 0 then .ok { g with pc := wordOff g.pc target }
    else if t = 0 then .ok { g with pc := next }
    else if g.rRoom ≤ g.rstack.length then .error (.overflow (if g.depth then 2 else 0))
    else .ok { g with
      rstack := { join := wordOff g.pc join, resume := next, pmask := f, emd := g.em, fmc := g.fm
                  ldep := g.lstack.length, phase := false } :: g.rstack
      em := t
      pc := wordOff g.pc target }

/-- The join check before a fetch (02/R18): none where the next address is not the top entry's join; an error where the
loop depths differ; else the group on its second path or past the region. -/
def Group.join (g : Group) : Option (Except Unit Group) :=
  match g.rstack with
  | [] => none
  | e :: es =>
    if e.join ≠ g.pc then none
    else if g.lstack.length ≠ e.ldep then some (.error ())
    else if !e.phase then
      some (.ok { g with rstack := { e with phase := true } :: es, em := e.pmask, fm := e.fmc, pc := e.resume })
    else some (.ok { g with rstack := es, em := e.emd, fm := e.fmc, pc := e.join })

end Sys2Proof.Machine
end

