-- ==== Sys2Proof/Machine/Issue.lean ====
section
/-!
DEFINITION. The issue of one instruction: the checks in the rank of 08/R130, the outcome of its effect, and the
next-address clause. Every instruction's meaning is `run` over its own effect.
-/

namespace Sys2Proof.Machine

open Sys2Proof

/-- Why an instruction has not completed: a trap; a wait with nothing done; a wait with a state that records the request
(an arrival, a packet sent); a replayable translation fault, with a state that records what the access holds while parked; a
trap met after the state has recorded an error (26/R388). -/
inductive Halt where
  | trap (t : Trap)
  | fail (t : Trap) (s : State)
  | wait (w : Wait)
  | held (w : Wait) (s : State)
  | park (va : Word) (s : State)
deriving DecidableEq, Repr

/-- The lanes active for an instruction (00/R8). -/
def Group.active (g : Group) (f : Form) : BitVec 32 :=
  match f.pred with
  | none => g.em
  | some p => g.em &&& (if p.neg then ~~~g.pred p.pn.toNat else g.pred p.pn.toNat)

/-- A trap of the instruction, detected at the core (08/R418). `tlm` holds the active lanes (08/R128). -/
def trapOf (i : Instr) (g : Group) (kind : Nat) (tval : Word) : Trap :=
  { kind, tval, tlm := g.active i.form, place := 4, op := i.opcode, nxs := false }

/-- Illegal instruction: `tval` is the first word (04/R68). -/
def illegal (i : Instr) (g : Group) : Halt := .trap (trapOf i g 6 (BitVec.ofNat 64 i.firstWord))

def misaligned (i : Instr) (g : Group) (x : Word) : Halt := .trap (trapOf i g 7 x)

/-- Unrecoverable translation by an address check at issue: WHERE 4 (08/R418). -/
def badAddress (i : Instr) (g : Group) (x : Word) : Halt := .trap (trapOf i g 19 x)

/-- A place fault (03/R43): cause and specifier. -/
def placeFault (i : Instr) (g : Group) (cause spec : Nat) : Halt :=
  .trap (trapOf i g 10 (BitVec.ofNat 64 (cause * 256 + spec)))

/-- The `vN` that a field names, with those named implicitly after it (02/R31, 04/R66). -/
def vectorsOf (k : Kind) (x : BitVec 8) (span : Nat) : List Nat :=
  if k.names then (match Spec.of x with
    | .vec n => (List.range span).map (n + ·)
    | _ => [])
  else []

/-- Every `vN` an instruction names, in the order D, A, B, C (02/R31). -/
def namedVectors (info : Info) (f : Form) : List Nat :=
  vectorsOf info.d f.d (info.dspan f) ++ vectorsOf info.a f.a (info.sspan f) ++ vectorsOf info.b f.b (info.sspan f)
    ++ vectorsOf info.c f.cSpec (info.sspan f)

/-- Place by its code (03/R35). -/
def placeOf (code : Nat) : Place :=
  match code with
  | 1 => .sp | 2 => .nb | 3 => .pe | _ => .ln

/-- Where an instruction executes (03/R39): at its vector destination's place; none is the core. -/
def execPlace (info : Info) (g : Group) (f : Form) : Option Place :=
  if info.d.isDest then (match Spec.of f.d with
    | .vec n => some (placeOf (mapPlace (g.entry n)))
    | .opf _ => some .ln
    | _ => none)
  else none

/-- WHERE of a trap of kinds 1 to 5 (08/R418). -/
def whereCode (info : Info) (g : Group) (f : Form) : Nat :=
  match execPlace info g f with
  | some p => p.code
  | none => 4

/-- The first register of a destination range that lies at another place than the first (04/R66, 15/R242), or that
belongs to a queue where the instruction takes none. -/
def splitRange (g : Group) (noQueue : Bool) : List Nat → Option Nat
  | n :: rest => (n :: rest).find? fun m => mapPlace (g.entry m) != mapPlace (g.entry n)
      || (noQueue && (mapQKind (g.entry m) != 0 || (g.localHead m).isSome))
  | [] => none

/-- The second register of the first FP64 pair whose registers lie at different places (04/R66). -/
def splitPairs (g : Group) : List Nat → Option Nat
  | n :: m :: rest => if mapPlace (g.entry m) != mapPlace (g.entry n) then some m else splitPairs g rest
  | _ => none

/-- Illegal-at-place (03/R42, 04/R66): the specifier reported; of several split pairs that of the destination first, then A, B, C
(log 69). -/
def badPlace (info : Info) (g : Group) (f : Form) : Option Nat :=
  let pairs (k : Kind) (x : BitVec 8) (span : Nat) : Option Nat := if info.spair f then splitPairs g (vectorsOf k x span) else none
  let n := info.sspan f
  let sources := (if info.d.isDest then none else pairs info.d f.d (info.dspan f)).or <|
    (pairs info.a f.a n).or ((pairs info.b f.b n).or (pairs info.c f.cSpec n))
  match execPlace info g f with
  | some p =>
    if !info.places f g.fm p then some f.d.toNat
    else (splitRange g info.noQueue (vectorsOf info.d f.d (info.dspan f))).or sources
  | none => sources

/-- The place-fault cause of one named register (03/R43 causes 7 and 9). -/
def queueCause (g : Group) (reads writes : Bool) (n : Nat) : Option Nat :=
  let e := g.entry n
  match g.localHead n with
  | some h => if h = n then none else some 9
  | none =>
    if mapQKind e = 2 && reads then some 7
    else if mapQKind e = 3 && writes then some 7
    else none

def fieldCause (g : Group) (k : Kind) (reads : Bool) (x : BitVec 8) (span : Nat) : Option (Nat × Nat) :=
  (vectorsOf k x span).findSome? fun n => (queueCause g reads k.isDest n).map fun c => (c, n)

/-- The place fault of an instruction's registers (03/R43, R48). -/
def queueFault (info : Info) (g : Group) (f : Form) : Option (Nat × Nat) :=
  (fieldCause g info.d (info.d.isSource || info.readsD) f.d (info.dspan f)).or
    ((fieldCause g info.a info.a.isSource f.a (info.sspan f)).or
      ((fieldCause g info.b info.b.isSource f.b (info.sspan f)).or
        (fieldCause g info.c info.c.isSource f.cSpec (info.sspan f))))

/-- What a partition in reduced service rejects (28/R414; log 61): vector arithmetic and conversions in floating-point formats, dot
products, matrix steps, drains and differences, near-bank arithmetic, of an effective type other than BF16 or FP32. -/
def reducedRejects (info : Info) (f : Form) : Bool :=
  ((0x50 ≤ info.op && info.op ≤ 0x61 && info.op != 0x5D) || info.op == 0x90 || info.op == 0x91 || info.op == 0x93 || info.op == 0x94
      || info.op == 0xE1 || info.op == 0xE2)
    && !(let t := f.type info.base; t == .bf16 || t == .f32)

/-- Instructions that access memory, scratchpad or banks, a drain into memory, `lnch` and one with a register in the scratchpad among them,
fences and barriers: what an acquire holds back (17/R270, 18/R273, 19/R306). A `bidf` waits for it as one to install its formula. -/
def isAccess (info : Info) (f : Form) (g : Group) : Bool :=
  (info.op == 0x93 && info.fn == 1) || (0xA0 ≤ info.op && info.op ≤ 0xA2) || (0xB0 ≤ info.op && info.op ≤ 0xBA && info.op != 0xB5)
    || (0xE0 ≤ info.op && info.op ≤ 0xE3) || info.op == 0xD0 || (info.op == 0x80 && f.plc == 1)
    || (namedVectors info f).any fun n => mapPlace (g.entry n) == 1

/-- The issue checks shared by every instruction, in the rank of 08/R130; `bad` says that a value the instruction reads
(a register's, or a field of `fm`) makes it illegal. An access waits for an outstanding `lds` that is an acquire (19/R306). -/
def issueCheck (i : Instr) (info : Info) (f : Form) (bad : Bool) (s : State) : Except Halt Unit :=
  let g := s.me
  if !g.win.isEmpty then .error (.wait .window)
  else if !i.wellFormed then .error (illegal i g)
  else if info.steward && !s.myTeam.steward then .error (illegal i g)
  else if (s.part s.myPart).service == 1 && reducedRejects info f then .error (illegal i g)
  else if !info.roles.permits g.role then .error (.trap (trapOf i g 11 (BitVec.ofNat 64 info.op)))
  else match (namedVectors info f).find? fun n => !g.holds (n / 8) with
    | some n => .error (.trap (trapOf i g 8 (BitVec.ofNat 64 n)))
    | none => match badPlace info g f with
      | some x => .error (.trap (trapOf i g 9 (BitVec.ofNat 64 x)))
      | none => if bad then .error (illegal i g) else match (if info.op == 0x80 then none else queueFault info g f) with
        | some (c, n) => .error (placeFault i g c n)
        | none => if isAccess info f g && g.splits.any (·.acq) then .error (.wait .answer) else .ok ()

/-- The misaligned literal target of a jump or call (04/R62); `trap` does not check its own (10/R159). -/
def badTarget (i : Instr) (g : Group) : Option Word :=
  let f := i.form
  match f.nx with
  | .jump off | .call off =>
    let t := addrAdd g.pc off
    if t.toNat % 4 ≠ 0 && i.opcode != 0xE8 then some (t.zeroExtend 64) else none
  | _ => none

/-- An instruction of a window pushes into the queue with head `vN`, once it commits (03/R49, 08/R127). -/
def WinEntry.pushes (w : WinEntry) (n : Nat) : Bool :=
  match w.ins.row with
  | some (info, f) => info.d.isDest && info.op != 0x80 && w.act != 0 && Spec.of f.d == .vec n
  | none => false

/-- Kinds that rank above misaligned at issue (08/R130). -/
def outranksMisaligned (kind : Nat) : Bool := kind == 6 || (8 ≤ kind && kind ≤ 11)

/-- The report of a parked access names it as its trap's would, with KIND `0x40` (08/R137, R145). -/
def State.reportPark (s : State) (g : Group) (t : Trap) (va : Word) (entry : Nat) : State :=
  s.addReport (corePart g.core) { s.groupReport g with
    tcause := causeWord { t with kind := 0x40 } 2 true, tepc := g.pc.zeroExtend 64, tval := va, tlm := entry }

/-- A replayable translation fault parks the group (08/R145, R146); for a steward group it is unrecoverable (21/R326). `t` is
the unrecoverable trap of the access, `pos` how many uncommitted instructions stand before it, `pc` its own address. The report names the access as
a trap's report would, with KIND `0x40` (R137). -/
def State.park (s : State) (t : Trap) (va : Word) (ins : Option Instr) (pos : Nat := 0) (pc : VAddr := s.me.pc) : State :=
  let g := s.me
  if s.myTeam.steward then s.takeTrap s.meId t
  else
    let used := (s.core g.core).fbuf
    let entry := (List.range 64).find? fun e => (used.get? e).isNone
    let s := match entry with
      | some e => s.modCore g.core fun c => { c with fbuf := c.fbuf.set e (.group s.meId, va) }
      | none => s
    let s := { s with me := { g with
      status := .parked, parked := some { va, entry, trap := t, pos, ins, doomed := false }, wait := none, sched := .pending } }
    (s.fill g.core).reportPark { g with pc } t va (entry.getD 0x40)

/-- The trap of the next-address stage (08/R131); `tlm` holds the lanes that were active for the instruction. -/
def nextTrap (i : Instr) (g : Group) (act : BitVec 32) (e : NextFault) : Trap :=
  let t (kind : Nat) (v : Word) : Trap := { trapOf i g kind v with tlm := act, nxs := true }
  match e with
  | .emptyLoop => t 6 (BitVec.ofNat 64 i.firstWord)
  | .overflow v => t 12 (BitVec.ofNat 64 v)
  | .misaligned x => t 7 (x.zeroExtend 64)

/-- The count of instruction words that the group has issued rises by one (04/R56, 09/R149); `spt` resets it. -/
def Group.counted (g : Group) (i : Instr) : Group := { g with words := if i.opcode = 0xEC then 0 else g.words + 1 }

/-- An instruction has issued, which a trap of it does not undo (09/R149). -/
def State.counted (s : State) : State := { s with me := { s.me with words := s.me.words + 1 } }

/-- What a group keeps of an instruction that has not completed is gone with it. -/
def Group.settled (g : Group) : Group :=
  { g with wait := none, waited := 0, asked := none, fetched := [], xw := none, want := none, yielded := false
           granted := none, raised := none }

/-- An instruction whose effect is done commits and takes its next address (04/R67); `act` are the lanes active for it. -/
def retire (i : Instr) (act : BitVec 32) (s : State) : State :=
  let g := (s.me.counted i).settled
  let s := { s with me := g }
  match g.advance i.form.nx i.form.len.bytes with
  | .ok g' => { s with me := g' }
  | .error e => s.takeTrap s.meId (nextTrap i g act e)

/-- The mark of a wait, with the cycle in which it began. -/
def Group.waitOn (g : Group) (w : Wait) (t : Nat) : Group :=
  if g.wait = some w then g else { g with wait := some w, waited := t }

/-- The outcome of an instruction's effect. A misaligned target is reported before a misaligned operand (log 69). -/
def settle (i : Instr) (s : State) (r : Except Halt State) : Host.Outcome State Fault Refusal :=
  let r := match badTarget i s.me, r with
    | some t, .error (.trap x) => if outranksMisaligned x.kind then r else .error (misaligned i s.me t)
    | some _, .error (.wait .window) => .error (.wait .window)
    | some t, _ => .error (misaligned i s.me t)
    | none, _ => r
  match r with
  | .ok s' => .next (retire i (s.me.active i.form) s')
  | .error (.trap t) => .next (s.counted.takeTrap s.meId t)
  | .error (.fail t s') => .next (s'.counted.takeTrap s.meId t)
  | .error (.wait w) => .next { s with me := s.me.waitOn w s.time }
  | .error (.held w s') => .next { s' with me := s'.me.waitOn w s'.time }
  | .error (.park va s') => .next (s'.park { trapOf i s.me 19 va with place := 7 } va (some i))

/-- One instruction: the checks, the effect, the next address. -/
def runIf (i : Instr) (s : State) (bad : Info → Form → Bool) (effect : Info → Form → Except Halt State) :
    Host.Outcome State Fault Refusal :=
  match i.row with
  | none => .next s
  | some (info, f) =>
    settle i s (match issueCheck i info f (bad info f) s with
      | .error h => .error h
      | .ok _ => effect info f)

/-- One instruction that no operand value makes illegal. -/
def run (i : Instr) (s : State) (effect : Info → Form → Except Halt State) : Host.Outcome State Fault Refusal :=
  runIf i s (fun _ _ => false) effect

end Sys2Proof.Machine
end

