-- ==== Sys2Proof/Machine/Scalars.lean ====
section
/-!
DEFINITION. Scalar operands, predicates and the mask: reads and writes that every family shares.
-/

namespace Sys2Proof.Machine

open Sys2Proof

/-- Scalar register n (02/R15). -/
def Group.sreg (g : Group) (n : Nat) : Word := g.sregs.get n 0

/-- The value of a scalar source (04/R65); 0 for what is no scalar source, which decoding rejects. An immediate is the integer also where
the type of the operation is a float one (log 9). -/
def Group.scalar (g : Group) (x : BitVec 8) : Word :=
  match Spec.of x with
  | .sca n => g.sreg n
  | .gidx => BitVec.ofNat 64 g.index
  | .imm k => BitVec.ofInt 64 k
  | _ => 0

/-- The scalar register that a destination field names; none is no scalar. -/
def scalarDest (x : BitVec 8) : Option Nat :=
  match Spec.of x with
  | .sca n => some n
  | _ => none

/-- A write of `S(D)`. -/
def Group.setScalar (g : Group) (x : BitVec 8) (v : Word) : Group :=
  match scalarDest x with
  | some n => { g with sregs := g.sregs.set n v }
  | none => g

def State.setScalar (s : State) (x : BitVec 8) (v : Word) : State := { s with me := s.me.setScalar x v }

def Group.setPred (g : Group) (n : Nat) (v : BitVec 32) : Group := { g with preds := g.preds.set n v }

def State.setPred (s : State) (n : Nat) (v : BitVec 32) : State := { s with me := s.me.setPred n v }

/-- A write of `em` under the path mask (02/R17). -/
def Group.setMask (g : Group) (v : BitVec 32) : Group := { g with em := v &&& g.pathMask }

/-- The second scalar operand (06/R92). -/
def Group.second (g : Group) (f : Form) : Word := g.scalar f.b + f.imm

/-- The address operand (06/R107). -/
def Group.address (g : Group) (f : Form) : Word := g.scalar f.a + g.scalar f.b + f.imm

/-- Element width in bits of an integer type. -/
def Ty.width : Ty → Nat
  | .i4 | .u4 => 4 | .i8 | .u8 => 8 | .i16 | .u16 => 16 | .i32 | .u32 => 32 | .i64 | .u64 => 64 | _ => 32

def Ty.signed : Ty → Bool
  | .i4 | .i8 | .i16 | .i32 | .i64 => true
  | _ => false

/-- `ext(x, w, s)` of 06/R86: the low w bits, extended to 64. -/
def extend (x : Nat) (w : Nat) (signed : Bool) : Word :=
  if signed then (BitVec.ofNat w x).signExtend 64 else (BitVec.ofNat w x).zeroExtend 64

/-- The signed value of the low w bits. -/
def signedOf (w x : Nat) : Int := (BitVec.ofNat w x).toInt

/-- A comparison by its FN code 0 to 5 (05/R81). -/
def compareCode (fn : Nat) (lt eq : Bool) : Bool :=
  match fn with
  | 0 => eq
  | 1 => !eq
  | 2 => lt
  | 3 => lt || eq
  | 4 => !(lt || eq)
  | _ => !lt

/-- Whether a cc b holds at width w (06/R95, R99). -/
def compareInt (fn w : Nat) (signed : Bool) (a b : Nat) : Bool :=
  if signed then compareCode fn (signedOf w a < signedOf w b) (signedOf w a == signedOf w b)
  else compareCode fn (a % 2 ^ w < b % 2 ^ w) (a % 2 ^ w == b % 2 ^ w)

end Sys2Proof.Machine
end

