-- ==== Sys2Proof/Machine/Float.lean ====
section
/-!
DEFINITION. Number formats, exact arithmetic and one rounding (12/R182-R203). A finite value is a sign, a natural
significand and a power of two; nothing is rounded until `roundTo`.
-/

namespace Sys2Proof.Machine

open Sys2Proof

/-- How a format spells infinities and NaN (12/R187). -/
inductive Specials where
  | ieee | nanOnly | none
deriving DecidableEq, Repr

/-- A floating-point element format (12/R186): exponent bits, fraction bits, bias. -/
structure Fmt where
  ebits : Nat
  mbits : Nat
  bias  : Int
  sp    : Specials
deriving DecidableEq, Repr

def Fmt.width (f : Fmt) : Nat := f.ebits + f.mbits + 1

def fmtF64 : Fmt := { ebits := 11, mbits := 52, bias := 1023, sp := .ieee }
def fmtF32 : Fmt := { ebits := 8, mbits := 23, bias := 127, sp := .ieee }
def fmtBf16 : Fmt := { ebits := 8, mbits := 7, bias := 127, sp := .ieee }
def fmtF16 : Fmt := { ebits := 5, mbits := 10, bias := 15, sp := .ieee }
def fmtE5m2 : Fmt := { ebits := 5, mbits := 2, bias := 15, sp := .ieee }
def fmtE4m3 : Fmt := { ebits := 4, mbits := 3, bias := 7, sp := .nanOnly }
def fmtE3m2 : Fmt := { ebits := 3, mbits := 2, bias := 3, sp := .none }
def fmtE2m3 : Fmt := { ebits := 2, mbits := 3, bias := 1, sp := .none }
def fmtE2m1 : Fmt := { ebits := 2, mbits := 1, bias := 1, sp := .none }

/-- The element format of a type; CB4 elements read as BF16 (12/R193). None for the integer types, `.v` and E8M0. -/
def fmtOf : Ty → Option Fmt
  | .f64 => some fmtF64 | .f32 => some fmtF32 | .bf16 | .cb4 | .bf16x2 => some fmtBf16 | .f16 => some fmtF16
  | .e5m2 | .mxe5m2 => some fmtE5m2 | .e4m3 | .mxe4m3 => some fmtE4m3 | .e3m2 | .mxe3m2 => some fmtE3m2
  | .e2m3 | .mxe2m3 => some fmtE2m3 | .e2m1 | .mxe2m1 => some fmtE2m1
  | _ => none

/-- A value: NaN (signalling or quiet), an infinity, or (-1)^neg · m · 2^e. -/
inductive FpNum where
  | nan (signalling : Bool)
  | inf (neg : Bool)
  | fin (neg : Bool) (m : Nat) (e : Int)
deriving DecidableEq, Repr

/-! ### Flags: the bits of `ff` (12/R185) -/

def flNV : Nat := 1
def flDZ : Nat := 2
def flOF : Nat := 4
def flUF : Nat := 8
def flNX : Nat := 16
def flSATC : Nat := 32

/-- A pattern with the flags its making raised. -/
structure FRes where
  bits  : Nat
  flags : Nat
deriving DecidableEq, Repr

/-! ### Reading -/

/-- The top value of the exponent field. -/
def Fmt.emax (f : Fmt) : Nat := 2 ^ f.ebits - 1

/-- The value of a pattern (12/R186, R187); with `ftz`, a subnormal reads as zero of its sign (12/R199). -/
def Fmt.read (f : Fmt) (ftz : Bool) (x : Nat) : FpNum :=
  let frac := x % 2 ^ f.mbits
  let ex := x / 2 ^ f.mbits % 2 ^ f.ebits
  let neg := x / 2 ^ (f.mbits + f.ebits) % 2 == 1
  if f.sp = .ieee && ex = f.emax then
    if frac = 0 then .inf neg else .nan (frac / 2 ^ (f.mbits - 1) == 0)
  else if f.sp = .nanOnly && ex = f.emax && frac = 2 ^ f.mbits - 1 then .nan false
  else if ex = 0 then
    if ftz then .fin neg 0 0 else .fin neg frac (1 - f.bias - f.mbits)
  else .fin neg (frac + 2 ^ f.mbits) (ex - f.bias - f.mbits)

/-- The value 2^(S - 127) of a scale byte, NaN for `0xFF` (12/R190). -/
def scaleNum (s : Nat) : FpNum := if s = 0xFF then .nan false else .fin false 1 (s - 127)

/-! ### Writing -/

def signBit (f : Fmt) (neg : Bool) : Nat := neg.toNat * 2 ^ (f.mbits + f.ebits)

/-- The canonical quiet NaN (12/R187); 0 in a format without NaN. -/
def Fmt.qnan (f : Fmt) : Nat :=
  match f.sp with
  | .ieee => f.emax * 2 ^ f.mbits + 2 ^ (f.mbits - 1)
  | .nanOnly => 2 ^ (f.mbits + f.ebits) - 1
  | .none => 0

/-- The largest finite magnitude's pattern. -/
def Fmt.maxFin (f : Fmt) : Nat :=
  match f.sp with
  | .ieee => f.emax * 2 ^ f.mbits - 1
  | .nanOnly => 2 ^ (f.mbits + f.ebits) - 2
  | .none => 2 ^ (f.mbits + f.ebits) - 1

/-- The infinity, in a format that has one. -/
def Fmt.infBits (f : Fmt) : Nat := f.emax * 2 ^ f.mbits

/-- Rounding modes by the RND code (12/R197), and a stochastic draw. -/
inductive Mode where
  | rne | rtz | up | down
  | stochastic (u : Nat)
deriving DecidableEq, Repr

/-- floor(log2 (m · 2^e)) for m > 0. -/
def topExp (m : Nat) (e : Int) : Int := e + Nat.log2 m

/-- m · 2^e as a multiple of 2^lsb: the quotient rounded under the mode, and whether it is inexact (12/R197, R198).
For a stochastic draw beyond the largest finite value, the upper neighbour is the next multiple, that of an unbounded exponent
(log 49: the model's choice). -/
def quantize (mode : Mode) (neg : Bool) (m : Nat) (e lsb : Int) : Nat × Bool :=
  if lsb ≤ e then (m * 2 ^ (e - lsb).toNat, false)
  else
    let d := 2 ^ (lsb - e).toNat
    let q := m / d
    let r := m % d
    if r = 0 then (q, false)
    else
      let inc := match mode with
        | .rne => d < 2 * r || (2 * r = d && q % 2 = 1)
        | .rtz => false
        | .up => !neg
        | .down => neg
        | .stochastic u => u < 65536 * r / d
      (if inc then q + 1 else q, true)

/-- The pattern of q · 2^lsb, a value of the format. -/
def Fmt.pattern (f : Fmt) (q : Nat) (lsb : Int) : Nat :=
  if q = 0 then 0
  else
    let e := topExp q lsb
    if e < 1 - f.bias then q * 2 ^ (lsb - (1 - f.bias - f.mbits)).toNat
    else
      let frac := if lsb ≤ e - f.mbits then q / 2 ^ (e - f.mbits - lsb).toNat else q * 2 ^ (lsb - (e - f.mbits)).toNat
      (e + f.bias).toNat * 2 ^ f.mbits + (frac - 2 ^ f.mbits)

/-- What happens beyond the largest finite value (12/R200). -/
inductive Over where
  | arith | convert | saturate
deriving DecidableEq, Repr

/-- An overflow (12/R200). -/
def Fmt.overflow (f : Fmt) (ovf : Over) (mode : Mode) (neg : Bool) : FRes :=
  let s := signBit f neg
  let toward := match mode with
    | .rtz => true | .up => neg | .down => !neg | _ => false
  if f.sp = .none || ovf = .saturate then { bits := s + f.maxFin, flags := flSATC + flNX }
  else if toward then { bits := s + f.maxFin, flags := flOF + flNX }
  else match f.sp with
    | .nanOnly => { bits := f.qnan, flags := flOF + flNX }
    | _ => { bits := s + f.infBits, flags := flOF + flNX }

/-- One rounding of an exact nonzero value to a format (12/R197, R199, R200). -/
def Fmt.roundFin (f : Fmt) (ovf : Over) (mode : Mode) (ftz : Bool) (neg : Bool) (m : Nat) (e : Int) : FRes :=
  let top := topExp m e
  let (t, ti) := quantize mode neg m e (top - f.mbits)
  let s := signBit f neg
  let tTop := topExp t (top - f.mbits)
  let big := f.pattern t (top - f.mbits)
  if f.bias + tTop > f.emax || (1 - f.bias ≤ tTop && f.maxFin < big) then f.overflow ovf mode neg
  else if 1 - f.bias ≤ tTop then { bits := s + big, flags := if ti then flNX else 0 }
  else if ftz then { bits := s, flags := flUF + flNX }
  else
    let lsb := 1 - f.bias - f.mbits
    let (q, qi) := quantize mode neg m e lsb
    { bits := s + f.pattern q lsb, flags := if qi then flUF + flNX else 0 }

/-- A value delivered in a format (12/R197-R200): NaN becomes canonical, with invalid for a signalling one. -/
def Fmt.write (f : Fmt) (ovf : Over) (mode : Mode) (ftz : Bool) (x : FpNum) : FRes :=
  match x with
  | .nan sig => { bits := f.qnan, flags := if sig then flNV else 0 }
  | .inf neg => { bits := signBit f neg + f.infBits, flags := 0 }
  | .fin neg m e => if m = 0 then { bits := signBit f neg, flags := 0 } else f.roundFin ovf mode ftz neg m e

/-! ### Exact arithmetic; the flag is invalid (12/R199) -/

/-- The result of an operation: a value and the flags raised before rounding. -/
structure ExRes where
  num   : FpNum
  flags : Nat
deriving DecidableEq, Repr

def exNum (n : FpNum) : ExRes := { num := n, flags := 0 }
def exInvalid : ExRes := { num := .nan false, flags := flNV }

/-- A NaN among the operands (12/R199 step 2). -/
def FpNum.isNan : FpNum → Bool
  | .nan _ => true
  | _ => false

def FpNum.isSig : FpNum → Bool
  | .nan b => b
  | _ => false

def nanOf (xs : List FpNum) : Option ExRes :=
  if xs.any FpNum.isNan then some { num := .nan false, flags := if xs.any FpNum.isSig then flNV else 0 } else none

/-- A signed significand. -/
def signedMant (neg : Bool) (m : Nat) : Int := if neg then -(m : Int) else m

/-- A finite value from a signed significand; zero takes the sign given (12/R197). -/
def finOf (k : Int) (e : Int) (zeroNeg : Bool) : FpNum :=
  if k = 0 then .fin zeroNeg 0 0 else .fin (k < 0) k.natAbs e

def FpNum.negate : FpNum → FpNum
  | .nan b => .nan b
  | .inf n => .inf (!n)
  | .fin n m e => .fin (!n) m e

/-- x + y exactly. `down` says that the mode is toward -infinity, where an exact zero sum is -0 (12/R197). -/
def numAdd (down : Bool) (x y : FpNum) : ExRes :=
  match nanOf [x, y] with
  | some r => r
  | none =>
    match x, y with
    | .inf a, .inf b => if a = b then exNum x else exInvalid
    | .inf _, _ => exNum x
    | _, .inf _ => exNum y
    | .fin a m e, .fin b n d =>
      if m = 0 && n = 0 then exNum (.fin (if a = b then a else down) 0 0)
      else
        let lo := min e d
        exNum (finOf (signedMant a (m * 2 ^ (e - lo).toNat) + signedMant b (n * 2 ^ (d - lo).toNat)) lo down)
    | _, _ => exInvalid

/-- x × y exactly. -/
def numMul (x y : FpNum) : ExRes :=
  match nanOf [x, y] with
  | some r => r
  | none =>
    match x, y with
    | .inf a, .inf b => exNum (.inf (a != b))
    | .inf a, .fin b n _ => if n = 0 then exInvalid else exNum (.inf (a != b))
    | .fin a m _, .inf b => if m = 0 then exInvalid else exNum (.inf (a != b))
    | .fin a m e, .fin b n d => exNum (.fin (a != b) (m * n) (e + d))
    | _, _ => exInvalid

/-- x × y + z exactly, one NaN or invalid rule for the whole (15/R233). -/
def numFma (down : Bool) (x y z : FpNum) : ExRes :=
  let p := numMul x y
  let r := numAdd down p.num z
  { num := r.num, flags := p.flags ||| r.flags ||| (if z.isSig then flNV else 0) }

/-- Comparison of two finite or infinite values: less, and equal. -/
def numLt (x y : FpNum) : Bool :=
  match x, y with
  | .inf a, .inf b => a && !b
  | .inf a, .fin _ _ _ => a
  | .fin _ _ _, .inf b => !b
  | .fin a m e, .fin b n d =>
    let lo := min e d
    signedMant a (m * 2 ^ (e - lo).toNat) < signedMant b (n * 2 ^ (d - lo).toNat)
  | _, _ => false

def numEq (x y : FpNum) : Bool := !x.isNan && !y.isNan && !numLt x y && !numLt y x

/-- An operation's exact result delivered in a format: the flags of both. -/
def ExRes.deliver (r : ExRes) (f : Fmt) (mode : Mode) (ftz : Bool) : FRes :=
  let w := f.write .arith mode ftz r.num
  { bits := w.bits, flags := r.flags ||| w.flags }

/-! ### Selection (15/R234) -/

/-- The sign of a value. -/
def FpNum.neg : FpNum → Bool
  | .inf n => n
  | .fin n _ _ => n
  | .nan _ => false

/-- x below y, with -0 below +0 (15/R234). -/
def numBelow (x y : FpNum) : Bool := numLt x y || (numEq x y && x.neg && !y.neg)

/-- The selection of 15/R234. -/
def numSelect (least : Bool) (x y : FpNum) : ExRes :=
  let nv := if x.isSig || y.isSig then flNV else 0
  if x.isNan && y.isNan then { num := .nan false, flags := nv }
  else if x.isNan then { num := y, flags := nv }
  else if y.isNan then { num := x, flags := nv }
  else { num := if (if least then numBelow y x else numBelow x y) then y else x, flags := 0 }

/-- A chosen operand in its own format: no rounding (15/R234). -/
def ExRes.keep (r : ExRes) (fm : Fmt) : FRes := { bits := (fm.write .arith .rne false r.num).bits, flags := r.flags }

/-! ### Integers -/

/-- An integer as a value. -/
def intNum (k : Int) : FpNum := finOf k 0 false

/-- A value rounded to an integer under the mode: the integer and whether it is inexact. -/
def roundInt (mode : Mode) (neg : Bool) (m : Nat) (e : Int) : Int × Bool :=
  let (q, i) := quantize mode neg m e 0
  (signedMant neg q, i)

/-- A conversion into an integer type of width w (12/R201): NaN gives 0 and invalid, out of range the nearest bound. -/
def toInteger (mode : Mode) (w : Nat) (signed : Bool) (x : FpNum) : FRes :=
  let lo : Int := if signed then -(2 ^ (w - 1) : Nat) else 0
  let hi : Int := if signed then (2 ^ (w - 1) : Nat) - 1 else (2 ^ w : Nat) - 1
  let pat (k : Int) : Nat := (BitVec.ofInt w k).toNat
  match x with
  | .nan _ => { bits := 0, flags := flNV }
  | .inf neg => { bits := pat (if neg then lo else hi), flags := flNV }
  | .fin neg m e =>
    let (k, i) := roundInt mode neg m e
    if k < lo then { bits := pat lo, flags := flNV }
    else if hi < k then { bits := pat hi, flags := flNV }
    else { bits := pat k, flags := if i then flNX else 0 }

/-! ### The format register (12/R182) -/

def fmRnd (fm : BitVec 32) : Nat := fm.toNat / 2 ^ 5 % 8
def fmFtz (fm : BitVec 32) : Bool := fm.getLsbD 10
def fmSat (fm : BitVec 32) : Bool := fm.getLsbD 11
def fmCbs (fm : BitVec 32) : Nat := fm.toNat / 2 ^ 12 % 4
def fmAfmt (fm : BitVec 32) : Nat := fm.toNat / 2 ^ 14 % 8
def fmBfmt (fm : BitVec 32) : Nat := fm.toNat / 2 ^ 17 % 8
def fmTraps (fm : BitVec 32) : Nat := fm.toNat % 32

/-- The mode of arithmetic: stochastic counts as RNE (12/R197). None for a reserved code. -/
def arithMode (fm : BitVec 32) : Option Mode :=
  match fmRnd fm with
  | 0 | 4 => some .rne
  | 1 => some .rtz
  | 2 => some .up
  | 3 => some .down
  | _ => none

/-! ### The stochastic generator (12/R198) -/

/-- One step of xorshift32: the new state. -/
def srStep (x : Nat) : Nat :=
  let x := if x = 0 then 0x9E37_79B9 else x
  let x := x ^^^ (x * 2 ^ 13 % 2 ^ 32)
  let x := x ^^^ (x / 2 ^ 17)
  x ^^^ (x * 2 ^ 5 % 2 ^ 32)

/-- The draw of a state. -/
def srDraw (x : Nat) : Nat := x / 2 ^ 16

/-- The state `vseed` gives lane l. -/
def srSeed (v l : Nat) : Nat := (v % 2 ^ 32) ^^^ (0x9E37_79B9 * (l + 1) % 2 ^ 32)

/-! ### Codebooks (12/R193, R194) -/

/-- The BF16 pattern of a small integer. -/
def bf16OfInt (k : Int) : Nat := (fmtBf16.write .arith .rne false (intNum k)).bits

/-- Entry i of the table that CBS selects, as BF16 (12/R193). -/
def Group.cbEntry (g : Group) (i : Nat) : Nat :=
  match fmCbs g.fm with
  | 0 => (g.cb.get i 0).toNat
  | 1 => (fmtBf16.write .arith .rne false (fmtE2m1.read false i)).bits
  | _ => bf16OfInt (if i < 8 then i else (i : Int) - 16)

/-- The entry nearest to a value, and the flags (12/R194). -/
def cbNearest (table : List FpNum) (x : FpNum) : FRes :=
  let idx := table.zipIdx
  let finite := idx.filter fun p => match p.1 with | .fin _ _ _ => true | _ => false
  let lowest (p : FpNum → Bool) : Option Nat := (idx.find? fun q => p q.1).map (·.2)
  let invalid : FRes := { bits := 0, flags := flNV }
  match x with
  | .nan _ => invalid
  | .inf neg =>
    match lowest fun n => n == .inf neg with
    | some i => { bits := i, flags := 0 }
    | none => match finite with
      | [] => invalid
      | p :: ps =>
        let best := ps.foldl (fun b q => if (if neg then numLt q.1 b.1 else numLt b.1 q.1) then q else b) p
        { bits := best.2, flags := flNX }
  | .fin neg _ _ =>
    let dist (n : FpNum) : FpNum := match (numAdd false n x.negate).num with
      | .fin _ m e => .fin false m e
      | y => y
    match finite with
    | [] => match lowest fun n => n == .inf neg with
      | some i => { bits := i, flags := flOF + flNX }
      | none => invalid
    | p :: ps =>
      let best := ps.foldl (fun b q => if numLt (dist q.1) (dist b.1) then q else b) p
      { bits := best.2, flags := if numEq best.1 x then 0 else flNX }

end Sys2Proof.Machine
end

