-- ==== Sys2Proof/Machine/Banks.lean ====
section
/-!
DEFINITION. The DRAM layer: the windows of a module-local address (26/R374, R375), column errors and the two logs
(26/R387-R393), the share table (28/R412), and the application of one operation at its home (17/R265-R269, 19/R308-R313).
-/

namespace Sys2Proof.Machine

open Sys2Proof

/-! ### Local addresses -/

def partWindow : Nat := 2 ^ 34
def directBase : Nat := 3 * 2 ^ 32
def bankBytes : Nat := 192 * 2 ^ 20
/-- 768 GiB: from here the PCI Express windows (26/R374). -/
def hostBase : Nat := 768 * 2 ^ 30
def localTop : Nat := 2 ^ 40

/-- The live banks of a partition in ascending order (26/R385). -/
def Partition.live (p : Partition) : List Nat := (List.range 64).filter fun b => p.bankmap.getLsbD b

/-- The size of the interleaved window: L · (192 MiB - S) (26/R374). -/
def Partition.interSize (p : Partition) : Nat := p.live.length * (bankBytes - p.spool)

/-- What a local address falls in (26/R374). -/
inductive LaKind where
  | inter (p b : Nat)
  | direct (p b : Nat)
  | host
  | unused
deriving DecidableEq, Repr

def State.laKind (s : State) (la : Nat) : LaKind :=
  if localTop ≤ la then .unused
  else if hostBase ≤ la then .host
  else
    let p := la / partWindow
    let off := la % partWindow
    let x := s.part p
    if off < x.interSize then .inter p (x.live.getD (off / 256 % x.live.length) 0)
    else if directBase ≤ off && (off - directBase) % 2 ^ 26 < x.spool then .direct p ((off - directBase) / 2 ^ 26)
    else .unused

/-- The partition and the bank of a byte of DRAM (26/R375). -/
def State.bankAt (s : State) (la : Nat) : Option (Nat × Nat) :=
  match s.laKind la with
  | .inter p b | .direct p b => some (p, b)
  | _ => none

/-- Under a page exchange a granule already forwarded is served at the new location (26/R384). -/
def State.located (s : State) (la : Nat) : Nat :=
  match (s.part (la / partWindow)).exch with
  | some e => if e.old ≤ la && la < e.old + 64 * e.done then la - e.old + e.new else la
  | none => la

/-- The address whose byte an exchange serves at a: the inverse of `located`. -/
def State.unlocated (s : State) (a : Nat) : Nat :=
  match (s.part (a / partWindow)).exch with
  | some e => if e.new ≤ a && a < e.new + 64 * e.done then a - e.new + e.old else a
  | none => a

/-! ### Access from a partition (28/R412, R414) -/

/-- An entry covers a range of bytes of its owner's windows. -/
def Share.covers (e : Share) (la n : Nat) : Bool :=
  e.base ≤ la && la + n ≤ e.base + e.size && la / partWindow == e.owner

/-- The share table lets a partition of this module reach a range of bytes. -/
def State.sharesPart (s : State) (p la n : Nat) : Bool :=
  s.shares.any fun e => e.2.covers la n && e.2.parts.getLsbD p

def State.sharesModule (s : State) (m la n : Nat) : Bool :=
  s.shares.any fun e => e.2.covers la n && e.2.modLo ≤ m && m ≤ e.2.modHi

/-- A partition reaches its own windows, and what the share table names. -/
def State.reaches (s : State) (p la n : Nat) : Bool := la / partWindow == p || s.sharesPart p la n

/-- The terrace that homes a local address. -/
def laTerrace (la : Nat) : Nat := la / partWindow / 4

/-! ### Logs (26/R391-R393) -/

/-- Who made an access, as a log entry names it (26/R393); `own` marks one of the group of the turn, which finds what that group holds
in its combining buffer (18/R279). -/
structure Who where
  va     : Word
  source : Nat
  team   : Nat := 0xFFFF_FFFF
  group  : Nat := 0
  slot   : Nat := 0
  launch : Nat := 0
  own    : Bool := false
deriving DecidableEq, Repr

/-- A group as the maker of an access. -/
def State.who (s : State) (g : Group) (va : Word) (source : Nat) : Who :=
  let t := s.team g.team
  { va, source, team := t.index, group := g.index, slot := t.slot, launch := t.launch }

/-- The bytes of an array-log entry. -/
def arrayEntry (time la ekind bank syms : Nat) (w : Who) : List Byte :=
  bytesOf time 8 ++ bytesOf la 8 ++ bytesOf w.va.toNat 8
    ++ ([ekind, bank, syms, w.source].map fun x => BitVec.ofNat 8 x) ++ bytesOf w.team 4
    ++ [BitVec.ofNat 8 w.group, BitVec.ofNat 8 w.slot] ++ List.replicate 30 0

/-- An entry of the array log, and its report where R391 asks for one. -/
def State.logArray (s : State) (p la ekind bank syms : Nat) (w : Who) : State :=
  let n := (s.part p).acount
  let s := s.modPart p fun x =>
    { x with acount := n + 1, alog := x.alog.set (n % 255) (arrayEntry s.time la ekind bank syms w) }
  if 2 ≤ ekind then
    let named := w.team != 0xFFFF_FFFF
    s.notify p 0x4B (BitVec.ofNat 64 n)
      { team := if named then w.team else 0, group := w.group, launch := w.launch }
  else s

/-- The bytes of a transfer-log entry. -/
def transferEntry (time bus grp retries outcome line spare left la : Nat) (w : Who) : List Byte :=
  bytesOf time 8 ++ ([bus, grp, retries, outcome].map fun x => BitVec.ofNat 8 x) ++ bytesOf line 2
    ++ [BitVec.ofNat 8 spare, BitVec.ofNat 8 left] ++ bytesOf la 8 ++ bytesOf w.team 4 ++ [BitVec.ofNat 8 w.group]
    ++ List.replicate 35 0

/-- An entry of the transfer log for a beat; a swap and a failure are reported (26/R391). -/
def State.logTransfer (s : State) (p bus outcome : Nat) (b : Beat) (w : Who) : State :=
  let n := (s.part p).tcount
  let left := ((s.part p).buses.get bus {}).spares
  let s := s.modPart p fun x => { x with
    tcount := n + 1
    tlog := x.tlog.set (n % 255) (transferEntry s.time bus b.group b.retries outcome b.line b.spare left (64 * b.col) w) }
  if outcome = 0 then s
  else
    let named := w.team != 0xFFFF_FFFF
    s.notify p 0x4B (BitVec.ofNat 64 n)
      { team := if named then w.team else 0, group := w.group, tlm := 1, launch := w.launch }

/-- 1 ms in cycles of 1.1 GHz. -/
def msCycles : Nat := 1_100_000

/-- A corrected column (26/R387, R392): written back, counted, and logged when it needed more than one symbol or is the
first of its bank within 1 ms. -/
def State.correct (s : State) (p b col syms : Nat) (w : Who) : State :=
  let bank := s.bank p b
  let log := 1 < syms || (match bank.lastCorr with | none => true | some t => t + msCycles ≤ s.time)
  let s := { s with damaged := s.damaged.erase col }
  let s := s.modPart p fun x =>
    { x with banks := x.banks.set b { bank with corrected := bank.corrected + 1, lastCorr := some s.time } }
  if log then s.logArray p (64 * col) 1 b syms w else s

/-! ### Reading and writing DRAM through the column code (26/R387, R388) -/

/-- A beat of the column's bus that failed for good (26/R389) meets the access: it is logged, and the access fails. A near-bank
access crosses no bus (R381). -/
def State.meetBeat (s : State) (la : Nat) (w : Who) : Option State :=
  match if w.source = 2 then none else s.bankAt la with
  | none => none
  | some (p, b) =>
    let bus := (s.part p).buses.get (b / 16) {}
    match bus.failed.find? fun e => e.col == la / 64 with
    | none => none
    | some e =>
      let s := s.logTransfer p (b / 16) 2 e w
      some (s.modPart p fun x => { x with buses := x.buses.set (b / 16) { bus with failed := bus.failed.erase e } })

/-- The state of one column for a read: true where it can be read. -/
def State.readColumn (s : State) (la : Nat) (w : Who) : Bool × State :=
  let col := la / 64
  match s.meetBeat la w with
  | some s => (false, s)
  | none => match s.damaged.get? col, s.bankAt la with
  | some syms, some (p, b) =>
    if syms ≤ 3 then (true, s.correct p b col syms w) else (false, s.logArray p (64 * col) 2 b syms w)
  | _, _ => (true, s)

/-! ### Fields of a leaf (26/R376) -/

def leafModule (e : Word) : Nat := e.toNat / 2 ^ 44
def leafAddr (e : Word) : Nat := e.toNat / 2 ^ 16 % 2 ^ 24 * 2 ^ 16
def leafPin (e : Word) : Bool := e.getLsbD 9
def leafC (e : Word) : Bool := e.getLsbD 8
def leafZ (e : Word) : Bool := e.getLsbD 7
def leafMt (e : Word) : Nat := e.toNat / 2 ^ 5 % 4
def leafX (e : Word) : Bool := e.getLsbD 4
def leafW (e : Word) : Bool := e.getLsbD 3
def leafPend (e : Word) : Bool := e.getLsbD 2

def pageSize (large : Bool) : Nat := if large then 2 ^ 21 else 2 ^ 16

/-- The half and the slot that a stripe address names (26/R380): slot x of bank 32h. -/
def stripeSlot (spool la : Nat) : Option (Nat × Nat) :=
  let off := la % partWindow
  let b := (off - directBase) / 2 ^ 26
  let x := (off - directBase) % 2 ^ 26
  if directBase ≤ off && b % 32 = 0 && x % 2 ^ 16 = 0 && x < spool then some (b / 32, x / 2 ^ 16) else none

/-- A page of a leaf lies in DRAM of this module from its first byte to its last. -/
def State.pageInDram (s : State) (l : Leaf) (la : Nat) : Bool :=
  (s.bankAt la).isSome && (leafC l.entry || (s.bankAt (la + pageSize l.large - 1)).isSome)

/-- A leaf is well formed (26/R377). The address of another module's page is checked against the PCI Express windows only:
that module's windows are its own. -/
def State.leafOk (s : State) (l : Leaf) : Bool :=
  let e := l.entry
  let la := leafAddr e
  let own := leafModule e == s.module
  let inDram := if own then s.pageInDram l la else la < hostBase
  e.toNat / 2 ^ 40 % 16 == 0 && e.toNat / 2 ^ 10 % 64 == 0
    && (!l.large || leafC e || la % 2 ^ 21 == 0)
    && (if leafMt e ≤ 1 then inDram else own && s.laKind la == .host && !leafZ e)
    && (!leafC e || (l.large && leafPin e && leafMt e == 0 && !leafZ e && own
        && (stripeSlot (s.part (la / partWindow)).spool la).isSome))

/-- The local address of a byte of a page; a compute-capable page takes slot x in 32 banks (26/R380). -/
def leafByte (l : Leaf) (va : Nat) : Nat :=
  let off := va - l.base
  if leafC l.entry then leafAddr l.entry + off / 2 ^ 16 * 2 ^ 26 + off % 2 ^ 16 else leafAddr l.entry + off

/-! ### The leaves of a tree (26/R376) -/

/-- The entries of a table of n entries that are not 0, by index. -/
def State.entriesOf (s : State) (table n : Nat) : List (Nat × Nat) :=
  let near := (s.mem.filter fun c => table ≤ s.unlocated c.1 && s.unlocated c.1 < table + 8 * n).map
    fun c => (s.unlocated c.1 - table) / 8
  near.eraseDups.map fun k => (k, Memory.num s.mem (s.located (table + 8 * k)) 8)

/-- The table of 2^m entries that an entry names. -/
def tableOf (m e : Nat) : Option Nat :=
  let next := e % 2 ^ 40 / 2 ^ 8 * 2 ^ 8
  if e % 4 = 3 && e / 2 ^ 40 = 0 && e / 4 % 64 = 0 && next % (8 * 2 ^ m) = 0 then some next else none

/-- The entries that are no tables, with the first address that each covers, of a table whose first entry covers `base`; each entry
covers 2^lo bytes. -/
def leavesAt (base lo : Nat) (es : List (Nat × Nat)) : List Leaf :=
  es.filterMap fun e =>
    if e.2 % 4 = 1 then some { base := base + e.1 * 2 ^ lo, large := lo == 21, entry := BitVec.ofNat 64 e.2 } else none

/-- The tables that the entries of a table name, with the first address that each covers. -/
def tablesAt (base lo m : Nat) (es : List (Nat × Nat)) : List (Nat × Nat) :=
  es.filterMap fun e => (tableOf m e.2).map fun t => (base + e.1 * 2 ^ lo, t)

/-- The leaves of both sizes that a partition's tree holds. -/
def State.treeLeaves (s : State) (p : Nat) : List Leaf :=
  (tablesAt 0 39 9 (s.entriesOf (s.part p).root 8192)).flatMap fun t1 =>
    (tablesAt t1.1 30 9 (s.entriesOf t1.2 512)).flatMap fun t2 =>
      let es := s.entriesOf t2.2 512
      leavesAt t2.1 21 es ++ (tablesAt t2.1 21 5 es).flatMap fun t3 => leavesAt t3.1 16 (s.entriesOf t3.2 32)

/-! ### Bandwidth-only compression (26/R379): `mem` holds every byte, and the size code of a block says which columns hold it -/

/-- The size code under which the block of a physical address is stored. -/
def State.codeAt (s : State) (a : Nat) : Nat := s.codes.get (a / 256) 0

/-- Where a block's storage holds the byte at an address: quarters that are equal are stored once. -/
def storedAt (code a : Nat) : Nat :=
  let q := a / 64 % 4
  a / 256 * 256 + 64 * (if 2 ≤ code then 0 else if code = 1 then q % 2 else q) + a % 64

/-- The code of the block of an address as an exchange places it. -/
def State.codeOf (s : State) (a : Nat) : Nat := s.codeAt (s.located (a / 256 * 256))

/-- The column that holds the byte at an address. -/
def State.columnOf (s : State) (a : Nat) : Nat := s.located (storedAt (s.codeOf a) a) / 64

/-- The columns that a read of some bytes accesses, each once: none of a block of zeros, whose code the slice knows (log 64). -/
def State.columnsOf (s : State) (as : List Nat) : List Nat :=
  ((as.filter fun a => s.codeOf a != 3).map s.columnOf).eraseDups

/-- Columns read in order, up to the first that cannot be. -/
def State.meetColumns (w : Who) : List Nat → State → Option Nat × State
  | [], s => (none, s)
  | c :: cs, s => match s.readColumn (64 * c) w with
    | (false, s) => (some c, s)
    | (true, s) => State.meetColumns w cs s

/-- Bytes at offsets from a local address, in order; where a column cannot be corrected, the offset of the first damaged
byte. -/
def State.readOffs (s : State) (la : Nat) (w : Who) (offs : List Nat) : Except (Nat × State) (List Byte × State) :=
  match State.meetColumns w (s.columnsOf (offs.map (la + ·))) s with
  | (none, s) => .ok (offs.map fun o => Memory.read s.mem (s.located (la + o)), s)
  | (some c, s) => .error ((offs.find? fun o => s.columnOf (la + o) == c).getD 0, s)

/-- One column of a write: the bytes by offset within the column. Damage of more than three symbols keeps a partial write
out. -/
def State.writeColumn (s : State) (col : Nat) (bytes : List (Nat × Byte)) (w : Who) : State :=
  let put (s : State) : State := { s with mem := bytes.foldl (fun m b => Memory.write m (64 * col + b.1) b.2) s.mem }
  match s.meetBeat (64 * col) w with
  | some s => s
  | none => match s.damaged.get? col, s.bankAt (64 * col) with
  | some syms, some (p, b) =>
    if bytes.length = 64 then put { s with damaged := s.damaged.erase col }
    else if syms ≤ 3 then put (s.correct p b col syms w)
    else s.logArray p (64 * col) 4 b syms w
  | _, _ => put s

/-- Bytes written by physical address, column by column. -/
def State.writeRaw (s : State) (w : Who) (cells : List (Nat × Byte)) : State :=
  let cols := (cells.map fun c => c.1 / 64).eraseDups
  cols.foldl (fun s col =>
    s.writeColumn col (cells.filterMap fun c => if c.1 / 64 = col then some (c.1 % 64, c.2) else none) w) s

/-- The pages of this module's DRAM for which some partition's tree has a leaf with Z = 1: first address and size (log 64). -/
def State.zPages (s : State) : List (Nat × Nat) :=
  s.parts.keys.flatMap fun p => (s.treeLeaves p).filterMap fun l =>
    let e := l.entry
    if leafZ e && !leafPend e && leafMt e ≤ 1 && leafModule e == s.module && s.leafOk l then some (leafAddr e, pageSize l.large) else none

/-- An address lies in one of some pages. -/
def inPages (zs : List (Nat × Nat)) (a : Nat) : Bool := zs.any fun z => z.1 ≤ a && a < z.1 + z.2

/-- A write into the block of an address is coded: its page has Z = 1, or the block is stored under a code. -/
def State.coded (s : State) (zs : List (Nat × Nat)) (a : Nat) : Bool := inPages zs a || s.codeOf a != 0

/-- The size code of a block's 256 bytes, tried from 11 down. -/
def codeFor (bs : List Byte) : Nat :=
  let q (k : Nat) : List Byte := (bs.drop (64 * k)).take 64
  if bs.all (· == 0) then 3
  else if q 0 == q 1 && q 1 == q 2 && q 2 == q 3 then 2
  else if q 0 == q 2 && q 1 == q 3 then 1
  else 0

/-- Columns read to merge a write into their block; none where one cannot be read, and the write is not applied (26/R388). -/
def State.mergeColumns (w : Who) : List Nat → State → Option State × State
  | [], s => (some s, s)
  | c :: cs, s => match s.meetBeat (64 * c) w, s.damaged.get? c, s.bankAt (64 * c) with
    | some s, _, _ => (none, s)
    | none, some syms, some (p, b) =>
      if syms ≤ 3 then State.mergeColumns w cs (s.correct p b c syms w) else (none, s.logArray p (64 * c) 4 b syms w)
    | _, _, _ => State.mergeColumns w cs s

/-- A write into a coded block: merged with the rest of it, coded again where its page has Z = 1 (`z`), and stored in whole columns, the
first of which holds the code. A beat of one of them that fails keeps the write out (26/R388). -/
def State.writeCoded (s : State) (z : Bool) (k : Nat) (cells : List (Nat × Byte)) (w : Who) : State :=
  let all := (List.range 256).map (256 * k + ·)
  let whole := all.all fun a => cells.any (·.1 == a)
  match State.mergeColumns w (if whole then [] else s.columnsOf all) s with
  | (none, s) => s
  | (some s, _) =>
    let mem := cells.foldl (fun m c => Memory.write m (s.located c.1) c.2) s.mem
    let code := if z then codeFor (all.map fun a => Memory.read mem (s.located a)) else 0
    let b := s.located (256 * k) / 256
    let t : State := { s with mem, codes := if code = 0 then s.codes.erase b else s.codes.set b code }
    let cols := s.located (256 * k) / 64 :: t.columnsOf all
    match cols.findSome? fun c => s.meetBeat (64 * c) w with
    | some s => s
    | none => { t with damaged := cols.foldl (fun m c => m.erase c) t.damaged }

/-- A write of runs of bytes, block by block. -/
def State.writeRuns (s : State) (la : Nat) (w : Who) (runs : List (Nat × List Byte)) : State :=
  let cells := runs.flatMap fun r => r.2.zipIdx.map fun b => (la + r.1 + b.2, b.1)
  let zs := s.zPages
  let (coded, raw) := cells.partition fun c => s.coded zs c.1
  let s := s.writeRaw w (raw.map fun c => (s.located c.1, c.2))
  ((coded.map fun c => c.1 / 256).eraseDups).foldl (fun s k =>
    s.writeCoded (inPages zs (256 * k)) k (coded.filter fun c => c.1 / 256 == k) w) s

/-! ### Banks that cannot be reached (26/R383, R389) -/

/-- A bank is refreshing or blocked. -/
def State.bankBlocked (s : State) (p b : Nat) : Bool := s.time < (s.bank p b).busy

/-- A bus sends a beat again, or has stopped for a test of its lines (26/R389). -/
def Bus.held (b : Bus) : Bool := b.resend.isSome || b.testing.isSome

/-- The bank that serves a byte is refreshing or blocked, or its bus is held. -/
def State.bankBusy (s : State) (la : Nat) : Bool :=
  match s.bankAt (s.located la) with
  | some (p, b) => s.bankBlocked p b || ((s.part p).buses.get (b / 16) {}).held
  | none => false

/-- Some granule of a range of DRAM cannot be reached. -/
def State.busyBytes (s : State) (la n : Nat) : Bool :=
  n != 0 && (List.range ((la % 64 + n + 63) / 64)).any fun j => s.bankBusy (la / 64 * 64 + 64 * j)

/-! ### Operations at the home -/

/-- The new value of floating `add`, `min`, `max` (17/R265): `fm` is ignored. -/
def atomFloat (fm : Fmt) (fn x c : Nat) : Nat :=
  let a := fm.read false x
  let b := fm.read false c
  if fn = 0 then ((numAdd false a b).deliver fm .rne false).bits else ((numSelect (fn == 1) a b).keep fm).bits

/-- F of 17/R265 and 19/R308 on the low n bytes: old value, operand, compared value. -/
def atomNew (fn : Nat) (t : Ty) (old c e : Nat) : Nat :=
  let w := match t with | .i64 | .u64 | .f64 => 64 | _ => 32
  let sg := t == .i32 || t == .i64
  let less (x y : Nat) : Bool := if sg then (BitVec.ofNat w x).slt (BitVec.ofNat w y) else x % 2 ^ w < y % 2 ^ w
  match t with
  | .f32 => atomFloat fmtF32 fn old (c % 2 ^ 32)
  | .f64 => atomFloat fmtF64 fn old c
  | .bf16x2 => atomFloat fmtBf16 fn (old % 2 ^ 16) (c % 2 ^ 16)
      + atomFloat fmtBf16 fn (old / 2 ^ 16) (c / 2 ^ 16 % 2 ^ 16) * 2 ^ 16
  | _ => match fn with
    | 0 => (old + c) % 2 ^ w
    | 1 => if less old c then old else c % 2 ^ w
    | 2 => if less old c then c % 2 ^ w else old
    | 3 => old &&& (c % 2 ^ w)
    | 4 => old ||| (c % 2 ^ w)
    | 5 => old ^^^ (c % 2 ^ w)
    | 6 => c % 2 ^ w
    | _ => if old = e % 2 ^ w then c % 2 ^ w else old

/-- Bytes of an atomic's type. -/
def atomSize : Ty → Nat
  | .i64 | .u64 | .f64 => 8
  | _ => 4

/-- An exact-sum cell (17/R266, 19/R310). -/
structure Cell where
  acc   : Nat
  count : Nat
  kind  : Nat
  pinf  : Bool
  ninf  : Bool
  qnan  : Bool
  snan  : Bool
  mixed : Bool
  base  : Nat
  oow   : Bool
  rest  : Nat
deriving DecidableEq, Repr

def cellOf (x : Nat) : Cell :=
  { acc := x % 2 ^ 384, count := x / 2 ^ 384 % 2 ^ 64, kind := x / 2 ^ 448 % 256, pinf := x.testBit 456
    ninf := x.testBit 457, qnan := x.testBit 458, snan := x.testBit 459, mixed := x.testBit 460
    base := x / 2 ^ 461 % 2 ^ 16, oow := x.testBit 477, rest := x / 2 ^ 478 }

def Cell.num (c : Cell) : Nat :=
  c.acc + c.count * 2 ^ 384 + c.kind * 2 ^ 448 + c.pinf.toNat * 2 ^ 456 + c.ninf.toNat * 2 ^ 457 + c.qnan.toNat * 2 ^ 458
    + c.snan.toNat * 2 ^ 459 + c.mixed.toNat * 2 ^ 460 + c.base * 2 ^ 461 + c.oow.toNat * 2 ^ 477 + c.rest * 2 ^ 478

/-- BASE as a signed exponent (19/R310). -/
def Cell.expo (c : Cell) : Int := (BitVec.ofNat 16 c.base).toInt

/-- ACC plus k, modulo 2^384. -/
def Cell.addAcc (c : Cell) (k : Int) : Cell := { c with acc := ((c.acc + k) % (2 ^ 384 : Nat)).toNat }

/-- One contribution (17/R267, 19/R311). -/
def Cell.contribute (wide : Bool) (c : Cell) (x : Word) : Cell :=
  let own := if wide then 2 else 1
  let c :=
    if c.kind ≠ 0 && c.kind ≠ own then { c with mixed := true }
    else
      let c := { c with kind := own }
      match (if wide then fmtF64.read false x.toNat else fmtF32.read false (x.toNat % 2 ^ 32)) with
      | .nan true => { c with snan := true }
      | .nan false => { c with qnan := true }
      | .inf neg => if neg then { c with ninf := true } else { c with pinf := true }
      | .fin neg m e =>
        if !wide then c.addAcc (signedMant neg (m * 2 ^ (e + 149).toNat))
        else if m = 0 then c
        else
          let k := e - c.expo
          let whole := 0 ≤ k || m % 2 ^ (-k).toNat = 0
          if whole && topExp m e < c.expo + 320 then
            c.addAcc (signedMant neg (if 0 ≤ k then m * 2 ^ k.toNat else m / 2 ^ (-k).toNat))
          else { c with oow := true }
  { c with count := min (c.count + 1) (2 ^ 64 - 1) }

/-- What a cell reads as (17/R268, 19/R313), before its one rounding. -/
def Cell.value (wide : Bool) (c : Cell) : ExRes :=
  let unknown := if wide then 3 ≤ c.kind else 2 ≤ c.kind
  if c.mixed || unknown || c.snan || (wide && c.oow) || (c.pinf && c.ninf) then exInvalid
  else if c.qnan then exNum (.nan false)
  else if wide && c.kind = 0 && !c.pinf && !c.ninf then exNum (.fin false 0 0)
  else if c.pinf then exNum (.inf false)
  else if c.ninf then exNum (.inf true)
  else
    let k : Int := if c.acc < 2 ^ 383 then c.acc else (c.acc : Int) - (2 ^ 384 : Nat)
    exNum (finOf k (if wide && c.kind = 2 then c.expo else -149) false)

/-- A cell after `xrd.clr`: BASE stays in the wide form (17/R268, 19/R313). -/
def Cell.cleared (wide : Bool) (c : Cell) : Cell := { cellOf 0 with base := if wide then c.base else 0 }

/-- The bytes that an operation reads at its home: offsets from its address. -/
def homeReads : HomeOp → List Nat
  | .read n => List.range n
  | .gather offs => offs
  | .write _ => []
  | .atoms _ t ops => ops.flatMap fun o => (List.range (atomSize t)).map (o.1 + ·)
  | .xsum _ _ | .xrd _ _ => List.range 64

/-- The atomics of one step, in order, over the bytes of a granule: the old values and the bytes after. -/
def applyAtoms (fn : Nat) (t : Ty) : List (Nat × Word × Word) → Map Byte → List Nat × Map Byte
  | [], m => ([], m)
  | (o, c, e) :: ops, m =>
    let n := atomSize t
    let old := numOf ((List.range n).map fun j => m.get (o + j) 0)
    let new := bytesOf (atomNew fn t old c.toNat e.toNat) n
    let m := new.zipIdx.foldl (fun m b => m.set (o + b.2) b.1) m
    let r := applyAtoms fn t ops m
    (old :: r.1, r.2)

/-- An operation applied at the home of its bytes, whole and alone (17/R269): the reply's bytes; or the offset of the
first byte that a damaged column keeps it from reading, and nothing applied. -/
def State.applyHome (s : State) (la : Nat) (w : Who) (op : HomeOp) : Except (Nat × State) (List Byte × State) :=
  match s.readOffs la w (homeReads op) with
  | .error e => .error e
  | .ok (bs, s) => match op with
    | .read _ | .gather _ => .ok (bs, s)
    | .write runs => .ok ([], s.writeRuns la w runs)
    | .atoms fn t ops =>
      let m : Map Byte := ((homeReads op).zip bs).foldl (fun m p => m.set p.1 p.2) []
      let r := applyAtoms fn t ops m
      .ok (r.1.flatMap fun x => bytesOf x (atomSize t), s.writeRuns la w (r.2.map fun p => (p.1, [p.2])))
    | .xsum wide xs =>
      let c := xs.foldl (Cell.contribute wide) (cellOf (numOf bs))
      .ok ([], s.writeRuns la w [(0, bytesOf c.num 64)])
    | .xrd wide clear =>
      .ok (bs, if clear then s.writeRuns la w [(0, bytesOf ((cellOf (numOf bs)).cleared wide).num 64)] else s)

/-! ### The log page (26/R392) -/

/-- The fields of the log page, by offset: a run of bytes. -/
def Partition.logRuns (p : Partition) : List (Nat × List Byte) :=
  [(0, bytesOf p.acount 8), (0x4000, bytesOf p.tcount 8), (0x8000, bytesOf p.bankmap.toNat 8), (0x8008, bytesOf p.remaps 8),
    (0x8010, bytesOf p.spool 4), (0x8014, bytesOf p.rsv 1),
    (0x8040, (List.range 64).flatMap fun b => bytesOf (p.banks.get b {}).corrected 8),
    (0x8240, (List.range 4).map fun b => BitVec.ofNat 8 (p.buses.get b {}).spares), (0x8248, bytesOf p.sramcorr 8)]
    ++ (p.alog.map fun e => (0x40 + 64 * e.1, e.2)) ++ (p.tlog.map fun e => (0x4040 + 64 * e.1, e.2))

/-- A byte of the log page. -/
def Partition.logByte (p : Partition) (off : Nat) : Byte :=
  (p.logRuns.findSome? fun r => if r.1 ≤ off && off < r.1 + r.2.length then r.2[off - r.1]? else none).getD 0

end Sys2Proof.Machine
end

