-- ==== Sys2Proof/Machine/Translate.lean ====
section
/-!
DEFINITION. Translation: the four-level tree and its leaves (26/R376, R377), the translation buffers (26/R378), and the
three pages that the hardware installs at START (28/R409; log 15).
-/

namespace Sys2Proof.Machine

open Sys2Proof

/-- The outcome of a translation (26/R377, 08/R144): the home, and whether the page is Normal-SC (18/R277); `wait` where a bank that holds
a table refreshes (26/R383). -/
inductive Xlate where
  | ok (h : Home) (sc : Bool)
  | replay
  | bad
  | wait
deriving DecidableEq, Repr

/-! ### The walk -/

/-- How a walk ends; at an entry that cannot be read, it fails whatever asked for it (26/R388, 28/R412); it waits for a bank (R383). -/
inductive Walk where
  | leaf (l : Leaf)
  | invalid
  | malformed
  | unread
  | busy
deriving DecidableEq, Repr

/-- Virtual address bits of each level: lowest bit, number of bits (26/R376). -/
def treeLevels : List (Nat × Nat) := [(39, 13), (30, 9), (21, 9), (16, 5)]

/-- A refused access to memory of another partition (28/R412): an entry in that partition's array log, and its report. -/
def State.refuse (s : State) (la : Nat) : State :=
  match s.bankAt la with
  | some (p, b) => s.logArray p la 6 b 0 { va := 0, source := 0 }
  | none => s

/-- An entry of a table, read at its home (26/R376); none where its column is damaged or belongs to another partition. -/
def State.entryAt (s : State) (p a : Nat) (w : Who) : Option Nat × State :=
  if !s.reaches p a 8 then (none, s.refuse a)
  else match s.readOffs a { w with source := 7 } (List.range 8) with
    | .ok (bs, s) => (some (numOf bs), s)
    | .error (_, s) => (none, s)

def State.walkFrom (p va : Nat) (w : Who) (table : Nat) : State → List (Nat × Nat) → Walk × State
  | s, [] => (.malformed, s)
  | s, (lo, n) :: rest =>
    let a := table + 8 * (va / 2 ^ lo % 2 ^ n)
    if s.reaches p a 8 && s.bankBusy a then (.busy, s)
    else match s.entryAt p a w with
    | (none, s) => (.unread, s)
    | (some e, s) =>
      if e % 2 = 0 then (.invalid, s)
      else if e / 2 % 2 = 1 then
        match rest with
        | [] => (.malformed, s)
        | (_, m) :: _ =>
          let next := e % 2 ^ 40 / 2 ^ 8 * 2 ^ 8
          if e / 2 ^ 40 ≠ 0 || e / 4 % 64 ≠ 0 || next % (8 * 2 ^ m) ≠ 0 then (.malformed, s)
          else State.walkFrom p va w next s rest
      else if 2 ≤ rest.length then (.malformed, s)
      else
        let large := rest.length = 1
        (.leaf { base := va / pageSize large * pageSize large, large, entry := BitVec.ofNat 64 e }, s)

/-- The tree alone. -/
def State.treeWalk (s : State) (p va : Nat) (w : Who) : Walk × State :=
  State.walkFrom p va w (s.part p).root s treeLevels

/-- The address of the level-2 entry of v where the tree holds its table. -/
def State.entrySpot (s : State) (p v : Nat) : Option Nat :=
  let step (table lo n : Nat) : Option Nat :=
    let e := Memory.num s.mem (s.located (table + 8 * (v / 2 ^ lo % 2 ^ n))) 8
    if e % 4 = 3 then some (e % 2 ^ 40 / 2 ^ 8 * 2 ^ 8) else none
  match step (s.part p).root 39 13 with
  | none => none
  | some t1 => (step t1 30 9).map fun t2 => t2 + 8 * (v / 2 ^ 21 % 2 ^ 9)

/-- A walk from the partition's root. Where the tree holds no table for a compute-capable page that `mapc` mapped, the
page's leaf is the one that the hardware keeps (25/R369 names no table to take; log 20). -/
def State.walk (s : State) (p va : Nat) (w : Who) : Walk × State :=
  match s.treeWalk p va w with
  | (.invalid, s) => match if (s.entrySpot p va).isSome then none else (s.part p).cpages.get? (va / 2 ^ 21) with
    | some e => (.leaf { base := va / 2 ^ 21 * 2 ^ 21, large := true, entry := e }, s)
    | none => (.invalid, s)
  | r => r

def Leaf.covers (l : Leaf) (va : Nat) : Bool := l.base ≤ va && va < l.base + pageSize l.large

/-- The leaf of a page: from the core's buffer, the cluster's, or a walk (26/R378). -/
def State.lookup (s : State) (p core va : Nat) (w : Who) : Walk × State :=
  match ((s.core core).tlb ++ (s.cluster (coreCluster core)).tlb).find? fun l => l.covers va with
  | some l => (.leaf l, s)
  | none => s.walk p va w

/-- The page that the hardware installed over an address (28/R409). -/
def State.special (s : State) (p va : Nat) : Option Home :=
  let x := s.part p
  let within (base : Nat) : Bool := base ≤ va && va < base + 2 ^ 16
  if !(1 ≤ x.state && x.state ≤ 3) then none
  else if within x.winva then some (.window (va - x.winva))
  else if within x.logva then some (.log (va - x.logva))
  else if within x.sigva then some (.signal (va - x.sigva))
  else none

/-- Reduced service reaches only its own terrace (28/R414). -/
def State.farBarred (s : State) (p : Nat) (own : Bool) (la : Nat) : Bool :=
  (s.part p).service == 1 && (!own || laTerrace la != p / 4)

/-- A home outside the terrace of a partition's module. -/
def Home.far (h : Home) (p : Nat) : Bool :=
  match h with
  | .ram la => laTerrace la != p / 4
  | .remote _ _ => true
  | _ => false

/-- A translation for an access that keeps the rules of reduced service (28/R414). -/
def Xlate.barFar (x : Xlate) (reduced : Bool) (p : Nat) : Xlate :=
  match x with
  | .ok h sc => if reduced && h.far p then .bad else .ok h sc
  | x => x

/-- A step of the group of the turn by the rules of reduced service, if it keeps them (28/R414). -/
def State.asReduced (s : State) (reduced : Bool) (f : State → Host.Outcome State Fault Refusal) : Host.Outcome State Fault Refusal :=
  if reduced then
    let p := s.myPart
    let serve (n : Nat) (s : State) : State := s.modPart p fun x => { x with service := n }
    match f (serve 1 s) with
    | .next r => .next (serve (s.part p).service r)
    | o => o
  else f s

/-- The home that a valid leaf names for an address. -/
def State.leafHome (s : State) (l : Leaf) (va : Nat) : Home :=
  let la := leafByte l va
  match leafMt l.entry with
  | 2 => .comb la
  | 3 => .device la
  | _ => if leafModule l.entry = s.module then .ram la else .remote (leafModule l.entry) la

/-- The translation of one access that lies in one page (26/R376-R378, 18/R281, 28/R409). -/
def State.translate (s : State) (p core va : Nat) (w : Who) (write fetch : Bool) : Xlate × State :=
  match s.special p va with
  | some h =>
    let readOnly := match h with | .log _ => true | _ => false
    if fetch || (write && readOnly) then (.bad, s) else (.ok h true, s)
  | none =>
    match s.lookup p core va w with
    | (.invalid, s) => (.replay, s)
    | (.malformed, s) | (.unread, s) => (.bad, s)
    | (.busy, s) => (.wait, s)
    | (.leaf l, s) =>
      let e := l.entry
      if !s.leafOk l then (.bad, s)
      else if leafPend e then (.replay, s)
      else if (write && !leafW e) || (fetch && (!leafX e || 2 ≤ leafMt e)) then (.bad, s)
      else if leafMt e ≤ 1 && s.farBarred p (leafModule e == s.module) (leafByte l va) then (.bad, s)
      else (.ok (s.leafHome l va) (leafMt e == 1), s)

/-! ### The compute-capable pages of a partition (26/R380) -/

/-- The leaves of the compute-capable pages of a partition's address space, those with PEND = 1 among them. -/
def State.computeLeaves (s : State) (p : Nat) : List Leaf :=
  let kept := ((s.part p).cpages.filter fun c => (s.entrySpot p (c.1 * 2 ^ 21)).isNone).map fun c =>
    { base := c.1 * 2 ^ 21, large := true, entry := c.2 }
  (s.treeLeaves p ++ kept).filter fun l => leafC l.entry && s.leafOk l

/-- The leaves of the compute-capable pages that the partition's address space maps. -/
def State.computePages (s : State) (p : Nat) : List Leaf := (s.computeLeaves p).filter fun l => !leafPend l.entry

/-- The half of the bank stack that a compute-capable page lies in. -/
def leafHalf (l : Leaf) : Nat := (leafAddr l.entry % partWindow - directBase) / 2 ^ 26 / 32

/-- Bank b holds a stripe of a compute-capable page of the partition's address space (03/R43, cause 4). -/
def State.bankComputes (s : State) (p b : Nat) : Bool :=
  (s.computePages p).any fun l => leafAddr l.entry / partWindow == p && leafHalf l == b / 32

/-! ### Buffers (26/R378) -/

/-- Leaves that cover no byte of [va, va + n) stay. -/
def dropLeaves (va n : Nat) (tlb : List Leaf) : List Leaf :=
  tlb.filter fun l => l.base + pageSize l.large ≤ va || va + n ≤ l.base

/-- Every buffer of the cores and clusters named drops the leaves of a range. -/
def State.invalidate (s : State) (cores : Nat → Bool) (va n : Nat) : State :=
  { s with
    cores := s.cores.update fun c x => if cores c then { x with tlb := dropLeaves va n x.tlb } else x
    clusters := s.clusters.update fun k x => if cores (8 * k) then { x with tlb := dropLeaves va n x.tlb } else x }

/-- The buffers of a whole partition. -/
def State.invalidatePart (s : State) (p va n : Nat) : State := s.invalidate (fun c => corePart c == p) va n

/-- A buffer takes the leaf of a page, if its translation does not fault; a full one drops its oldest leaf. -/
def State.fillLeaf (s : State) (core va : Nat) (shared : Bool) : State :=
  match s.walk (corePart core) va { va := BitVec.ofNat 64 va, source := 7 } with
  | (.leaf l, s) =>
    if !s.leafOk l || leafPend l.entry || (s.special (corePart core) va).isSome then s
    else if shared then s.modCluster (coreCluster core) fun x => { x with tlb := l :: x.tlb.take 2047 }
    else s.modCore core fun x => { x with tlb := l :: x.tlb.take 63 }
  | (_, s) => s

end Sys2Proof.Machine
end

