-- ==== Sys2Proof/Machine/Access.lean ====
section
/-!
DEFINITION. A group's accesses to global memory by home: DRAM, the inbound window (21/R327-R329), the log page, the signal
page (28/R410), Write-combining and Device pages (18/R278, R279), other modules (28/R404).
-/

namespace Sys2Proof.Machine

open Sys2Proof

/-! ### Inbound queues (21/R327-R329) -/

/-- The queue that is on and whose ring holds a window offset. -/
def Partition.ringAt (p : Partition) (o : Nat) : Option (Nat × Inbound) :=
  (p.queues.find? fun q => q.2.on && q.2.base ≤ o && o < q.2.base + q.2.size)

/-- The value congruent to r modulo n in [lo, lo + n). -/
def congruentFrom (lo r n : Nat) : Nat := lo + (r + n - lo % n) % n

/-- The sequence number that a read of a ring byte waits for (21/R329). -/
def Inbound.readSeq (q : Inbound) (o : Nat) : Nat := congruentFrom q.cons (o - q.base) q.size

/-- A load of window bytes waits for bytes that have not landed. -/
def Partition.gatedAt (p : Partition) (o : Nat) : Bool :=
  match p.ringAt o with
  | some (_, q) => q.mark ≤ q.readSeq o
  | none => false

/-- The bytes of a queue's descriptor (21/R327). -/
def Inbound.descriptor (q : Inbound) : List Byte :=
  bytesOf q.base 8 ++ bytesOf q.size 4 ++ [BitVec.ofNat 8 q.on.toNat, BitVec.ofNat 8 q.ovf.toNat, 0, 0]
    ++ bytesOf q.mark 8 ++ bytesOf q.cons 8 ++ bytesOf q.drop 8 ++ List.replicate 24 0

/-- A byte of the window as a read finds it. -/
def Partition.windowByte (p : Partition) (o : Nat) : Byte :=
  if o < 0x400 then ((p.queues.get (o / 64) {}).descriptor[o % 64]?).getD 0
  else if o < 0x1000 then 0
  else p.ring.get o 0

def State.modQueue (s : State) (p q : Nat) (f : Inbound → Inbound) : State :=
  s.modPart p fun x => { x with queues := x.queues.set q (f (x.queues.get q {})) }

/-- A queue may be turned on with these fields (21/R327). -/
def Partition.queueOk (p : Partition) (n : Nat) (q : Inbound) : Bool :=
  q.base % 64 == 0 && 0x1000 ≤ q.base && 64 ≤ q.size && q.size ≤ 32768 && q.size == 2 ^ Nat.log2 q.size
    && q.base + q.size ≤ 0x1_0000
    && !(p.queues.any fun r => r.1 != n && r.2.on && r.2.base < q.base + q.size && q.base < r.2.base + r.2.size)

/-- The store at descriptor offset 0x08 (21/R327): FLAGS, then SIZE, then STATE. -/
def State.controlStore (s : State) (p n : Nat) (x : Word) : State :=
  s.modQueue p n fun q =>
    let q := { q with ovf := q.ovf && !x.getLsbD 40 }
    let q := if q.on then q else { q with size := x.toNat % 2 ^ 32 }
    match x.toNat / 2 ^ 32 % 256 with
    | 0 => { q with on := false }
    | 1 => if !q.on && (s.part p).queueOk n q then { q with on := true, mark := 0, cons := 0, drop := 0, landed := [] } else q
    | _ => q

/-- A write of CONS (21/R327, R328): the landed bits of consumed bytes are cleared. -/
def State.consStore (s : State) (p n : Nat) (x : Word) : State :=
  s.modQueue p n fun q =>
    let v := x.toNat
    if v % 64 = 0 && q.cons ≤ v && v ≤ q.mark then
      { q with cons := v, landed := q.landed.filter fun o => v - q.cons ≤ (o + q.size - q.cons % q.size) % q.size }
    else q

/-- A store to another field of a descriptor (21/R327): BASE while off; the read-only and reserved fields keep theirs. -/
def State.fieldStore (s : State) (p n field : Nat) (x : Word) : State :=
  s.modQueue p n fun q => if field = 0 && !q.on then { q with base := x.toNat } else q

/-- The steward's 8 B store to a descriptor. -/
def State.descStore (s : State) (p off : Nat) (x : Word) : State :=
  match off % 64 with
  | 0x08 => s.controlStore p (off / 64) x
  | 0x18 => s.consStore p (off / 64) x
  | f => s.fieldStore p (off / 64) f x

/-! ### Ways out of the module -/

/-- The bus address of a byte of a PCI Express window, by the outbound table (28/R407); one that it does not cover is sent as
it stands. -/
def State.busAddr (s : State) (la : Nat) : Nat :=
  match s.outbound.find? fun e => e.1 ≤ la && la < e.1 + e.2.2 with
  | some e => e.2.1 + (la - e.1)
  | none => la

/-- The link by which an access to a PCI Express window leaves: link 1 from 896 GiB on (28/R407). -/
def linkOf (la : Nat) : Nat := if la < 896 * 2 ^ 30 then 0 else 1

/-- The ports that are up and that the route table names for a module (28/R403). -/
def State.portsTo (s : State) (m : Nat) : List Nat := (s.routes.get m []).filter fun k => (s.ports.get k {}).up

/-! ### The combining buffer (18/R279) -/

/-- The bytes of a table as runs. -/
def runsOf : Map Byte → List (Nat × List Byte)
  | [] => []
  | (o, b) :: m =>
    match runsOf m with
    | (o', bs) :: rest => if o + 1 = o' then (o, b :: bs) :: rest else (o, [b]) :: (o', bs) :: rest
    | [] => [(o, [b])]

/-- A write of a group sent by PCI Express, to be acknowledged under its number (18/R284; log 65). -/
def State.sendWrite (s : State) (g va la : Nat) (bs : List Byte) : State :=
  let q := s.nextId
  let s : State := { s with nextId := q + 1, outbox := s.outbox ++ [.deviceWrite g q (linkOf la) (s.busAddr la) bs] }
  s.modGroup g fun x => { x with posted := x.posted ++ [(q, va)] }

/-- One entry of a group sent. -/
def State.sendLine (g : Nat) (s : State) (l : WcLine) : State :=
  (runsOf l.bytes).foldl (fun s r => s.sendWrite g (l.va / 64 * 64 + r.1) (64 * l.line + r.1) r.2) s

/-- The buffer of a group drained: every entry is sent. -/
def State.drainWc (s : State) (g : Nat) : State :=
  match s.group? g with
  | none => s
  | some x => x.wc.foldl (State.sendLine g) (s.setGroup g { x with wc := [] })

/-- One byte of a store at va merged into the buffer of the group whose turn it is: the oldest entry is sent where none is free. -/
def State.combine (s : State) (va la : Nat) (b : Byte) : State :=
  let g := s.me
  if g.wc.any fun l => l.line == la / 64 then
    { s with me := { g with wc := g.wc.map fun l =>
        if l.line = la / 64 then { l with va, bytes := l.bytes.set (la % 64) b, last := s.time } else l } }
  else
    let fresh : WcLine := { line := la / 64, va, bytes := [(la % 64, b)], last := s.time }
    match g.wc with
    | l :: rest =>
      if 4 ≤ g.wc.length then ({ s with me := { g with wc := rest ++ [fresh] } } : State).sendLine s.meId l
      else { s with me := { g with wc := g.wc ++ [fresh] } }
    | [] => { s with me := { g with wc := [fresh] } }

def State.combineRuns (s : State) (va la : Nat) (runs : List (Nat × List Byte)) : State :=
  runs.foldl (fun s r => r.2.zipIdx.foldl (fun s b => s.combine (va + r.1 + b.2) (la + r.1 + b.2) b.1) s) s

/-- A byte that the group still holds in its buffer. -/
def Group.heldByte (g : Group) (la : Nat) : Option Byte :=
  (g.wc.find? fun l => l.line == la / 64).bind fun l => l.bytes.get? (la % 64)

/-! ### Requests that an outside party answers -/

/-- A completion timeout in cycles (28/R407). -/
def State.cto (s : State) : Nat := (s.part s.myPart).cto * msCycles

/-- Unrecoverable translation found by translation or at a home: WHERE 7 (08/R418). -/
def homeTrap (i : Instr) (g : Group) (va : Word) : Trap := { trapOf i g 19 va with place := 7 }

/-- Bytes that came from a home, with those that the group held when the request was sent in their place (18/R279). -/
def overlay (mine : Map Byte) (bs : List Byte) : List Byte := bs.zipIdx.map fun b => (mine.get? b.2).getD b.1

/-- A request and its answer: sent once, waited for, an error being unrecoverable translation (18/R278, 28/R404). `due` 0
sets no limit; `again` marks a plain read. -/
def ask (i : Instr) (s : State) (va : Word) (due : Nat) (mine : Map Byte) (send : Nat → Outgoing) (again : Bool := false) :
    Except Halt (List Byte × State) :=
  match s.me.asked with
  | some a =>
    match a.answer with
    | none => .error (.held .answer s)
    | some (true, bs) => .ok (overlay a.mine bs, { s with me := { s.me with asked := none } })
    | some (false, _) => .error (.trap (homeTrap i s.me va))
  | none =>
    let q := s.nextId
    .error (.held .answer { s with
      nextId := q + 1, outbox := s.outbox ++ [send q]
      me := { s.me with asked := some { va, due, seq := q, fetch := false, answer := none, olds := [], mine, again } } })

/-- A packet to another module (28/R404): 1 ms. -/
def askRemote (i : Instr) (s : State) (va : Word) (module la : Nat) (op : HomeOp) (again : Bool := false) :
    Except Halt (List Byte × State) :=
  ask i s va (s.time + msCycles) [] (fun q => .remote s.meId q (s.portsTo module) module la op) again

/-- The bytes of an access that the group holds in its combining buffer, by their place among the bytes at the given offsets. -/
def Group.heldBytes (g : Group) (la : Nat) (offs : List Nat) : Map Byte :=
  offs.zipIdx.filterMap fun o => (g.heldByte (la + o.1)).map fun b => (o.2, b)

/-- The read of the bytes at some offsets of an access of n bytes: of a vector those of its active lanes (06/R108). -/
def readOp (n : Nat) (offs : List Nat) : HomeOp := if offs = List.range n then .read n else .gather offs

/-! ### Accesses that wait for split-phase loads (08/R125, 17/R270) -/

/-- n bytes at a home meet the 128 bytes of an outstanding load. -/
def Home.meets (h k : Home) (n : Nat) : Bool :=
  let near (a b : Nat) : Bool := a < b + 128 && b < a + n
  match h, k with
  | .ram a, .ram b | .window a, .window b | .log a, .log b | .comb a, .comb b => near a b
  | .remote m a, .remote k b => m == k && near a b
  | _, _ => false

/-- What ranks above a source's or a destination's own conditions: an access's translation and its home (08/R130). -/
def ranked {α β : Type} (access : Except Halt α) (own : Except Halt β) : Except Halt α :=
  match access, own with
  | .error (.trap t), _ => .error (.trap t)
  | .error (.fail t s), _ => .error (.fail t s)
  | .error (.park va s), _ => .error (.park va s)
  | _, .error h => .error h
  | r, .ok _ => r

/-- A release waits until every split-phase load has returned (17/R270, 18/R284). -/
def Group.returned (g : Group) (rel : Bool) : Except Halt Unit :=
  if rel && !g.splits.isEmpty then .error (.wait .answer) else .ok ()

/-- A release at `.sy`, whose earlier writes have been sent, waits until they have been acknowledged (18/R284). -/
def State.acknowledged (s : State) (rel sys : Bool) : Except Halt Unit :=
  if rel && sys && !s.me.posted.isEmpty then .error (.held .answer s) else .ok ()

/-- Whether an access may take effect: a release at a scope other than `.gp` waits until every split-phase load has returned (17/R270, 18/R284), any
access for those that have not yet been answered and read bytes that it touches (08/R125). -/
def Group.inOrder (g : Group) (h : Home) (n : Nat) (rel : Bool) : Except Halt Unit :=
  if (rel && !g.splits.isEmpty) || g.splits.any (fun l => l.got.isNone && h.meets l.home n) then .error (.wait .answer) else .ok ()

/-! ### DRAM -/

/-- An operation of a group at a DRAM home of this module (17/R269, 26/R388, 28/R412). -/
def ramOp (i : Instr) (s : State) (va : Word) (la n source : Nat) (op : HomeOp) : Except Halt (List Byte × State) :=
  if !s.reaches s.myPart la n then .error (.fail (homeTrap i s.me va) (s.refuse la))
  else if s.busyBytes la n then .error (.wait .register)
  else match s.applyHome la (s.who s.me va source) op with
    | .ok r => .ok r
    | .error (o, s') => .error (.fail (homeTrap i s'.me (va + BitVec.ofNat 64 o)) s')

/-- Translation of a group's access (08/R144, R145); an access that `fbsvc` has resolved keeps what was found then (R146). -/
def translated (i : Instr) (s : State) (va : Word) (write : Bool) : Except Halt (Home × Bool × State) :=
  match s.me.granted.filter (·.1 == va) with
  | some (_, h, sc) => .ok (h, sc, s)
  | none => match s.translate s.myPart s.me.core va.toNat (s.who s.me va 0) write false with
    | (.ok h sc, s) => .ok (h, sc, s)
    | (.replay, s) => .error (.park va s)
    | (.wait, _) => .error (.wait .register)
    | (.bad, s) => .error (.fail (homeTrap i s.me va) s)

/-- The bytes of a load that has read DRAM before its commit (08/R124). -/
def Group.earlyBytes (g : Group) : Option (List Byte) :=
  match g.asked with
  | some { seq := 0, answer := some (true, bs), .. } => some bs
  | _ => none

/-! ### Loads -/

/-- Bytes at given offsets of an access of n bytes at va; `scalar` as 18/R278 and 21/R327 distinguish it. -/
def loadBytes (i : Instr) (s : State) (va : Word) (n : Nat) (offs : List Nat) (scalar : Bool) :
    Except Halt (List Byte × State) :=
  match s.me.earlyBytes with
  | some bs => .ok (bs, s)
  | none => match translated i s va false with
  | .error h => .error h
  | .ok (h, _, s) => match s.me.inOrder h n false with
  | .error h => .error h
  | .ok _ =>
    let p := s.part s.myPart
    match h with
    | .ram la =>
      if !s.reaches s.myPart la n then .error (.fail (homeTrap i s.me va) (s.refuse la))
      else if s.busyBytes la n then .error (.wait .register)
      else match s.readOffs la (s.who s.me va 0) offs with
        | .ok r => .ok r
        | .error (o, s') => .error (.fail (homeTrap i s'.me (va + BitVec.ofNat 64 o)) s')
    | .window w =>
      if w < 0x1000 && !(w < 0x400 && scalar && n == 8 && s.myTeam.steward) then .error (.trap (homeTrap i s.me va))
      else if (offs.any fun o => p.gatedAt (w + o)) then .error (.wait .inbound)
      else .ok (offs.map fun o => p.windowByte (w + o), s)
    | .log w => .ok (offs.map fun o => p.logByte (w + o), s)
    | .signal _ => .error (.trap (homeTrap i s.me va))
    | .comb la => ask i s va 0 (s.me.heldBytes la offs) (fun q => .deviceRead s.meId q (linkOf la) (s.busAddr la) offs) true
    | .device la =>
      if !scalar then .error (.trap (homeTrap i s.me va))
      else ask i s va (s.time + s.cto) [] (fun q => .deviceRead s.meId q (linkOf la) (s.busAddr la) offs)
    | .remote m la => askRemote i s va m la (readOp n offs) true

/-! ### Stores -/

/-- The bytes of the runs of a store in order. -/
def runBytes (runs : List (Nat × List Byte)) : List Byte := runs.flatMap (·.2)

/-- A release at a scope other than `.gp` drains the group's combining buffer (18/R279). -/
def State.release (s : State) (rel wide : Bool) : State := if rel && wide then s.drainWc s.meId else s

/-- Runs of bytes stored by an access of n bytes at va: `rel` is its ORD, `wide` says that its scope is not `.gp`, `sys` that it is `.sy`. A
store is a release on Normal-SC and Device pages (18/R277), on the latter at `.sy`; a release sends its bytes on a Write-combining page at
once. -/
def storeRuns (i : Instr) (s : State) (va : Word) (n : Nat) (runs : List (Nat × List Byte)) (scalar rel wide sys : Bool) :
    Except Halt State :=
  match translated i s va true with
  | .error h => .error h
  | .ok (h, sc, s) =>
    let strong := match h with | .device _ | .signal _ => true | _ => false
    match s.me.inOrder h n ((rel || sc) && wide || strong) with
    | .error h => .error h
    | .ok _ =>
    let s := s.release (rel || sc || strong) (wide || strong)
    match s.acknowledged (rel || sc || strong) (sys || strong) with
    | .error h => .error h
    | .ok _ =>
    let p := s.part s.myPart
    match h with
    | .ram la => (ramOp i s va la n 0 (.write runs)).map (·.2)
    | .window w =>
      if w < 0x1000 then
        if w < 0x400 && scalar && n == 8 && s.myTeam.steward then
          .ok (s.descStore s.myPart w (BitVec.ofNat 64 (numOf (runBytes runs))))
        else .error (.trap (homeTrap i s.me va))
      else if (runs.any fun r => (List.range r.2.length).any fun j => (p.ringAt (w + r.1 + j)).isSome) then
        .error (.trap (homeTrap i s.me va))
      else .ok (s.modPart s.myPart fun x => { x with
        ring := runs.foldl (fun m r => r.2.zipIdx.foldl (fun m b => m.set (w + r.1 + b.2) b.1) m) x.ring })
    | .log _ => .error (.trap (homeTrap i s.me va))
    | .signal _ =>
      if !scalar then .error (.trap (homeTrap i s.me va))
      else
        let v := numOf (runBytes runs) % 8
        .ok (if v = 0 then s else s.modPart s.myPart fun x => { x with msi := x.msi ++ [v] })
    | .comb la =>
      if rel && wide then .ok (runs.foldl (fun s r => s.sendWrite s.meId (va.toNat + r.1) (la + r.1) r.2) s)
      else .ok (s.combineRuns va.toNat la runs)
    | .device la =>
      if !scalar then .error (.trap (homeTrap i s.me va))
      else .ok (s.sendWrite s.meId va.toNat la (runBytes runs))
    | .remote m la => (askRemote i s va m la (.write runs)).map (·.2)

/-! ### Atomics and exact sums -/

/-- The atomics that PCI Express carries: FetchAdd, Swap, CAS on 32- and 64-bit integers (18/R278). -/
def pcieAtomic (fn : Nat) (t : Ty) : Bool :=
  (fn == 0 || fn == 6 || fn == 7) && [Ty.u32, .i32, .u64, .i64].contains t

def floatAtomic (t : Ty) : Bool := [Ty.f32, .f64, .bf16x2].contains t

/-- An operation on the bytes of a ring that is off (21/R327). -/
def ringOp (s : State) (w : Nat) (op : HomeOp) : List Byte × State :=
  let p := s.part s.myPart
  let put (bs : List (Nat × Byte)) : State :=
    s.modPart s.myPart fun x => { x with ring := bs.foldl (fun m b => m.set (w + b.1) b.2) x.ring }
  let cell := (List.range 64).map fun o => p.ring.get (w + o) 0
  match op with
  | .atoms fn t ops =>
    let r := applyAtoms fn t ops ((homeReads op).map fun o => (o, p.ring.get (w + o) 0))
    (r.1.flatMap fun x => bytesOf x (atomSize t), put r.2)
  | .xsum wide xs =>
    let c := xs.foldl (Cell.contribute wide) (cellOf (numOf cell))
    ([], put ((bytesOf c.num 64).zipIdx.map fun b => (b.2, b.1)))
  | .xrd wide clear =>
    let z := bytesOf ((cellOf (numOf cell)).cleared wide).num 64
    (cell, if clear then put (z.zipIdx.map fun b => (b.2, b.1)) else s)
  | _ => ([], s)

/-- An atomic or exact-sum operation of a group on n bytes at va (17/R265-R268, 18/R277, R278, 21/R327). On a
Write-combining page the bytes that the group still holds are sent first (08/R125). -/
def homeAccess (i : Instr) (s : State) (va : Word) (n : Nat) (op : HomeOp) (scalar rel wide sys : Bool) :
    Except Halt (List Byte × State) :=
  let bad := Except.error (.trap (homeTrap i s.me va))
  let reads := match op with | .xrd _ clear => !clear | _ => false
  match translated i s va (!reads) with
  | .error h => .error h
  | .ok (h, sc, s) => match s.me.inOrder h n ((rel || sc) && wide) with
    | .error h => .error h
    | .ok _ =>
    let s := match h with
      | .comb _ => s.drainWc s.meId
      | .device _ => s.release rel wide
      | _ => s.release (rel || sc) wide
    match s.acknowledged (rel || sc) sys with
    | .error h => .error h
    | .ok _ =>
    match h with
    | .ram la => ramOp i s va la n 3 op
    | .window w =>
      if w < 0x1000 || ((List.range n).any fun j => ((s.part s.myPart).ringAt (w + j)).isSome) then bad
      else .ok (ringOp s w op)
    | .log _ | .signal _ => bad
    | .comb la =>
      match op with
      | .atoms fn t ops =>
        if floatAtomic t then bad
        else ask i s va 0 [] (fun q => .deviceAtomic s.meId q (linkOf la) (s.busAddr la) fn t ops)
      | _ => bad
    | .device la =>
      match op with
      | .atoms fn t ops =>
        if scalar && pcieAtomic fn t then
          ask i s va (s.time + s.cto) [] (fun q => .deviceAtomic s.meId q (linkOf la) (s.busAddr la) fn t ops)
        else bad
      | _ => bad
    | .remote m la => askRemote i s va m la op

end Sys2Proof.Machine
end

