-- ==== Sys2Proof/Machine/Scratch.lean ====
section
/-!
DEFINITION. Scratchpad: regions (06/R107), bytes whose contents are undefined until written (log 11), watermark gating
(14/R223, R229) and the iteration of a copy (14/R221).
-/

namespace Sys2Proof.Machine

open Sys2Proof

/-- The first offset of the cohort region (06/R107). -/
def cohortBase : Nat := 0x100_0000

/-- Every byte of [x, x + n) lies in the team region. -/
def Team.inTeam (t : Team) (x n : Nat) : Bool := x + n ≤ 65536 * t.n

/-- Every byte of [x, x + n) lies in the cohort region. -/
def Team.inCohort (t : Team) (x n : Nat) : Bool := cohortBase ≤ x && x + n ≤ cohortBase + 65536 * t.m

def Team.inRegion (t : Team) (x n : Nat) : Bool := t.inTeam x n || t.inCohort x n

/-- A scratchpad byte of a team; a free value where nothing has written it (02/R23). -/
def State.spRead (s : State) (t : Nat) (x : Nat) : Byte :=
  let team := s.team t
  if cohortBase ≤ x then
    let k := s.cohort team.cohort
    ((k.sp.get team.pos []).get? x).getD (Config.freeByte k.seed (team.pos * 2 ^ 32 + x))
  else (team.sp.get? x).getD (Config.freeByte team.seed x)

def State.spWrite (s : State) (t : Nat) (x : Nat) (b : Byte) : State :=
  let team := s.team t
  if cohortBase ≤ x then
    s.modCohort team.cohort fun k => { k with sp := k.sp.set team.pos ((k.sp.get team.pos []).set x b) }
  else s.setTeam t { team with sp := team.sp.set x b }

def State.spReadN (s : State) (t x : Nat) : Nat → List Byte
  | 0 => []
  | n + 1 => s.spRead t x :: s.spReadN t (x + 1) n

/-- A byte range of a team's scratchpad holds a word with a double error (26/R390). -/
def State.spBad (s : State) (t x n : Nat) : Bool :=
  (s.spDamage.get t []).any fun w => 8 * w < x + n && x < 8 * w + 8

/-- One of some bytes lies in a word with a double error. -/
def State.spBadAt (s : State) (t : Nat) (bs : List Nat) : Bool := bs.any fun b => s.spBad t b 1

/-- Words that have been written whole lose their errors (26/R390). -/
def State.spHeal (s : State) (key : Nat) (whole : Nat → Bool) : State :=
  match s.spDamage.get? key with
  | none => s
  | some ds => { s with spDamage := s.spDamage.set key (ds.filter fun d => !whole d) }

/-- One write of some bytes, by their offsets; it clears the error of each word all of whose bytes it writes. -/
def State.spStore (s : State) (t : Nat) (ws : List (Nat × Byte)) : State :=
  (ws.foldl (fun s w => s.spWrite t w.1 w.2) s).spHeal t fun d => (List.range 8).all fun j => ws.any (·.1 == 8 * d + j)

/-- The key of the double errors in the `sp` scale array of a team, whose words are its slots (26/R390). -/
def scaleKey (t : Nat) : Nat := 2 ^ 33 + t

/-- An `sp` slot holds a double error, in its data or its scale bytes. -/
def State.slotBad (s : State) (t slot : Nat) : Bool := s.spBad t (128 * slot) 128 || (s.spDamage.get (scaleKey t) []).contains slot

/-- Byte offsets of the active lanes of a 128 B row. -/
def laneBytes (act : BitVec 32) : List Nat := (List.range 128).filter fun o => laneOn act (o / 4)

/-- The value of an `sp` slot (03/R36). -/
def State.slotReg (s : State) (t slot : Nat) : VReg :=
  { data := BitVec.ofNat 1024 (numOf (s.spReadN t (128 * slot) 128))
    scale := (s.team t).spScale.get slot VReg.fresh.scale }

/-! ### Copy shapes -/

/-- The number of bytes a copy lands (14/R222). -/
def Copy.total (c : Copy) : Nat :=
  match c.kind with
  | .drain => c.data.length
  | _ => c.dims.foldl (fun t d => t * d.n) c.n0

/-- The offset of run number i from the dimensions, the first varying fastest (14/R221). -/
def dimOffset (src : Bool) : List Dim → Nat → Int
  | [], _ => 0
  | d :: ds, i => (if src then d.s else d.d) * (i % d.n : Nat) + dimOffset src ds (i / d.n)

/-- The destination of byte k (14/R221, 16/R257, R258). -/
def Copy.dstAt (c : Copy) (k : Nat) : Int :=
  match c.kind with
  | .drain => c.dst + k
  | _ => c.dst + dimOffset false c.dims (k / c.n0) + (k % c.n0 : Nat)

/-- The lowest destination byte not yet landed, when `landed` bytes have (14/R222, 11/R176): bytes of a gap are none, so MARK passes a gap
as the last byte before it lands (log 60). -/
def Copy.markAt (c : Copy) (landed : Nat) : Int :=
  if c.total = 0 then c.dst
  else if landed < c.total then c.dstAt landed else c.dstAt (c.total - 1) + 1

def Copy.limit (c : Copy) : Int := c.markAt c.total

/-! ### Gating -/

/-- What a gated access does (14/R223). -/
inductive Gate where
  | go | wait | broken
deriving DecidableEq, Repr

/-- A watermark's effect on a byte it gates (14/R223). -/
def Watermark.gate (w : Watermark) (b : Nat) : Gate :=
  if b < w.mark then .go
  else match w.st with
    | 1 | 2 => .wait
    | 3 => .broken
    | _ => .go

/-- The copies in progress on all cores. -/
def State.copies (s : State) : List (Nat × Copy) :=
  s.cores.foldr (fun p acc => p.2.copies.map (fun q => (p.1, q.2)) ++ acc) []

/-- The multicasts still landing at a team's position, as open watermarks (14/R229). -/
def State.castMarks (s : State) (t : Nat) : List Watermark :=
  let team := s.team t
  s.copies.filterMap fun p =>
    let c := p.2
    if c.kind = .cpm && c.cohort = team.cohort && c.mask.getLsbD team.pos
        && c.fronts.get team.pos 0 < c.total then
      some { base := c.dst.toNat, limit := c.limit.toNat, mark := (c.markAt (c.fronts.get team.pos 0)).toNat, st := 1
             listen := false, order := c.order }
    else none

/-- The watermarks that decide for a byte: those issued latest of all that gate it; a multicast and its issuer's watermark
are of one issue, and both do (14/R223, R229). -/
def deciding (ws : List Watermark) (b : Nat) : List Watermark :=
  let gating := ws.filter fun w => w.st != 0 && w.base ≤ b && b < w.limit
  let top := gating.foldl (fun n w => max n w.order) 0
  gating.filter fun w => w.order == top

/-- Two gates at once: broken first, then a wait. -/
def Gate.both : Gate → Gate → Gate
  | .broken, _ => .broken
  | _, .broken => .broken
  | .wait, _ => .wait
  | .go, r => r

/-- The gating of one byte. -/
def gateByte (ws : List Watermark) (b : Nat) : Gate := (deciding ws b).foldl (fun r w => r.both (w.gate b)) .go

/-- The gating of the bytes at given offsets: broken at once, else wait, else proceed (14/R223). -/
def gateBytes (ws : List Watermark) (bs : List Nat) : Gate := bs.foldl (fun r b => r.both (gateByte ws b)) .go

/-- A store waits for a byte that an open or frozen watermark has still to land, and passes a broken one (14/R223). -/
def storeGated (ws : List Watermark) (bs : List Nat) : Bool :=
  bs.any fun b => (deciding ws b).any fun w => w.gate b == .wait

/-- The watermarks and multicasts that gate a team's scratchpad. -/
def State.gates (s : State) (t : Nat) : List Watermark := (s.team t).wms.values ++ s.castMarks t

def State.gate (s : State) (t x n : Nat) : Gate := gateBytes (s.gates t) ((List.range n).map (x + ·))

/-- A listening watermark follows the landed lines (14/R230). -/
def linesFrom (lines : List Nat) (x : Nat) : Nat → Nat
  | 0 => 0
  | n + 1 => if lines.contains (x / 128) then linesFrom lines (x + 128) n + 1 else 0

def Watermark.follow (w : Watermark) (lines : List Nat) : Watermark :=
  if w.listen && w.st = 1 then
    let n := linesFrom lines w.base ((w.limit - w.base) / 128)
    { w with mark := w.base + 128 * n, st := if w.base + 128 * n = w.limit then 4 else 1 }
  else w

/-- The listening watermarks of a team, evaluated again. -/
def State.followLines (s : State) (t : Nat) : State :=
  let team := s.team t
  let lines := (s.cohort team.cohort).lines.get team.pos []
  s.setTeam t { team with wms := team.wms.update fun _ w => w.follow lines }

end Sys2Proof.Machine
end

