-- ==== Sys2Proof/Machine/Operands.lean ====
section
/-!
DEFINITION. Vector operands at their places: the values of sources (03/R40, 04/R65), queues (03/R46-R49, R53), writes of
destinations (03/R41, R47, 06/R86).
-/

namespace Sys2Proof.Machine

open Sys2Proof

/-! ### Culvert ends -/

/-- The key of the culvert queue that a map entry names, for a group on a core (03/R50). -/
def culvertOf (core : Nat) (e : BitVec 32) : Nat :=
  let low := lowerCore core = core
  let up := if mapQKind e = 2 then low else !low
  culvertKey (lowerCore core) (if up then 0 else 1) (mapQNum e)

/-- The key of a culvert queue: its lower core, and whether the queue runs upward. -/
def culvertLow (key : Nat) : Nat := key / 16
def culvertUp (key : Nat) : Bool := key / 8 % 2 == 0

/-- The core of the in end, or of the out end, of a culvert queue. -/
def culvertEnd (key : Nat) (inEnd : Bool) : Nat :=
  if culvertUp key == inEnd then facing (culvertLow key) else culvertLow key

/-- A bank register (03/R36). -/
def State.bankReg (s : State) (p b r : Nat) : VReg := ((s.part p).banks.get b {}).regs.get r .fresh

def State.setBankReg (s : State) (p b r : Nat) (v : VReg) : State :=
  let bank := s.bank p b
  s.modPart p fun x => { x with banks := x.banks.set b { bank with regs := bank.regs.set r v } }

/-- The value of `vN` at its place; for a queue, its oldest entry (03/R36, R47). -/
def State.vreg (s : State) (n : Nat) : VReg :=
  let g := s.me
  let e := g.entry n
  if mapQKind e = 1 then ((g.lqueues.get n []).head?).getD .fresh
  else match mapPlace e with
    | 1 => s.slotReg g.team (mapSlot e)
    | 2 => s.bankReg s.myPart (bankOf e).1 (bankOf e).2
    | 3 => ((s.culvert (culvertOf g.core e)).entries.head?).getD .fresh
    | _ => g.regs.get n .fresh

/-- A number repeated in every element of a lane. -/
def repeatElem (w x : Nat) : Nat := packNat w (fun _ => x) (32 / w)

/-- Width of an element in bits. -/
def elemWidth (t : Ty) : Nat :=
  match t with
  | .f64 | .i64 | .u64 => 64
  | .bf16 | .f16 | .i16 | .u16 | .bf16x2 => 16
  | .e4m3 | .e5m2 | .mxe4m3 | .mxe5m2 | .i8 | .u8 | .e8m0 => 8
  | .e3m2 | .e2m3 | .mxe3m2 | .mxe2m3 => 6
  | .e2m1 | .mxe2m1 | .cb4 | .i4 | .u4 => 4
  | _ => 32

/-- The pattern of an immediate under a type (04/R65). -/
def immPattern (t : Ty) (k : Int) : Nat :=
  match fmtOf t with
  | some f => (f.write .arith .rne false (intNum k)).bits
  | none => (BitVec.ofInt (elemWidth t) k).toNat

/-- A lane of a special that holds an integer: every element under 8- and 16-bit integer types, else the lane (04/R65). -/
def specialLane (t : Ty) (x : Nat) : Nat :=
  match t with
  | .i8 | .u8 => repeatElem 8 x
  | .i16 | .u16 => repeatElem 16 x
  | _ => x

/-- A source where the operand is a vector of 32-bit lanes (04/R65). -/
def State.source (s : State) (x : BitVec 8) (t : Ty) : VReg :=
  let of (f : Nat → Nat) : VReg := VReg.ofLanes f fun _ => 0x7F
  match Spec.of x with
  | .vec n => s.vreg n
  | .opf n => s.me.ofile.get n .fresh
  | .lr => s.me.lr
  | .zero => of fun _ => 0
  | .laneid => of fun l => specialLane t l
  | .quadid => of fun l => specialLane t (l / 4)
  | .gidx => of fun _ => specialLane t s.me.index
  | .sca n => of fun _ => (s.me.sreg n).toNat
  | .imm k => of fun _ => repeatElem (elemWidth t) (immPattern t k)
  | .reserved => of fun _ => 0

/-- Lane l of a source where the operand is an FP64 pair (04/R65, 12/R188): 64 bits. -/
def State.source64 (s : State) (x : BitVec 8) (l : Nat) : Nat :=
  match Spec.of x with
  | .vec n => (s.vreg n).lane l + (s.vreg (n + 1)).lane l * 2 ^ 32
  | .opf n => (s.me.ofile.get n .fresh).lane l + (s.me.ofile.get (n + 1) .fresh).lane l * 2 ^ 32
  | .sca n => (s.me.sreg n).toNat
  | .laneid => l
  | .quadid => l / 4
  | .gidx => s.me.index
  | .imm k => immPattern .f64 k
  | _ => 0

/-! ### Reading queues -/

/-- The `vN` that an instruction reads as vector operands. -/
def sourceVectors (info : Info) (f : Form) : List Nat :=
  (if info.d.isSource || info.readsD then vectorsOf info.d f.d (info.dspan f) else [])
    ++ (if info.a.isSource then vectorsOf info.a f.a (info.sspan f) else [])
    ++ (if info.b.isSource then vectorsOf info.b f.b (info.sspan f) else [])
    ++ (if info.c.isSource then vectorsOf info.c f.cSpec (info.sspan f) else [])

/-- The queue registers that the source fields read, each once (03/R47). -/
def popList (info : Info) (g : Group) (f : Form) : List Nat :=
  (sourceVectors info f).eraseDups.filter fun n => mapQKind (g.entry n) != 0

/-- A pop of one queue: the state after it; a wait on an empty queue; an orphan trap (03/R47, R49, R53). The slot return
is signalled 12 cycles of the popping core later (03/R52). -/
def popOne (i : Instr) (s : State) (n : Nat) : Except Halt State :=
  let g := s.me
  let e := g.entry n
  if mapQKind e = 1 then
    match g.lqueues.get n [] with
    | [] => .error (.wait .queue)
    | _ :: q => .ok { s with me := { g with lqueues := g.lqueues.set n q } }
  else
    let k := culvertOf g.core e
    let c := s.culvert k
    match c.entries with
    | [] =>
      if c.outGone && c.flying.isEmpty then .error (.trap { trapOf i g 17 (BitVec.ofNat 64 n) with place := 3 })
      else .error (.wait .queue)
    | _ :: q =>
      if c.away then .error (.wait .queue)
      else .ok (s.modCulvert k fun c => { c with entries := q, returns := c.returns ++ [s.cycles g.core + 12] })

def popAll (i : Instr) : State → List Nat → Except Halt State
  | s, [] => .ok s
  | s, n :: ns => match popOne i s n with
    | .error h => .error h
    | .ok s => popAll i s ns

/-- A group's read meets a double error in scratchpad (26/R390): WHERE 1, and an entry in the array log (R391, R393). -/
def spFault (i : Instr) (s : State) (x : Nat) : Halt :=
  .fail { trapOf i s.me 19 (BitVec.ofNat 64 x) with place := 1 } (s.logArray s.myPart x 5 0xFF 2 (s.who s.me 0 0))

/-- The `sp` slots that the source fields read wait for their watermarks (14/R223) and meet double errors (26/R390). -/
def slotGate (info : Info) (s : State) (i : Instr) (f : Form) : Except Halt Unit :=
  let g := s.me
  (sourceVectors info f).foldl (fun r n => match r with
    | .error h => .error h
    | .ok _ =>
      let e := g.entry n
      if mapPlace e = 1 then
        match s.gate g.team (128 * mapSlot e) 128 with
        | .go =>
          if s.slotBad g.team (mapSlot e) then .error (spFault i s (128 * mapSlot e))
          else .ok ()
        | .wait => .error (.wait .gated)
        | .broken => .error (.trap { trapOf i g 13 (BitVec.ofNat 64 (128 * mapSlot e)) with place := 1 })
      else .ok ()) (.ok ())

/-- Reading the sources: gated slots, then pops. Without an active lane nothing is popped, unless the instruction reads
its source whatever `em` holds (03/R47). -/
def readSources (i : Instr) (info : Info) (f : Form) (always : Bool) (s : State) : Except Halt State :=
  match slotGate info s i f with
  | .error h => .error h
  | .ok _ => if !always && s.me.active f = 0 then .ok s else popAll i s (popList info s.me f)

/-! ### Writing destinations -/

/-- What an instruction writes to one register: lanes, and the scale bytes of the quads it writes (06/R86). -/
structure VWrite where
  lanes  : Nat → Nat
  mask   : BitVec 32
  scales : Option (Nat → Nat)
  quads  : Nat → Bool

/-- A write over an old value: active lanes, and scale bytes of the quads named (02/R33). -/
def VWrite.onto (w : VWrite) (old : VReg) : VReg :=
  VReg.ofLanes (fun l => if laneOn w.mask l then w.lanes l else old.lane l)
    (fun q => match w.scales with
      | some f => if w.quads q then f q else old.scaleByte q
      | none => old.scaleByte q)

/-- A write of a whole register. -/
def VReg.whole (v : VReg) : VWrite :=
  { lanes := v.lane, mask := 0xFFFF_FFFF, scales := some v.scaleByte, quads := fun _ => true }

/-- A write of an `sp` slot reaches the bytes of the lanes and quads that it names alone (03/R36, 26/R390). -/
def State.writeSlot (s : State) (t slot : Nat) (w : VWrite) : State :=
  let v := w.onto (s.slotReg t slot)
  let s := s.spStore t ((laneBytes w.mask).map fun o => (128 * slot + o, BitVec.ofNat 8 (digit 8 v.data.toNat o)))
  let s := if w.scales.isSome && (List.range 8).all w.quads then s.spHeal (scaleKey t) (· == slot) else s
  s.modTeam t fun x => { x with spScale := x.spScale.set slot v.scale }

/-- A queue that takes a number keeps the slot returns in flight of the one that held it before (03/R55). -/
def State.culvertSet (s : State) (m : Map Culvert) (key : Nat) (c : Culvert) : Map Culvert :=
  let old := m.get key {}
  m.set key { c with past := (old.returns ++ old.past).filter (s.cycles (culvertEnd key true) < ·) }

/-- Slots of a culvert queue whose returns have not arrived, for an instruction that issues now: one that arrives in the same cycle is
not counted (03/R52). -/
def State.slotsTaken (s : State) (key : Nat) (c : Culvert) : Nat :=
  c.taken - (c.returns.filter (· < s.cycles (culvertEnd key true))).length

/-- A push into a culvert out end (03/R47-R49, R53): the entry arrives at the in end 12 cycles of the pushing core
later (log 13). -/
def pushCulvert (i : Instr) (s : State) (n : Nat) (v : VReg) : Except Halt State :=
  let g := s.me
  let e := g.entry n
  let k := culvertOf g.core e
  let c := s.culvert k
  if c.inGone then .error (.trap { trapOf i g 17 (BitVec.ofNat 64 n) with place := 3 })
  else if c.away || c.depth ≤ s.slotsTaken k c then .error (.wait .queue)
  else .ok (s.modCulvert k fun c => { c with flying := c.flying ++ [(s.cycles g.core + 12, v)], taken := c.taken + 1 })

/-- A register that the group of a handler sees in the place of its own (08/R139). -/
def Group.hides (g : Group) (x : Spec) : Bool := match x with | .vec n => g.relieved n | _ => false

/-- A split-phase load into the register is outstanding: a write waits for the reply (19/R306). -/
def Group.loading (g : Group) (x : Spec) : Bool := g.splits.any fun l => l.mask != 0 && Spec.of l.dest == x && l.inner == g.hides x

/-- A write of one vector register at its place. `lr` takes a lane-place result when `first` says that the register is
the one D names (03/R41); the unit of a bank waits with it (26/R381). -/
def writeReg (i : Instr) (s : State) (x : Spec) (w : VWrite) (first : Bool) : Except Halt State :=
  let g := s.me
  if g.loading x then .error (.wait .register)
  else match x with
  | .opf n =>
    let v := w.onto (g.ofile.get n .fresh)
    .ok { s with me := { g with ofile := g.ofile.set n v, lr := if first then v else g.lr } }
  | .vec n =>
    let e := g.entry n
    if mapQKind e = 1 then
      if w.mask = 0 then .ok s
      else
        let q := g.lqueues.get n []
        if mapQDepth e ≤ q.length then .error (.wait .queue)
        else
          let v := w.onto .fresh
          .ok { s with me := { g with lqueues := g.lqueues.set n (q ++ [v]), lr := if first then v else g.lr } }
    else match mapPlace e with
      | 1 =>
        .ok (s.writeSlot g.team (mapSlot e) w)
      | 2 =>
        let (b, r) := bankOf e
        if s.bankBlocked s.myPart b then .error (.wait .register)
        else .ok (s.setBankReg s.myPart b r (w.onto (s.bankReg s.myPart b r)))
      | 3 => if w.mask = 0 then .ok s else pushCulvert i s n (w.onto .fresh)
      | _ =>
        let v := w.onto (g.regs.get n .fresh)
        .ok { s with me := { g with regs := g.regs.set n v, lr := if first then v else g.lr } }
  | _ => .ok s

/-- The destination can take the result: a full culvert queue or one whose reader is gone is met before the result's own
exceptions (08/R130 rank 4); a full local queue is met after them (log 67). -/
def destReady (i : Instr) (info : Info) (f : Form) (s : State) : Except Halt Unit :=
  if !info.d.isDest || s.me.active f = 0 then .ok ()
  else match Spec.of f.d with
    | .vec n =>
      if mapPlace (s.me.entry n) = 3 then (match pushCulvert i s n .fresh with
        | .error h => .error h
        | .ok _ => .ok ())
      else .ok ()
    | _ => .ok ()

/-- The register j after the one a specifier names. -/
def Spec.next (x : Spec) (j : Nat) : Spec :=
  match x with
  | .vec n => .vec (n + j)
  | .opf n => .opf (n + j)
  | y => y

/-- Writes of a range of registers from D, the first of which goes to `lr` (03/R41). -/
def writeRange (i : Instr) (s : State) (x : Spec) (j : Nat) : List VWrite → Except Halt State
  | [] => .ok s
  | w :: ws => match writeReg i s (Spec.next x j) w (j == 0) with
    | .error h => .error h
    | .ok s => writeRange i s x (j + 1) ws

/-- A write of the active lanes that leaves scale bytes as they are (06/R86). -/
def laneWrite (mask : BitVec 32) (lanes : Nat → Nat) : VWrite :=
  { lanes, mask, scales := none, quads := fun _ => false }

/-- A write of the active lanes and of the scale bytes of active quads (02/R33). -/
def scaledWrite (mask : BitVec 32) (lanes scales : Nat → Nat) : VWrite :=
  { lanes, mask, scales := some scales, quads := quadOn mask }

end Sys2Proof.Machine
end

