-- ==== Sys2Proof/Machine/Memory.lean ====
section
/-!
DEFINITION. Meanings: loads, stores, scratchpad accesses, split-phase loads, `kwait`, fences and barriers (06/R107-R111,
19/R303-R307, R314-R316), and the steps that answer them.
-/

namespace Sys2Proof.Machine

open Sys2Proof

/-! ### What loads and stores share -/

/-- Bytes of an access (06/R107). -/
def accessSize (t : Ty) : Nat := if t == .v then 128 else Ty.width t / 8

/-- The misaligned check of an access (06/R107). -/
def alignCheck (i : Instr) (g : Group) (x : Word) (n : Nat) : Except Halt Unit :=
  if x.toNat % n ≠ 0 then .error (misaligned i g x) else .ok ()

/-- The checks of a global address (06/R107). -/
def globalCheck (i : Instr) (g : Group) (x : Word) (n : Nat) : Except Halt Unit :=
  match alignCheck i g x n with
  | .error h => .error h
  | .ok _ => if x.toNat / 2 ^ 52 ≠ 0 then .error (badAddress i g x) else .ok ()

/-- The checks of a scratchpad offset (06/R107). -/
def scratchCheck (i : Instr) (s : State) (x : Word) (n : Nat) : Except Halt Unit :=
  match alignCheck i s.me x n with
  | .error h => .error h
  | .ok _ => if s.myTeam.inRegion x.toNat n then .ok () else .error (badAddress i s.me x)

/-- The lanes of a register from bytes at the offsets of `laneBytes`. -/
def lanesOf (act : BitVec 32) (bs : List Byte) (l : Nat) : Nat :=
  let before := ((List.range l).filter (laneOn act)).length
  numOf ((bs.drop (4 * before)).take 4)

/-- A vector result of a load: active lanes, scale bytes `0x7F` in active quads (06/R108). -/
def loadVector (i : Instr) (s : State) (f : Form) (act : BitVec 32) (bs : List Byte) : Except Halt State :=
  writeReg i s (Spec.of f.d) (scaledWrite act (lanesOf act bs) fun _ => 0x7F) true

/-- A scalar result of a load (06/R108). -/
def loadScalar (s : State) (f : Form) (t : Ty) (bs : List Byte) : State :=
  s.setScalar f.d (extend (numOf bs) (Ty.width t) (Ty.signed t))

/-- The active lanes' words of a vector to be stored, as runs by byte offset. -/
def laneRuns (act : BitVec 32) (v : VReg) : List (Nat × List Byte) :=
  ((List.range 32).filter (laneOn act)).map fun l => (4 * l, bytesOf (v.lane l) 4)

/-! ### Global memory -/

/-- `ld` (06/R108, 19/R304). With no active lane a `.v` load makes no access and no check of its address (log 53). -/
def execLd (f : Form) (s : State) : Host.Outcome State Fault Refusal :=
  run (.ld f) s fun info f =>
    let i := Instr.ld f
    let t := f.type info.base
    let x := s.me.address f
    let act := s.me.active f
    if t == .v && act == 0 then loadVector i s f 0 []
    else match globalCheck i s.me x (accessSize t) with
      | .error h => .error h
      | .ok _ =>
        if t == .v then
          match ranked (loadBytes i s x 128 (laneBytes act) false) (destReady i info f s) with
          | .error h => .error h
          | .ok (bs, s) => loadVector i s f act bs
        else match loadBytes i s x (accessSize t) (List.range (accessSize t)) true with
          | .error h => .error h
          | .ok (bs, s) => .ok (loadScalar s f t bs)

/-- The runs of bytes that a store writes (06/R109). -/
def storeData (s : State) (f : Form) (t : Ty) : List (Nat × List Byte) :=
  if t == .v then laneRuns (s.me.active f) (s.source f.d .v) else [(0, bytesOf (s.me.scalar f.d).toNat (accessSize t))]

/-- `st` (06/R109, 19/R304). With no active lane a `.v` store makes no access and no check of its address (log 53). -/
def execSt (f : Form) (s : State) : Host.Outcome State Fault Refusal :=
  run (.st f) s fun info f =>
    let i := Instr.st f
    let t := f.type info.base
    let x := s.me.address f
    if t == .v && s.me.active f == 0 then match s.me.returned (f.releases && f.wide) with
      | .error h => .error h
      | .ok _ =>
        let s := s.release f.releases f.wide
        (s.acknowledged f.releases f.sys).map fun _ => s
    else match globalCheck i s.me x (accessSize t) with
      | .error h => .error h
      | .ok _ =>
        match ranked (storeRuns i s x (accessSize t) (storeData s f t) (t != .v) f.releases f.wide f.sys)
            (readSources i info f false s) with
        | .error h => .error h
        | .ok s => readSources i info f false s

/-! ### Scratchpad -/

/-- The gating of an `ld.sp` of the bytes bs at x (14/R223), and double errors (26/R390). -/
def spLoadGate (i : Instr) (s : State) (x : Nat) (bs : List Nat) : Except Halt Unit :=
  match gateBytes (s.gates s.me.team) bs with
  | .wait => .error (.wait .gated)
  | .broken => .error (.trap { trapOf i s.me 13 (BitVec.ofNat 64 x) with place := 1 })
  | .go => if s.spBadAt s.me.team bs then .error (spFault i s x) else .ok ()

/-- The bytes that an access touches: of a `.v` access those of its active lanes (06/R108). -/
def touchedBytes (g : Group) (f : Form) (t : Ty) (x : Nat) : List Nat :=
  (if t == .v then laneBytes (g.active f) else List.range (accessSize t)).map (x + ·)

/-- `ld.sp` (06/R110). With no active lane a `.v` load makes no access and no check of its offset (log 53). -/
def execLdSp (f : Form) (s : State) : Host.Outcome State Fault Refusal :=
  run (.ldSp f) s fun info f =>
    let i := Instr.ldSp f
    let t := f.type info.base
    let x := s.me.address f
    let act := s.me.active f
    if t == .v && act == 0 then loadVector i s f 0 []
    else match scratchCheck i s x (accessSize t) with
      | .error h => .error h
      | .ok _ => match spLoadGate i s x.toNat (touchedBytes s.me f t x.toNat) with
        | .error h => .error h
        | .ok _ =>
          let bs := (touchedBytes s.me f t x.toNat).map (s.spRead s.me.team)
          if t == .v then loadVector i s f act bs else .ok (loadScalar s f t bs)

/-- Runs of bytes written to the scratchpad of a team. -/
def State.spRuns (s : State) (t x : Nat) (runs : List (Nat × List Byte)) : State :=
  s.spStore t (runs.flatMap fun r => r.2.zipIdx.map fun b => (x + r.1 + b.2, b.1))

/-- `st.sp` (06/R110): it waits for an open watermark and passes a broken one (14/R223). With no active lane a `.v` store
makes no access and no check of its offset (log 53). -/
def execStSp (f : Form) (s : State) : Host.Outcome State Fault Refusal :=
  run (.stSp f) s fun info f =>
    let i := Instr.stSp f
    let t := f.type info.base
    let x := s.me.address f
    if t == .v && s.me.active f == 0 then .ok s
    else match scratchCheck i s x (accessSize t) with
      | .error h => .error h
      | .ok _ => match readSources i info f false s with
        | .error h => .error h
        | .ok s' =>
          if storeGated (s.gates s.me.team) (touchedBytes s.me f t x.toNat) then .error (.wait .gated)
          else .ok (s'.spRuns s.me.team x.toNat (storeData s f t))

/-! ### Split-phase loads -/

/-- Arrival counter n (02/R22). -/
def Group.ctr (g : Group) (n : Nat) : Ctr := g.ctrs.get n { count := 0, damage := none }

def Group.setCtr (g : Group) (n : Nat) (c : Ctr) : Group := { g with ctrs := g.ctrs.set n c }

/-- What the home of a split-phase load has answered: the lanes, none for a lane of a damaged column, and the address of
the first damaged byte (19/R305, 26/R388). -/
abbrev SplitGot := List (Option Nat) × Option Word

/-- 128 bytes as lanes. -/
def wholeLanes (bs : List Byte) : SplitGot := ((List.range 32).map fun k => some (numOf ((bs.drop (4 * k)).take 4)), none)

/-- The answer to a split-phase load that left the module, with the bytes of its lanes (06/R108): an error damages every lane. -/
def Split.answered (l : Split) (ok : Bool) (bs : List Byte) : Split :=
  { l with got := some (if ok then ((List.range 32).map fun k => if laneOn l.mask k then some (lanesOf l.mask (overlay l.mine bs) k) else none, none)
      else (List.replicate 32 none, some l.va)) }

/-- The lanes that a split-phase load finds in DRAM: each column is read once, and one that cannot be read spoils its lanes. -/
def State.splitRam (s : State) (y : Group) (l : Split) (la : Nat) : SplitGot × State :=
  let w := s.who y l.va 0
  let offs := laneBytes l.mask
  let (bad, s) := (s.columnsOf (offs.map (la + ·))).foldl (fun (acc : List Nat × State) c =>
    let (ok, s) := acc.2.readColumn (64 * c) w
    (if ok then acc.1 else c :: acc.1, s)) ([], s)
  let lost (o : Nat) : Bool := s.codeOf (la + o) != 3 && bad.contains (s.columnOf (la + o))
  (((List.range 32).map fun k =>
      if !laneOn l.mask k || lost (4 * k) then none
      else some (numOf ((List.range 4).map fun j => Memory.read s.mem (s.located (la + 4 * k + j)))),
    (offs.find? lost).map fun o => l.va + BitVec.ofNat 64 o), s)

/-- The lanes that a split-phase load of a group finds on the module; none while bytes of the inbound window have not
landed (21/R329), or where another party answers. -/
def State.splitFinds (s : State) (y : Group) (l : Split) : Option (SplitGot × State) :=
  let p := s.part (corePart y.core)
  match l.home with
  | .ram la => some (s.splitRam y l la)
  | .window w =>
    if (laneBytes l.mask).any fun o => p.gatedAt (w + o) then none
    else some (wholeLanes ((List.range 128).map fun o => p.windowByte (w + o)), s)
  | .log w => some (wholeLanes ((List.range 128).map fun o => p.logByte (w + o)), s)
  | _ => none

/-- A split-phase load issued (19/R305): what stands on the module is read now, in program order with the group's other accesses (08/R125);
a request for the rest leaves the module. -/
def State.sendSplit (s : State) (l : Split) : State :=
  let keep (s : State) (l : Split) : State := { s with me := { s.me with splits := s.me.splits ++ [l] } }
  let q := s.nextId
  match l.home with
  | .comb la =>
    keep { s with nextId := q + 1, outbox := s.outbox ++ [.deviceRead s.meId q (linkOf la) (s.busAddr la) (laneBytes l.mask)] }
      { l with seq := some q, mine := s.me.heldBytes la (laneBytes l.mask) }
  | .remote m la =>
    keep { s with nextId := q + 1, outbox := s.outbox ++ [.remote s.meId q (s.portsTo m) m la (readOp 128 (laneBytes l.mask))] }
      { l with seq := some q, due := s.time + msCycles }
  | _ => match s.splitFinds s.me l with
    | some (r, s) => keep s { l with got := some r }
    | none => keep s l

/-- A split-phase load may be sent to a home (19/R306, 21/R327, 28/R410, R412). -/
def splitAllowed (i : Instr) (s : State) (va : Word) (h : Home) : Except Halt Unit :=
  match h with
  | .device _ | .signal _ => .error (.trap (homeTrap i s.me va))
  | .window w => if w < 0x1000 then .error (.trap (homeTrap i s.me va)) else .ok ()
  | .ram la =>
    if !s.reaches s.myPart la 128 then .error (.fail (homeTrap i s.me va) (s.refuse la))
    else if s.busyBytes la 128 then .error (.wait .register) else .ok ()
  | _ => .ok ()

/-- The count of an `lds` raised, once also where it parks (19/R305, R306). -/
def Group.raiseCtr (g : Group) (k : Nat) : Group :=
  if g.raised.isSome then g
  else { g.setCtr k { g.ctr k with count := (g.ctr k).count + 1 } with raised := some k }

/-- `lds` (19/R305, R306): on a Normal-SC page it is an acquire (18/R277). -/
def execLds (f : Form) (s : State) : Host.Outcome State Fault Refusal :=
  run (.lds f) s fun _ f =>
    let i := Instr.lds f
    let x := s.me.address f
    let act := s.me.active f
    let k := f.kc.toNat
    let up (s : State) : State := { s with me := s.me.raiseCtr k }
    if act == 0 then .ok s
    else match globalCheck i s.me x 128 with
      | .error h => .error h
      | .ok _ =>
        if (s.me.ctr k).count = 63 && s.me.raised.isNone then .error (.wait .counter)
        else if s.me.loading (Spec.of f.d) then .error (.wait .register)
        else match translated i s x false with
          | .error (.park va s) => .error (.park va (up s))
          | .error h => .error h
          | .ok (home, sc, s) => match ranked (splitAllowed i s x home) (s.me.inOrder home 128 false) with
            | .error h => .error h
            | .ok _ => .ok (up (s.sendSplit {
                dest := f.d, mask := act, va := x, home, ctr := k, acq := f.ord == 1 || sc, seq := none, due := 0, mine := []
                inner := s.me.hides (Spec.of f.d), got := none }))

/-- Lanes written to a register of the group at `ln`: its own, also while it lies in the trap save slots (19/R306), or the handler's
(`inner`). -/
def Group.landLanes (y : Group) (inner : Bool) (x : Spec) (w : VWrite) : Group :=
  match x with
  | .opf n => { y with ofile := y.ofile.set n (w.onto (y.ofile.get n .fresh)) }
  | .vec n =>
    match y.relief.filter fun _ => !inner && y.relieved n with
    | some r => { y with relief := some { r with regs := r.regs.zipIdx.map fun v => if v.2 = n % 8 then w.onto v.1 else v.1 } }
    | none => { y with regs := y.regs.set n (w.onto (y.regs.get n .fresh)) }
  | _ => y

/-- Lanes written at the place of the register. A register that a handler saw in the place of a relieved one is gone once it has
returned (log 6). -/
def State.landReg (s : State) (g : Nat) (inner : Bool) (x : Spec) (w : VWrite) : State :=
  let y := s.group g
  match x with
  | .vec n =>
    let e := if inner then y.entry n else y.ownEntry n
    if inner && !y.relieved n then s
    else if mapPlace e = 1 then s.writeSlot y.team (mapSlot e) w
    else s.modGroup g fun y => y.landLanes inner x w
  | _ => s.modGroup g fun y => y.landLanes inner x w

/-- Drops entry n of a list. -/
def dropAt {α : Type} (xs : List α) (n : Nat) : List α := xs.take n ++ xs.drop (n + 1)

/-- A reply writes its lanes, then lowers its counter; damage is noted for the next `kwait` (19/R305, 26/R388). -/
def State.landSplit (s : State) (g n : Nat) : State :=
  match (s.group g).splits[n]? with
  | none => s
  | some l => match (l.got.map fun r => (r, s)).or (s.splitFinds (s.group g) l) with
    | none => s
    | some ((xs, bad), s) =>
      let mask := maskOf fun k => laneOn l.mask k && (xs.getD k none).isSome
      let s := s.landReg g l.inner (Spec.of l.dest) (scaledWrite mask (fun k => (xs.getD k none).getD 0) fun _ => 0x7F)
      s.modGroup g fun y =>
        let c := y.ctr l.ctr
        { y.setCtr l.ctr { count := c.count - 1, damage := c.damage.or bad } with splits := dropAt y.splits n }

/-- The reply of outstanding load n of a group (19/R305); nothing happens while its bytes have not come. -/
def execLdsReply (g n : Nat) (s : State) : Host.Outcome State Fault Refusal := .next (s.landSplit g n)

/-- `kwait` (19/R307, 26/R388). -/
def execKwait (f : Form) (s : State) : Host.Outcome State Fault Refusal :=
  run (.kwait f) s fun _ f =>
    let k := f.a.toNat
    let c := s.me.ctr k
    let t := (s.me.scalar f.b).toNat
    if t < 63 && t < c.count then .error (.wait .kwait)
    else match c.damage with
      | some va => .error (.fail (homeTrap (.kwait f) s.me va) { s with me := s.me.setCtr k { c with damage := none } })
      | none => .ok s

/-! ### Fences and barriers -/

/-- `fence` (19/R314, 18/R279, R284): at a scope other than `.gp` it waits for the group's split-phase loads; ORD 00, 10 and 11
drain the combining buffer, and at `.sy` wait for the acknowledgements of what has been sent. -/
def execFence (f : Form) (s : State) : Host.Outcome State Fault Refusal :=
  run (.fence f) s fun _ f => match s.me.returned f.wide with
    | .error h => .error h
    | .ok _ =>
      let s := if f.ord == 1 then s else s.drainWc s.meId
      (s.acknowledged (f.ord != 1) f.sys).map fun _ => s

/-- Members of a cohort barrier are numbered by position and group index. -/
def cohortMember (pos g : Nat) : Nat := 64 * pos + g

/-- Every group of a team that has started has arrived at the cohort barrier or exited (19/R316); one that has ended
counts as arrived, one that has not started is awaited. -/
def State.posArrived (s : State) (b : Barrier) (pos team : Nat) : Bool :=
  match s.teams.get? team with
  | none => true
  | some t => match t.state with
    | .bound | .awarded => false
    | _ => (List.range t.ngroups).all fun g => t.exited.contains g || b.arrived.contains (cohortMember pos g)

/-- Everyone of a cohort that the mask names has arrived or exited. -/
def State.cohortDone (s : State) (k : Nat) (b : Barrier) : Bool :=
  (s.cohort k).teams.all fun p => !b.mask.testBit p.1 || s.posArrived b p.1 p.2

/-- Everyone of a team that the mask names has arrived or exited. -/
def Team.barDone (t : Team) (b : Barrier) : Bool :=
  (List.range t.ngroups).all fun k => !b.mask.testBit k || t.exited.contains k || b.arrived.contains k

/-- Everyone that the mask names has arrived or exited. -/
def State.barDone (s : State) (g : Group) (cohort : Bool) (b : Barrier) : Bool :=
  let t := s.team g.team
  if cohort then s.cohortDone t.cohort b else t.barDone b

def State.barrier (s : State) (g : Group) (cohort : Bool) : Barrier :=
  let t := s.team g.team
  if cohort then (s.cohort t.cohort).bar else t.bar

def State.setBarrier (s : State) (g : Group) (cohort : Bool) (b : Barrier) : State :=
  if cohort then s.modCohort (s.team g.team).cohort fun k => { k with bar := b }
  else s.modTeam g.team fun t => { t with bar := b }

/-- A group's own number at a barrier. -/
def State.barMember (s : State) (g : Group) (cohort : Bool) : Nat :=
  if cohort then cohortMember (s.team g.team).pos g.index else g.index

/-- The mask of a `bar`, 0 naming everyone; none where it is illegal (19/R315, R316). -/
def State.barMask (s : State) (g : Group) (cohort : Bool) (m : Nat) : Option Nat :=
  let t := s.team g.team
  let all : List Nat := if cohort then (s.cohort t.cohort).teams.keys else List.range t.ngroups
  let full := all.foldl (fun n k => n + 2 ^ k) 0
  let m := if m = 0 then full else m
  let own := if cohort then t.pos else g.index
  if m &&& full = m && m.testBit own then some m else none

/-- A barrier released (19/R315). -/
def Barrier.release (b : Barrier) : Barrier := { arrived := [], gen := b.gen + 1, mask := 0 }

/-- `bar` (19/R315, R316): the arrival is recorded once, when the group's earlier accesses are performed; the group leaves
when its generation has been released. -/
def execBar (f : Form) (s : State) : Host.Outcome State Fault Refusal :=
  run (.bar f) s fun _ f =>
    let i := Instr.bar f
    let cohort := f.scope == 3
    let g := s.me
    let b := s.barrier g cohort
    match g.bargen with
    | some n =>
      if n ≠ b.gen then .ok { s with me := { g with bargen := none } }
      else if s.barDone g cohort b then .ok { s.setBarrier g cohort b.release with me := { g with bargen := none } }
      else .error (.wait .barrier)
    | none =>
      match s.barMask g cohort f.imm.toNat with
      | none => .error (illegal i g)
      | some m =>
        if b.mask ≠ 0 && b.mask ≠ m then .error (illegal i g)
        else if !g.splits.isEmpty then .error (.wait .answer)
        else
          let s := s.drainWc s.meId
          let b := { b with mask := m, arrived := b.arrived ++ [s.barMember g cohort] }
          if s.barDone g cohort b then .ok (s.setBarrier g cohort b.release)
          else
            let s := s.setBarrier g cohort b
            .error (.held .barrier { s with me := { s.me with bargen := some b.gen } })

/-- The barrier at which a group has arrived has released, or everyone that it awaits has arrived or exited: the group no
longer waits there. -/
def State.released (s : State) (x : Group) : Bool :=
  let waits (cohort : Bool) : Bool :=
    (s.barrier x cohort).arrived.contains (s.barMember x cohort) && !s.barDone x cohort (s.barrier x cohort)
  x.bargen.isSome && !waits false && !waits true

/-- A team barrier at which someone waits is released by an exit that completes its generation (19/R316). -/
def State.endTeamBar (s : State) (t : Nat) : State :=
  let x := s.team t
  if !x.bar.arrived.isEmpty && x.barDone x.bar then s.modTeam t fun x => { x with bar := x.bar.release } else s

/-- The same of a cohort barrier. -/
def State.endCohortBar (s : State) (k : Nat) : State :=
  let b := (s.cohort k).bar
  if !b.arrived.isEmpty && s.cohortDone k b then s.modCohort k fun x => { x with bar := b.release } else s

/-- An arrival withdrawn by a pre-emption or a squash, if the barrier has not released (08/R126, 19/R316). -/
def State.withdrawBar (s : State) (g : Nat) : State :=
  let x := s.group g
  match x.bargen with
  | none => s
  | some n =>
    let off (cohort : Bool) (s : State) : State :=
      let b := s.barrier x cohort
      if b.gen = n then
        let left := b.arrived.filter (· ≠ s.barMember x cohort)
        s.setBarrier x cohort { b with arrived := left, mask := if left.isEmpty then 0 else b.mask }
      else s
    (off true (off false s)).modGroup g fun x => { x with bargen := none }

/-! ### Time limits -/

/-- A packet to another module without a reply for 1 ms (28/R404): unrecoverable translation, for a split-phase load at
the next `kwait`. -/
def State.timeOut (s : State) (g : Nat) (device : Bool) : State :=
  s.modGroup g fun x =>
    let late (due : Nat) (answered : Bool) : Bool := due != 0 && due ≤ s.time && !answered
    let isRemote (seq : Nat) : Bool := s.outbox.any fun o => match o with
      | .remote h q .. => h == g && q == seq
      | _ => false
    { x with
      asked := x.asked.map fun a =>
        if late a.due a.answer.isSome && isRemote a.seq != device then { a with answer := some (false, []) } else a
      splits := x.splits.map fun l => match l.seq with
        | some q => if late l.due l.got.isSome && isRemote q != device then l.answered false [] else l
        | none => l }

/-- A packet of the hardware without a reply for 1 ms. -/
def HwAsk.late (a : HwAsk) (t : Nat) : HwAsk :=
  if a.answer.isNone && a.due ≠ 0 && a.due ≤ t then { a with answer := some (false, []) } else a

/-- Remote timeout of the group in `subject`, or of the hardware where it is 0 (28/R404). -/
def execRemoteTimeout (s : State) : Host.Outcome State Fault Refusal :=
  .next (if s.subject = 0 then { s with hwAsks := s.hwAsks.map (·.late s.time) } else s.timeOut s.subject false)

/-- Device completion timeout of the group in `subject` (28/R407). -/
def execDeviceCompletionTimeout (s : State) : Host.Outcome State Fault Refusal := .next (s.timeOut s.subject true)

/-- An answer comes before the time limit, of which 0 is none (28/R404, R407). -/
def inTime (time due : Nat) : Bool := due = 0 || time < due

/-- A copy's own request takes its answer. -/
def Copy.answered (c : Copy) (time seq : Nat) (ok : Bool) (bytes : List Byte) : Copy :=
  { c with ask := c.ask.map fun a =>
    if a.seq = seq && a.answer.isNone && inTime time a.due then { a with answer := some (ok, bytes) } else a }

/-- An answer to a request of a group or of a copy, or the acknowledgement of a write (18/R278, R284, 28/R404): the one that carries the
sequence number takes it, but for an answer that comes too late. -/
def State.answer (s : State) (g seq : Nat) (ok : Bool) (bytes : List Byte) : State :=
  let s : State := { s with
    cores := s.cores.update fun _ (k : Core) => { k with copies := k.copies.update fun _ c => c.answered s.time seq ok bytes }
    hwAsks := s.hwAsks.map fun a =>
      if a.seq = seq && a.answer.isNone && inTime s.time a.due then { a with answer := some (ok, bytes) } else a }
  s.modGroup g fun x =>
    { x with
      posted := x.posted.filter fun w => w.1 != seq
      asked := x.asked.map fun a =>
        if a.seq = seq && a.answer.isNone && inTime s.time a.due then { a with answer := some (ok, bytes) } else a
      splits := x.splits.map fun l =>
        if l.seq = some seq && l.got.isNone && inTime s.time l.due then l.answered ok bytes else l }

/-- A completion of a device or of host memory (18/R278). -/
def execDeviceCompletion (g seq : Nat) (ok : Bool) (bytes : List Byte) (s : State) : Host.Outcome State Fault Refusal :=
  .next (s.answer g seq ok bytes)

/-- 1 µs in cycles of 1.1 GHz. -/
def usCycles : Nat := 1100

/-- The combining buffer of the group in `subject` drains 1 µs after its last store (18/R279). -/
def execWcIdleDrain (s : State) : Host.Outcome State Fault Refusal :=
  let g := s.subject
  let last := (s.group g).wc.foldl (fun n l => max n l.last) 0
  .next (if last + usCycles ≤ s.time then s.drainWc g else s)

end Sys2Proof.Machine
end

