-- ==== Sys2Proof/Machine/Scalar.lean ====
section
/-!
DEFINITION. Meanings: scalar integer instructions (06/R92-R97).
-/

namespace Sys2Proof.Machine

open Sys2Proof

/-- A scalar operation of two operands at the type's width, its result extended (06/R92, R93). -/
def scalarOp (i : Instr) (s : State) (op : Nat → Nat → Nat → Nat) : Host.Outcome State Fault Refusal :=
  run i s fun info f =>
    let t := f.type info.base
    let w := Ty.width t
    let a := (s.me.scalar f.a).toNat % 2 ^ w
    let y := (s.me.second f).toNat % 2 ^ w
    .ok (s.setScalar f.d (extend (op w a y) w (Ty.signed t)))

/-- The w-bit pattern of an integer. -/
def patOf (w : Nat) (x : Int) : Nat := (BitVec.ofInt w x).toNat

/-- The quotient truncated toward zero, all ones for a divisor 0 (06/R94). -/
def divInt (w a y : Nat) : Nat := if y = 0 then 2 ^ w - 1 else patOf w ((signedOf w a).tdiv (signedOf w y))

/-- The remainder, whose sign follows the dividend; the dividend for a divisor 0 (06/R94). -/
def remInt (w a y : Nat) : Nat := if y = 0 then a else patOf w ((signedOf w a).tmod (signedOf w y))

def divNat (w a y : Nat) : Nat := if y = 0 then 2 ^ w - 1 else a / y

def remNat (_w a y : Nat) : Nat := if y = 0 then a else a % y

/-- `mov` (06/R93): A + I. -/
def execMov (f : Form) (s : State) : Host.Outcome State Fault Refusal :=
  run (.mov f) s fun info f =>
    let t := f.type info.base
    .ok (s.setScalar f.d (extend (s.me.scalar f.a + f.imm).toNat (Ty.width t) (Ty.signed t)))

/-- `add` (06/R93). -/
def execAdd (f : Form) (s : State) : Host.Outcome State Fault Refusal :=
  scalarOp (.add f) s (fun _ a y => a + y)

/-- `sub` (06/R93). -/
def execSub (f : Form) (s : State) : Host.Outcome State Fault Refusal :=
  scalarOp (.sub f) s (fun w a y => a + 2 ^ w - y)

/-- `mul` (06/R93). -/
def execMul (f : Form) (s : State) : Host.Outcome State Fault Refusal :=
  scalarOp (.mul f) s (fun _ a y => a * y)

/-- `mulh` (06/R93). -/
def execMulh (f : Form) (s : State) : Host.Outcome State Fault Refusal :=
  scalarOp (.mulh f) s (fun w a y => patOf (2 * w) (signedOf w a * signedOf w y) / 2 ^ w)

/-- `mulhu` (06/R93). -/
def execMulhu (f : Form) (s : State) : Host.Outcome State Fault Refusal :=
  scalarOp (.mulhu f) s (fun w a y => a * y / 2 ^ w)

/-- `div` (06/R94). -/
def execDiv (f : Form) (s : State) : Host.Outcome State Fault Refusal :=
  scalarOp (.div f) s (divInt)

/-- `divu` (06/R94). -/
def execDivu (f : Form) (s : State) : Host.Outcome State Fault Refusal :=
  scalarOp (.divu f) s (divNat)

/-- `rem` (06/R94). -/
def execRem (f : Form) (s : State) : Host.Outcome State Fault Refusal :=
  scalarOp (.rem f) s (remInt)

/-- `remu` (06/R94). -/
def execRemu (f : Form) (s : State) : Host.Outcome State Fault Refusal :=
  scalarOp (.remu f) s (remNat)

/-- `and` (06/R93). -/
def execAnd (f : Form) (s : State) : Host.Outcome State Fault Refusal :=
  scalarOp (.and f) s (fun _ a y => a &&& y)

/-- `or` (06/R93). -/
def execOr (f : Form) (s : State) : Host.Outcome State Fault Refusal :=
  scalarOp (.or f) s (fun _ a y => a ||| y)

/-- `xor` (06/R93). -/
def execXor (f : Form) (s : State) : Host.Outcome State Fault Refusal :=
  scalarOp (.xor f) s (fun _ a y => a ^^^ y)

/-- `andn` (06/R93). -/
def execAndn (f : Form) (s : State) : Host.Outcome State Fault Refusal :=
  scalarOp (.andn f) s (fun _ a y => a &&& (2 ^ 64 - 1 - y))

/-- `shl` (06/R93). -/
def execShl (f : Form) (s : State) : Host.Outcome State Fault Refusal :=
  scalarOp (.shl f) s (fun _ a y => a <<< (y % 64))

/-- `shr` (06/R93). -/
def execShr (f : Form) (s : State) : Host.Outcome State Fault Refusal :=
  scalarOp (.shr f) s (fun _ a y => a >>> (y % 64))

/-- `sra` (06/R93). -/
def execSra (f : Form) (s : State) : Host.Outcome State Fault Refusal :=
  scalarOp (.sra f) s (fun _ a y => ((BitVec.ofNat 64 a).sshiftRight (y % 64)).toNat)

/-- `rol` (06/R93). -/
def execRol (f : Form) (s : State) : Host.Outcome State Fault Refusal :=
  scalarOp (.rol f) s (fun _ a y => ((BitVec.ofNat 64 a).rotateLeft (y % 64)).toNat)

/-- The four minima and maxima (06/R93): the comparison's sign is the result's extension, whatever the type's own. -/
def minmaxOp (i : Instr) (s : State) (signed greater : Bool) : Host.Outcome State Fault Refusal :=
  run i s fun info f =>
    let w := Ty.width (f.type info.base)
    let a := (s.me.scalar f.a).toNat % 2 ^ w
    let y := (s.me.second f).toNat % 2 ^ w
    let r := if compareInt 2 w signed a y then (if greater then y else a) else (if greater then a else y)
    .ok (s.setScalar f.d (extend r w signed))

/-- `min` (06/R93). -/
def execMin (f : Form) (s : State) : Host.Outcome State Fault Refusal := minmaxOp (.min f) s true false
/-- `max` (06/R93). -/
def execMax (f : Form) (s : State) : Host.Outcome State Fault Refusal := minmaxOp (.max f) s true true
/-- `minu` (06/R93). -/
def execMinu (f : Form) (s : State) : Host.Outcome State Fault Refusal := minmaxOp (.minu f) s false false
/-- `maxu` (06/R93). -/
def execMaxu (f : Form) (s : State) : Host.Outcome State Fault Refusal := minmaxOp (.maxu f) s false true

/-- `cmp` (06/R95). -/
def execCmp (f : Form) (s : State) : Host.Outcome State Fault Refusal :=
  run (.cmp f) s fun info f =>
    let t := f.type info.base
    let r := compareInt f.fn.toNat (Ty.width t) (Ty.signed t) (s.me.scalar f.a).toNat (s.me.second f).toNat
    .ok (s.setPred f.d.toNat (if r then 0xFFFF_FFFF else 0))

/-- `sel` (06/R96). -/
def execSel (f : Form) (s : State) : Host.Outcome State Fault Refusal :=
  run (.sel f) s fun _ f =>
    .ok (s.setScalar f.d (if s.me.scalar f.cSpec ≠ 0 then s.me.scalar f.a else s.me.scalar f.b))

/-- Zero bits of the low n bits from bit n-1 down. -/
def leadingZeros (x : Nat) : Nat → Nat
  | 0 => 0
  | n + 1 => if x.testBit n then 0 else leadingZeros x n + 1

/-- Zero bits from bit 0 up, of n bits. -/
def trailingZeros (x : Nat) : Nat → Nat
  | 0 => 0
  | n + 1 => if x % 2 = 1 then 0 else trailingZeros (x / 2) n + 1

/-- One bits among the low n. -/
def oneBits (x : Nat) : Nat → Nat
  | 0 => 0
  | n + 1 => x % 2 + oneBits (x / 2) n

/-- `clz` (06/R96). -/
def execClz (f : Form) (s : State) : Host.Outcome State Fault Refusal :=
  run (.clz f) s fun _ f => .ok (s.setScalar f.d (BitVec.ofNat 64 (leadingZeros (s.me.scalar f.a).toNat 64)))

/-- `ctz` (06/R96). -/
def execCtz (f : Form) (s : State) : Host.Outcome State Fault Refusal :=
  run (.ctz f) s fun _ f => .ok (s.setScalar f.d (BitVec.ofNat 64 (trailingZeros (s.me.scalar f.a).toNat 64)))

/-- `popc` (06/R96). -/
def execPopc (f : Form) (s : State) : Host.Outcome State Fault Refusal :=
  run (.popc f) s fun _ f => .ok (s.setScalar f.d (BitVec.ofNat 64 (oneBits (s.me.scalar f.a).toNat 64)))

/-- `sxt` (06/R96): FN decides the extension. -/
def execSxt (f : Form) (s : State) : Host.Outcome State Fault Refusal :=
  run (.sxt f) s fun info f =>
    .ok (s.setScalar f.d (extend (s.me.scalar f.a).toNat (Ty.width (f.type info.base)) true))

/-- `zxt` (06/R96). -/
def execZxt (f : Form) (s : State) : Host.Outcome State Fault Refusal :=
  run (.zxt f) s fun info f =>
    .ok (s.setScalar f.d (extend (s.me.scalar f.a).toNat (Ty.width (f.type info.base)) false))

end Sys2Proof.Machine
end

