-- ==== Sys2Proof/Machine/VectorInt.lean ====
section
/-!
DEFINITION. Meanings: vector integer, lane and quad instructions (06/R97-R106).
-/

namespace Sys2Proof.Machine

open Sys2Proof

/-- The element-wise form of 06/R98: sources read before anything is written, `op w signed a b c` its low w bits. -/
def elementOp (i : Instr) (s : State) (op : Nat → Bool → Nat → Nat → Nat → Nat) : Host.Outcome State Fault Refusal :=
  run i s fun info f =>
    match readSources i info f false s with
    | .error h => .error h
    | .ok s1 => match destReady i info f s1 with
      | .error h => .error h
      | .ok _ =>
        let t := f.type info.base
        let w := elemWidth t
        let a := s.source f.a t
        let b := s.source f.b t
        let c := s.source f.cSpec t
        let lanes (l : Nat) := packNat w
          (fun j => op w (Ty.signed t) (digit w (a.lane l) j) (digit w (b.lane l) j) (digit w (c.lane l) j)) (32 / w)
        writeReg i s1 (Spec.of f.d) (laneWrite (s.me.active f) lanes) true

/-- `vaddInt` (06/R99). -/
def execVaddInt (f : Form) (s : State) : Host.Outcome State Fault Refusal :=
  elementOp (.vaddInt f) s (fun _ _ a b _ => a + b)

/-- `vsubInt` (06/R99). -/
def execVsubInt (f : Form) (s : State) : Host.Outcome State Fault Refusal :=
  elementOp (.vsubInt f) s (fun w _ a b _ => a + 2 ^ w - b)

/-- `vmulInt` (06/R99). -/
def execVmulInt (f : Form) (s : State) : Host.Outcome State Fault Refusal :=
  elementOp (.vmulInt f) s (fun _ _ a b _ => a * b)

/-- `vmulh` (06/R99). -/
def execVmulh (f : Form) (s : State) : Host.Outcome State Fault Refusal :=
  elementOp (.vmulh f) s (fun w sg a b _ => if sg then patOf (2 * w) (signedOf w a * signedOf w b) / 2 ^ w else a * b / 2 ^ w)

/-- `vmad` (06/R99). -/
def execVmad (f : Form) (s : State) : Host.Outcome State Fault Refusal :=
  elementOp (.vmad f) s (fun _ _ a b c => a * b + c)

/-- `vand` (06/R99). -/
def execVand (f : Form) (s : State) : Host.Outcome State Fault Refusal :=
  elementOp (.vand f) s (fun _ _ a b _ => a &&& b)

/-- `vor` (06/R99). -/
def execVor (f : Form) (s : State) : Host.Outcome State Fault Refusal :=
  elementOp (.vor f) s (fun _ _ a b _ => a ||| b)

/-- `vxor` (06/R99). -/
def execVxor (f : Form) (s : State) : Host.Outcome State Fault Refusal :=
  elementOp (.vxor f) s (fun _ _ a b _ => a ^^^ b)

/-- `vandn` (06/R99). -/
def execVandn (f : Form) (s : State) : Host.Outcome State Fault Refusal :=
  elementOp (.vandn f) s (fun w _ a b _ => a &&& (2 ^ w - 1 - b))

/-- `vshl` (06/R99). -/
def execVshl (f : Form) (s : State) : Host.Outcome State Fault Refusal :=
  elementOp (.vshl f) s (fun w _ a b _ => a * 2 ^ (b % w))

/-- `vshr` (06/R99). -/
def execVshr (f : Form) (s : State) : Host.Outcome State Fault Refusal :=
  elementOp (.vshr f) s (fun w _ a b _ => a / 2 ^ (b % w))

/-- `vsra` (06/R99). -/
def execVsra (f : Form) (s : State) : Host.Outcome State Fault Refusal :=
  elementOp (.vsra f) s (fun w _ a b _ => ((BitVec.ofNat w a).sshiftRight (b % w)).toNat)

/-- `vminInt` (06/R99). -/
def execVminInt (f : Form) (s : State) : Host.Outcome State Fault Refusal :=
  elementOp (.vminInt f) s (fun w sg a b _ => if compareInt 2 w sg a b then a else b)

/-- `vmaxInt` (06/R99). -/
def execVmaxInt (f : Form) (s : State) : Host.Outcome State Fault Refusal :=
  elementOp (.vmaxInt f) s (fun w sg a b _ => if compareInt 2 w sg a b then b else a)

/-- `vcmpInt` (06/R99). -/
def execVcmpInt (f : Form) (s : State) : Host.Outcome State Fault Refusal :=
  elementOp (.vcmpInt f) s (fun w sg a b _ => if compareInt f.fn.toNat w sg a b then 2 ^ w - 1 else 0)

/-- `vsel` (06/R102). -/
def execVsel (f : Form) (s : State) : Host.Outcome State Fault Refusal :=
  elementOp (.vsel f) s (fun w _ a b c => (a &&& c) ||| (b &&& (2 ^ w - 1 - c)))

/-- `vclz` (06/R99). -/
def execVclz (f : Form) (s : State) : Host.Outcome State Fault Refusal :=
  elementOp (.vclz f) s (fun w _ a _ _ => leadingZeros a w)

/-- `vpopc` (06/R99). -/
def execVpopc (f : Form) (s : State) : Host.Outcome State Fault Refusal :=
  elementOp (.vpopc f) s (fun w _ a _ _ => oneBits a w)

/-- The clamp of `vpack` (06/R103): a signed 32-bit lane to the range of the type. -/
def packLane (w : Nat) (signed : Bool) (x : Nat) : Nat :=
  let k := signedOf 32 x
  let lo : Int := if signed then -(2 ^ (w - 1) : Nat) else 0
  let hi : Int := if signed then (2 ^ (w - 1) : Nat) - 1 else (2 ^ w : Nat) - 1
  patOf w (if k < lo then lo else if hi < k then hi else k)

/-- The lane-wise form: whole 32-bit lanes of A. -/
def laneOp (i : Instr) (s : State) (op : Ty → Nat → Nat) : Host.Outcome State Fault Refusal :=
  run i s fun info f =>
    match readSources i info f false s with
    | .error h => .error h
    | .ok s1 => match destReady i info f s1 with
      | .error h => .error h
      | .ok _ =>
        let t := f.type info.base
        let a := s.source f.a t
        writeReg i s1 (Spec.of f.d) (laneWrite (s.me.active f) fun l => op t (a.lane l)) true

/-- `vpack` (06/R103). -/
def execVpack (f : Form) (s : State) : Host.Outcome State Fault Refusal :=
  laneOp (.vpack f) s fun t x => packLane (elemWidth t) (Ty.signed t) x

/-- `vunpack` (06/R103). -/
def execVunpack (f : Form) (s : State) : Host.Outcome State Fault Refusal :=
  laneOp (.vunpack f) s fun t x => (extend x (elemWidth t) (Ty.signed t)).toNat % 2 ^ 32

/-- `vmov` (06/R100): lanes, and the scale bytes of active quads. -/
def execVmov (f : Form) (s : State) : Host.Outcome State Fault Refusal :=
  run (.vmov f) s fun info f =>
    match readSources (.vmov f) info f false s with
    | .error h => .error h
    | .ok s1 => match destReady (.vmov f) info f s1 with
      | .error h => .error h
      | .ok _ =>
        let a := s.source f.a (f.type info.base)
        writeReg (.vmov f) s1 (Spec.of f.d) (scaledWrite (s.me.active f) a.lane a.scaleByte) true

/-- `vcmpp` (06/R101): the bits of active lanes. -/
def execVcmppInt (f : Form) (s : State) : Host.Outcome State Fault Refusal :=
  run (.vcmppInt f) s fun info f =>
    match readSources (.vcmppInt f) info f false s with
    | .error h => .error h
    | .ok s1 =>
      let t := f.type info.base
      let a := s.source f.a t
      let b := s.source f.b t
      let m := s.me.active f
      let old := s.me.pred f.d.toNat
      .ok (s1.setPred f.d.toNat (maskOf fun l =>
        if laneOn m l then compareInt f.fn.toNat 32 (Ty.signed t) (a.lane l) (b.lane l) else laneOn old l))

/-- `vget` (06/R97): one lane, whatever `em` holds; a queue is popped even with no active lane. -/
def execVget (f : Form) (s : State) : Host.Outcome State Fault Refusal :=
  run (.vget f) s fun info f =>
    match readSources (.vget f) info f true s with
    | .error h => .error h
    | .ok s1 =>
      .ok (s1.setScalar f.d (BitVec.ofNat 64 ((s.source f.a .v).lane ((s.me.scalar f.b).toNat % 32))))

/-- The lane moves of 06/R104: lane l takes lane `sel n l` of A, n being B mod 32. -/
def shuffleOp (i : Instr) (s : State) (sel : Nat → Nat → Nat) : Host.Outcome State Fault Refusal :=
  run i s fun info f =>
    match readSources i info f false s with
    | .error h => .error h
    | .ok s1 => match destReady i info f s1 with
      | .error h => .error h
      | .ok _ =>
        let a := s.source f.a .v
        let n := (s.me.scalar f.b).toNat % 32
        writeReg i s1 (Spec.of f.d) (laneWrite (s.me.active f) fun l => a.lane (sel n l)) true

/-- `vshfl.idx` (06/R104): a vector B gives each lane its own index, a scalar B one index for all. `laneid` and `quadid`
are no scalar sources, so they count as vectors of their lane values. -/
def execVshflIdx (f : Form) (s : State) : Host.Outcome State Fault Refusal :=
  shuffleOp (.vshflIdx f) s fun _ l => (s.source f.b .v).lane l % 32

/-- `vshfl.up` (06/R104). -/
def execVshflUp (f : Form) (s : State) : Host.Outcome State Fault Refusal :=
  shuffleOp (.vshflUp f) s fun n l => if n ≤ l then l - n else l

/-- `vshfl.dn` (06/R104). -/
def execVshflDn (f : Form) (s : State) : Host.Outcome State Fault Refusal :=
  shuffleOp (.vshflDn f) s fun n l => if l + n ≤ 31 then l + n else l

/-- `vshfl.xor` (06/R104). -/
def execVshflXor (f : Form) (s : State) : Host.Outcome State Fault Refusal :=
  shuffleOp (.vshflXor f) s fun n l => l ^^^ n

/-- `vshfl.bc` (06/R104). -/
def execVshflBc (f : Form) (s : State) : Host.Outcome State Fault Refusal :=
  shuffleOp (.vshflBc f) s fun n _ => n

/-- `qswz` (06/R105): lane j of a quad takes the lane its selector names; scale bytes move with active quads. -/
def execQswz (f : Form) (s : State) : Host.Outcome State Fault Refusal :=
  run (.qswz f) s fun info f =>
    match readSources (.qswz f) info f false s with
    | .error h => .error h
    | .ok s1 => match destReady (.qswz f) info f s1 with
      | .error h => .error h
      | .ok _ =>
        let a := s.source f.a .u32
        let lanes (l : Nat) := a.lane (l / 4 * 4 + digit 2 f.imm.toNat (l % 4))
        writeReg (.qswz f) s1 (Spec.of f.d) (scaledWrite (s.me.active f) lanes a.scaleByte) true

end Sys2Proof.Machine
end

