-- ==== Sys2Proof/Machine/VectorFloat.lean ====
section
/-!
DEFINITION. Meanings: vector floating point, element by element (15/R231-R240), and the packed dot products (15/R245).
-/

namespace Sys2Proof.Machine

open Sys2Proof

/-! ### Exceptions and delivery (08/R129, 15/R231) -/

/-- The flags raised in the active lanes. -/
def activeFlags (m : BitVec 32) (res : List FRes) : Nat :=
  (res.zipIdx).foldl (fun acc p => if laneOn m p.2 then acc ||| p.1.flags else acc) 0

/-- The trap of the highest-ranked enabled exception raised in an active lane (08/R129): `res` holds the default result and
the flags of each lane. -/
def fpTrap (i : Instr) (info : Info) (f : Form) (g : Group) (res : List FRes) : Option Trap :=
  let m := g.active f
  let hit (k l : Nat) : Bool := laneOn m l && (res.getD l ⟨0, 0⟩).flags.testBit k
  ((List.range 5).find? fun k => (fmTraps g.fm).testBit k && (List.range 32).any (hit k)).map fun k =>
    let low := ((List.range 32).find? (hit k)).getD 0
    { trapOf i g (k + 1) (BitVec.ofNat 64 (res.getD low ⟨0, 0⟩).bits) with
      tlm := maskOf (hit k), place := whereCode info g f }

/-- Flags set at commit (12/R185). -/
def State.raise (s : State) (flags : Nat) : State :=
  { s with me := { s.me with ff := s.me.ff ||| BitVec.ofNat 32 flags } }

/-- A result per lane, FP64 in a pair of registers: trap, or flags and destination with scale bytes `0x7F` (15/R231). -/
def fpFinish (i : Instr) (info : Info) (f : Form) (g : Group) (s : State) (wide : Bool) (res : List FRes) :
    Except Halt State :=
  match fpTrap i info f g res with
  | some t => .error (.trap t)
  | none =>
    let m := g.active f
    let w (k : Nat) : VWrite := scaledWrite m (fun l => digit 32 (res.getD l ⟨0, 0⟩).bits k) fun _ => 0x7F
    writeRange i (s.raise (activeFlags m res)) (Spec.of f.d) 0 (if wide then [w 0, w 1] else [w 0])

/-- The results of the elements of one lane, packed, with the flags of all. -/
def packLane32 (w : Nat) (elem : Nat → FRes) : FRes :=
  let xs := (List.range (32 / w)).map elem
  { bits := packNat w (fun j => (xs.getD j ⟨0, 0⟩).bits) (32 / w), flags := xs.foldl (fun a x => a ||| x.flags) 0 }

/-- The results of an element-wise operation, lane by lane (15/R231). -/
def fpResults (s : State) (f : Form) (t : Ty) (op : Nat → Nat → Nat → FRes) : List FRes :=
  if t = .f64 then
    (List.range 32).map fun l => op (s.source64 f.a l) (s.source64 f.b l) (s.source64 f.cSpec l)
  else
    let w := elemWidth t
    let a := s.source f.a t
    let b := s.source f.b t
    let c := s.source f.cSpec t
    (List.range 32).map fun l =>
      packLane32 w fun j => op (digit w (a.lane l) j) (digit w (b.lane l) j) (digit w (c.lane l) j)

/-- The element-wise form of 15/R231. `op` sees the element format, the patterns of A, B and C. -/
def fpElem (i : Instr) (s : State) (rounds : Bool) (op : Fmt → Nat → Nat → Nat → FRes) : Host.Outcome State Fault Refusal :=
  runIf i s (fun _ _ => rounds && (arithMode s.me.fm).isNone) fun info f =>
    match readSources i info f false s with
    | .error h => .error h
    | .ok s1 => match destReady i info f s1 with
      | .error h => .error h
      | .ok _ =>
        let t := f.type info.base
        fpFinish i info f s.me s1 (t == .f64) (fpResults s f t (op ((fmtOf t).getD fmtF32)))

/-- The mode of arithmetic, RNE where the code is reserved (such an instruction is illegal). -/
def Group.mode (g : Group) : Mode := (arithMode g.fm).getD .rne

def Group.ftz (g : Group) : Bool := fmFtz g.fm

/-- An exact result rounded once (12/R197-R200). -/
def Group.deliver (g : Group) (fm : Fmt) (r : ExRes) : FRes := r.deliver fm g.mode g.ftz

/-- The mode is toward -infinity (12/R197, zero results). -/
def Group.down (g : Group) : Bool := g.mode == .down

/-! ### Arithmetic (15/R233) -/

/-- `vaddFp` (15/R233). -/
def execVaddFp (f : Form) (s : State) : Host.Outcome State Fault Refusal :=
  fpElem (.vaddFp f) s true fun fm a b _ =>
    s.me.deliver fm (numAdd s.me.down (fm.read s.me.ftz a) (fm.read s.me.ftz b))

/-- `vsubFp` (15/R233). -/
def execVsubFp (f : Form) (s : State) : Host.Outcome State Fault Refusal :=
  fpElem (.vsubFp f) s true fun fm a b _ =>
    s.me.deliver fm (numAdd s.me.down (fm.read s.me.ftz a) (fm.read s.me.ftz b).negate)

/-- `vmulFp` (15/R233). -/
def execVmulFp (f : Form) (s : State) : Host.Outcome State Fault Refusal :=
  fpElem (.vmulFp f) s true fun fm a b _ =>
    s.me.deliver fm (numMul (fm.read s.me.ftz a) (fm.read s.me.ftz b))

/-- `vfma` (15/R233). -/
def execVfma (f : Form) (s : State) : Host.Outcome State Fault Refusal :=
  fpElem (.vfma f) s true fun fm a b c =>
    s.me.deliver fm (numFma s.me.down (fm.read s.me.ftz a) (fm.read s.me.ftz b) (fm.read s.me.ftz c))

/-! ### Selection and comparison (15/R234, R235) -/

/-- `vminFp` (15/R234). -/
def execVminFp (f : Form) (s : State) : Host.Outcome State Fault Refusal :=
  fpElem (.vminFp f) s false fun fm a b _ => (numSelect true (fm.read s.me.ftz a) (fm.read s.me.ftz b)).keep fm

/-- `vmaxFp` (15/R234). -/
def execVmaxFp (f : Form) (s : State) : Host.Outcome State Fault Refusal :=
  fpElem (.vmaxFp f) s false fun fm a b _ => (numSelect false (fm.read s.me.ftz a) (fm.read s.me.ftz b)).keep fm

/-- The comparison of 15/R235 by FN: whether it holds, and NV. -/
def numCompare (fn : Nat) (x y : FpNum) : Bool × Nat :=
  let un := x.isNan || y.isNan
  let sig := x.isSig || y.isSig
  let holds := match fn with
    | 0 => !un && numEq x y
    | 1 => un || !numEq x y
    | 6 => !un
    | 7 => un
    | _ => !un && compareCode fn (numLt x y) (numEq x y)
  (holds, if sig || (un && 2 ≤ fn && fn ≤ 5) then flNV else 0)

/-- `vcmpFp` (15/R235). -/
def execVcmpFp (f : Form) (s : State) : Host.Outcome State Fault Refusal :=
  fpElem (.vcmpFp f) s false fun fm a b _ =>
    let r := numCompare f.fn.toNat (fm.read s.me.ftz a) (fm.read s.me.ftz b)
    { bits := if r.1 then 2 ^ fm.width - 1 else 0, flags := r.2 }

/-- `vcmppFp` (15/R235): bits of the active lanes; the default result of a lane is its bit. -/
def execVcmppFp (f : Form) (s : State) : Host.Outcome State Fault Refusal :=
  run (.vcmppFp f) s fun info f =>
    match readSources (.vcmppFp f) info f false s with
    | .error h => .error h
    | .ok s1 =>
      let t := f.type info.base
      let fm := (fmtOf t).getD fmtF32
      let res := fpResults s f t fun a b _ =>
        let r := numCompare f.fn.toNat (fm.read s.me.ftz a) (fm.read s.me.ftz b)
        { bits := r.1.toNat, flags := r.2 }
      match fpTrap (.vcmppFp f) info f s.me res with
      | some t => .error (.trap t)
      | none =>
        let m := s.me.active f
        let old := s.me.pred f.d.toNat
        .ok ((s1.raise (activeFlags m res)).setPred f.d.toNat (maskOf fun l =>
          if laneOn m l then (res.getD l ⟨0, 0⟩).bits == 1 else laneOn old l))

/-! ### Signs (15/R236): the sign bit only -/

def plain (x : Nat) : FRes := { bits := x, flags := 0 }

/-- The pattern without its sign bit. -/
def Fmt.mag (fm : Fmt) (a : Nat) : Nat := a % 2 ^ (fm.width - 1)

/-- The sign bit of a pattern, in place. -/
def Fmt.sign (fm : Fmt) (a : Nat) : Nat := a / 2 ^ (fm.width - 1) % 2 * 2 ^ (fm.width - 1)

/-- `vabs` (15/R236). -/
def execVabs (f : Form) (s : State) : Host.Outcome State Fault Refusal :=
  fpElem (.vabs f) s false fun fm a _ _ => plain (fm.mag a)

/-- `vneg` (15/R236). -/
def execVneg (f : Form) (s : State) : Host.Outcome State Fault Refusal :=
  fpElem (.vneg f) s false fun fm a _ _ => plain (a ^^^ 2 ^ (fm.width - 1))

/-- `vcpsgn` (15/R236). -/
def execVcpsgn (f : Form) (s : State) : Host.Outcome State Fault Refusal :=
  fpElem (.vcpsgn f) s false fun fm a b _ => plain (fm.mag a + fm.sign b)

/-! ### Roots and reciprocals (15/R237) -/

/-- The integer square root of n, with b bits of the root still to find. -/
def isqrt (n : Nat) : Nat → Nat → Nat
  | 0, r => r
  | b + 1, r => isqrt n b (if (r + 2 ^ b) * (r + 2 ^ b) ≤ n then r + 2 ^ b else r)

/-- Bits kept of a quotient or a root: the last one says whether anything was cut. -/
def guardBits : Nat := 64

def sticky (q : Nat) (exact : Bool) : Nat := 2 * q + (!exact).toNat

/-- An even exponent for a root. -/
def evenExp (m : Nat) (e : Int) : Nat × Int := if e % 2 = 0 then (m, e) else (2 * m, e - 1)

/-- √(m · 2^e), cut with a sticky bit. -/
def rootNum (m : Nat) (e : Int) : FpNum :=
  let (m, e) := evenExp m e
  let n := m * 2 ^ (2 * guardBits)
  let r := isqrt n 128 0
  .fin false (sticky r (r * r == n)) (e / 2 - guardBits - 1)

/-- 1 / (m · 2^e), cut with a sticky bit; and whether it is exact. -/
def recipNum (neg : Bool) (m : Nat) (e : Int) : FpNum × Bool :=
  let q := 2 ^ guardBits / m
  let exact := q * m == 2 ^ guardBits
  (.fin neg (sticky q exact) (-guardBits - 1 - e), exact)

/-- 1 / √(m · 2^e), cut with a sticky bit; and whether it is exact. -/
def rsqrtNum (m : Nat) (e : Int) : FpNum × Bool :=
  let (m, e) := evenExp m e
  let q := 2 ^ (2 * guardBits) / m
  let r := isqrt q 128 0
  let exact := r * r * m == 2 ^ (2 * guardBits)
  (.fin false (sticky r exact) (-guardBits - 1 - e / 2), exact)

/-- The q rounding of 15/R237: 17 significant bits under RNE, then FP32 under RNE. -/
def qRound (ftz : Bool) (v : FpNum × Bool) : FRes :=
  match v.1 with
  | .fin neg m e =>
    let lsb := topExp m e - 16
    let (q, _) := quantize .rne neg m e lsb
    let r := fmtF32.write .arith .rne ftz (.fin neg q lsb)
    let inexact := !v.2 || r.flags.testBit 4
    let sub := 0 < r.bits % 2 ^ 31 && r.bits % 2 ^ 31 < 2 ^ 23
    { r with flags := r.flags ||| (if inexact then flNX ||| (if sub then flUF else 0) else 0) }
  | x => fmtF32.write .arith .rne ftz x

def nanInvalid (fm : Fmt) : FRes := { bits := fm.qnan, flags := flNV }

/-- `vrcp` (15/R237). -/
def execVrcp (f : Form) (s : State) : Host.Outcome State Fault Refusal :=
  fpElem (.vrcp f) s false fun fm a _ _ =>
    match fm.read s.me.ftz a with
    | .nan sig => fm.write .arith .rne false (.nan sig)
    | .inf neg => plain (signBit fm neg)
    | .fin neg m e => if m = 0 then { bits := signBit fm neg + fm.infBits, flags := flDZ }
      else qRound s.me.ftz (recipNum neg m e)

/-- `vrsq` (15/R237). -/
def execVrsq (f : Form) (s : State) : Host.Outcome State Fault Refusal :=
  fpElem (.vrsq f) s false fun fm a _ _ =>
    match fm.read s.me.ftz a with
    | .nan sig => fm.write .arith .rne false (.nan sig)
    | .inf neg => if neg then nanInvalid fm else plain 0
    | .fin neg m e => if m = 0 then { bits := signBit fm neg + fm.infBits, flags := flDZ }
      else if neg then nanInvalid fm
      else qRound s.me.ftz (rsqrtNum m e)

/-- `vsqrt` (15/R237): correctly rounded under RND. -/
def execVsqrt (f : Form) (s : State) : Host.Outcome State Fault Refusal :=
  fpElem (.vsqrt f) s true fun fm a _ _ =>
    match fm.read s.me.ftz a with
    | .nan sig => fm.write .arith .rne false (.nan sig)
    | .inf neg => if neg then nanInvalid fm else plain fm.infBits
    | .fin neg m e => if m = 0 then plain (signBit fm neg)
      else if neg then nanInvalid fm
      else fm.write .arith s.me.mode s.me.ftz (rootNum m e)

/-! ### Integral rounding (15/R240) -/

/-- `vrint` (15/R240). -/
def execVrint (f : Form) (s : State) : Host.Outcome State Fault Refusal :=
  fpElem (.vrint f) s true fun fm a _ _ =>
    match fm.read s.me.ftz a with
    | .fin neg m e =>
      let (q, inexact) := quantize s.me.mode neg m e 0
      { bits := (fm.write .arith .rne false (.fin neg q 0)).bits, flags := if inexact then flNX else 0 }
    | x => fm.write .arith .rne false x

/-! ### The fixed reduction tree (15/R239) -/

/-- Pairs of neighbours combined, with the flags of all. -/
def redPairs (opr : FpNum → FpNum → ExRes) : List FpNum → List FpNum × Nat
  | x :: y :: rest =>
    let r := opr x y
    let p := redPairs opr rest
    (r.num :: p.1, r.flags ||| p.2)
  | xs => (xs, 0)

/-- `n` levels of the tree. -/
def redTree (opr : FpNum → FpNum → ExRes) : Nat → List FpNum → List FpNum × Nat
  | 0, xs => (xs, 0)
  | n + 1, xs =>
    let p := redPairs opr xs
    let q := redTree opr n p.1
    (q.1, p.2 ||| q.2)

/-- The reduction of 15/R239: `pad` for inactive lanes; the result in every active lane, its flags in every active lane. -/
def redOp (i : Instr) (s : State) (rounds : Bool) (pad : FpNum) (opr : FpNum → FpNum → ExRes) : Host.Outcome State Fault Refusal :=
  runIf i s (fun _ _ => rounds && (arithMode s.me.fm).isNone) fun info f =>
    match readSources i info f false s with
    | .error h => .error h
    | .ok s1 => match destReady i info f s1 with
      | .error h => .error h
      | .ok _ =>
        let m := s.me.active f
        let a := s.source f.a .f32
        let leaves := (List.range 32).map fun l => if laneOn m l then fmtF32.read s.me.ftz (a.lane l) else pad
        let p := redTree opr 5 leaves
        let r : FRes := { bits := (fmtF32.write .arith .rne false (p.1.headD pad)).bits, flags := p.2 }
        fpFinish i info f s.me s1 false (List.replicate 32 r)

/-- A rounding step R to FP32 (12/R203, 15/R239): the value it delivers and its flags. -/
def Group.step32 (g : Group) (r : ExRes) : ExRes :=
  let w := g.deliver fmtF32 r
  { num := fmtF32.read false w.bits, flags := w.flags }

/-- `vredAdd` (15/R239). -/
def execVredAdd (f : Form) (s : State) : Host.Outcome State Fault Refusal :=
  redOp (.vredAdd f) s true (.fin true 0 0) fun x y => s.me.step32 (numAdd s.me.down x y)

/-- `vredMin` (15/R239). -/
def execVredMin (f : Form) (s : State) : Host.Outcome State Fault Refusal :=
  redOp (.vredMin f) s false (.nan false) (numSelect true)

/-- `vredMax` (15/R239). -/
def execVredMax (f : Form) (s : State) : Host.Outcome State Fault Refusal :=
  redOp (.vredMax f) s false (.nan false) (numSelect false)

/-! ### Packed dot products (12/R184, R203, 15/R245) -/

/-- The encoding that an AFMT or BFMT code names (12/R184); none for a reserved code. -/
def fmtOverride (own : Ty) (code : Nat) : Option Ty :=
  match code with
  | 0 => some own | 1 => some .bf16 | 2 => some .f16 | 3 => some .e4m3 | 4 => some .e5m2 | _ => none

/-- The effective encodings of A and B (12/R184); none where a code is illegal for the type. -/
def effective (own : Ty) (fm : BitVec 32) : Option (Ty × Ty) :=
  let one (code : Nat) : Option Ty :=
    (fmtOverride own code).filter fun t => code == 0 || (elemWidth t == elemWidth own && elemWidth own != 4)
  match one (fmAfmt fm), one (fmBfmt fm) with
  | some a, some b => some (a, b)
  | _, _ => none

/-- The value of an element of a dot product; CB4 reads its table (12/R193). -/
def Group.elem (g : Group) (t : Ty) (x : Nat) : FpNum :=
  match t with
  | .cb4 => fmtBf16.read g.ftz (g.cbEntry x)
  | t => ((fmtOf t).getD fmtF32).read g.ftz x

/-- The two chains of 12/R203 over the products of one lane: E, O and the flags. -/
def chains (g : Group) : Nat → List ExRes → FpNum → FpNum → Nat → FpNum × FpNum × Nat
  | _, [], e, o, fl => (e, o, fl)
  | k, p :: ps, e, o, fl =>
    let r := g.step32 (numAdd g.down (if k % 2 = 0 then e else o) p.num)
    let fl := fl ||| p.flags ||| r.flags
    if k % 2 = 0 then chains g (k + 1) ps r.num o fl else chains g (k + 1) ps e r.num fl

/-- The sum of 12/R203. -/
def dotSum (g : Group) (c : FpNum) (ps : List ExRes) : FRes :=
  let (e, o, fl) := chains g 0 ps c (.fin true 0 0) 0
  let r := g.deliver fmtF32 (numAdd g.down e o)
  { bits := r.bits, flags := fl ||| r.flags }

/-- A product scaled by two powers of two; NaN where a scale byte is `0xFF` (15/R245). -/
def scaledProduct (a b : FpNum) (sa sb : Nat) : ExRes :=
  let p := numMul (if sa = 0xFF then .nan false else a) (if sb = 0xFF then .nan false else b)
  match p.num with
  | .fin n m e => { p with num := .fin n m (e + sa + sb - 254) }
  | _ => p

/-- The packed dot product of one lane. `sa` and `sb` are the scale bytes, 127 for a type without scales. -/
def dotLane (g : Group) (w : Nat) (ta tb : Ty) (a b c sa sb : Nat) : FRes :=
  dotSum g (fmtF32.read g.ftz c) ((List.range (32 / w)).map fun k =>
    scaledProduct (g.elem ta (digit w a k)) (g.elem tb (digit w b k)) sa sb)

/-- Which scale byte serves lane l (15/R245). -/
def dotScale (t : Ty) (v : VReg) (l : Nat) : Nat :=
  match t with
  | .mxe4m3 | .mxe5m2 => v.scaleByte (2 * (l / 8))
  | .mxe2m1 => v.scaleByte (l / 4)
  | _ => 127

/-- The encodings that a dot product reads, where they are legal. -/
def dotTypes (info : Info) (f : Form) (fm : BitVec 32) : Option (Ty × Ty) :=
  let t := f.type info.base
  if info.op == 0x60 then (if fmAfmt fm == 0 && fmBfmt fm == 0 && !(t == .cb4 && fmCbs fm == 3) then some (t, t) else none)
  else effective t fm

/-- What the values of `fm` make illegal in a dot product (12/R182, R184), and an immediate that the encoding in force
does not hold (04/R65). -/
def dotBad (g : Group) (info : Info) (f : Form) : Bool :=
  (arithMode g.fm).isNone || (match dotTypes info f g.fm with
    | some (a, b) => !Opcode.immFits a f.a || !Opcode.immFits b f.b
    | none => true)

def dotOp (i : Instr) (s : State) : Host.Outcome State Fault Refusal :=
  runIf i s (dotBad s.me) fun info f =>
    match readSources i info f false s with
    | .error h => .error h
    | .ok s1 => match destReady i info f s1 with
      | .error h => .error h
      | .ok _ =>
        let t := f.type info.base
        let w := elemWidth t
        let (ta, tb) := (dotTypes info f s.me.fm).getD (t, t)
        let a := s.source f.a ta
        let b := s.source f.b tb
        let d := s.source f.d .f32
        fpFinish i info f s.me s1 false ((List.range 32).map fun l =>
          dotLane s.me w ta tb (a.lane l) (b.lane l) (d.lane l) (dotScale t a l) (dotScale t b l))

/-- `vdot2` (15/R245). -/
def execVdot2 (f : Form) (s : State) : Host.Outcome State Fault Refusal := dotOp (.vdot2 f) s

/-- `vdot4` (15/R245). -/
def execVdot4 (f : Form) (s : State) : Host.Outcome State Fault Refusal := dotOp (.vdot4 f) s

/-- `vdot8` (15/R245). -/
def execVdot8 (f : Form) (s : State) : Host.Outcome State Fault Refusal := dotOp (.vdot8 f) s

end Sys2Proof.Machine
end

