-- ==== Sys2Proof/Machine/Atomics.lean ====
section
/-!
DEFINITION. Meanings: atomics and exact sums (17/R265-R269, 19/R308-R313), and a request that arrives at its home.
-/

namespace Sys2Proof.Machine

open Sys2Proof

/-! ### The vector form (19/R309) -/

/-- The addresses of the active lanes, lanes ascending. -/
def atomLanes (s : State) (f : Form) : List (Nat × Word) :=
  let off := s.source f.b .i32
  ((List.range 32).filter (laneOn (s.me.active f))).map fun l =>
    (l, s.me.scalar f.a + (BitVec.ofNat 32 (off.lane l)).signExtend 64 + f.imm)

/-- The address checks of every lane; the first failing lane decides. -/
def lanesOk (i : Instr) (g : Group) : List (Nat × Word) → Except Halt Unit
  | [] => .ok ()
  | (_, x) :: rest => match globalCheck i g x 4 with
    | .error h => .error h
    | .ok _ => lanesOk i g rest

/-- An atomic may act at a home (17/R265, 18/R278, 21/R327, 28/R410, R412). -/
def atomAllowed (i : Instr) (s : State) (x : Word) (t : Ty) (h : Home) : Except Halt Unit :=
  let bad := Except.error (.trap (homeTrap i s.me x))
  match h with
  | .ram la => if s.reaches s.myPart la 4 then .ok () else .error (.fail (homeTrap i s.me x) (s.refuse la))
  | .window w =>
    if w < 0x1000 || ((List.range 4).any fun j => ((s.part s.myPart).ringAt (w + j)).isSome) then bad else .ok ()
  | .comb _ => if floatAtomic t then bad else .ok ()
  | .remote .. => .ok ()
  | _ => bad

/-- Every lane translated before any is sent: homes by lane, and whether one of the pages is Normal-SC. -/
def lanesHomes (i : Instr) (t : Ty) : State → List (Nat × Word) → Except Halt (List (Nat × Word × Home) × Bool × State)
  | s, [] => .ok ([], false, s)
  | s, (l, x) :: rest => match translated i s x true with
    | .error h => .error h
    | .ok (h, sc, s) => match ranked (atomAllowed i s x t h) (s.me.inOrder h 4 false) with
      | .error e => .error e
      | .ok _ => match lanesHomes i t s rest with
        | .error e => .error e
        | .ok (hs, sc', s) => .ok ((l, x, h) :: hs, sc || sc', s)

/-- The lanes of one granule: its address, its home, and lane with offset, ascending. -/
structure Granule where
  va    : Word
  home  : Home
  lanes : List (Nat × Nat)
deriving DecidableEq, Repr

/-- The home of a granule, from that of a byte of it. -/
def Home.back (h : Home) (n : Nat) : Home :=
  match h with
  | .ram la => .ram (la - n)
  | .window w => .window (w - n)
  | .comb la => .comb (la - n)
  | .remote m la => .remote m (la - n)
  | h => h

/-- The granules that the lanes name. -/
def granulesOf (hs : List (Nat × Word × Home)) : List Granule :=
  ((hs.map fun x => x.2.1.toNat / 64).eraseDups).filterMap fun k =>
    let mine := hs.filter fun x => x.2.1.toNat / 64 = k
    (mine.head?).map fun x =>
      { va := BitVec.ofNat 64 (64 * k), home := x.2.2.back (x.2.1.toNat % 64)
        lanes := mine.map fun y => (y.1, y.2.1.toNat % 64) }

/-- The old values of a granule's lanes from the reply. -/
def Granule.olds (k : Granule) (bs : List Byte) (m : Map Nat) : Map Nat :=
  (k.lanes.zipIdx).foldl (fun m p => m.set p.1.1 (numOf ((bs.drop (4 * p.2)).take 4))) m

/-- The granules homed outside the module, one request after the other: what the lanes have received. -/
def awayGranules (i : Instr) (op : Granule → HomeOp) : State → List Granule → Except Halt (Map Nat × State)
  | s, [] => .ok ((s.me.asked.map (·.olds)).getD [], s)
  | s, k :: ks =>
    let olds : Map Nat := (s.me.asked.map (·.olds)).getD []
    if k.lanes.all fun l => (olds.get? l.1).isSome then awayGranules i op s ks
    else
      let send : Except Halt (Map Nat × State) :=
        let q := s.nextId
        let out (o : Outgoing) (due : Nat) : Except Halt (Map Nat × State) :=
          .error (.held .answer { s with
            nextId := q + 1, outbox := s.outbox ++ [o]
            me := { s.me with asked := some { va := k.va, due, seq := q, fetch := false, answer := none, olds, mine := [] } } })
        match k.home, op k with
        | .comb la, .atoms fn t ops => out (.deviceAtomic s.meId q (linkOf la) (s.busAddr la) fn t ops) 0
        | .remote m la, o => out (.remote s.meId q (s.portsTo m) m la o) (s.time + msCycles)
        | _, _ => .error (.trap (homeTrap i s.me k.va))
      match s.me.asked with
      | none => send
      | some a =>
        if a.seq = 0 then send
        else match a.answer with
          | none => .error (.held .answer s)
          | some (false, _) => .error (.trap (homeTrap i s.me a.va))
          | some (true, bs) =>
            awayGranules i op
              { s with me := { s.me with asked := some { a with seq := 0, answer := none, olds := k.olds bs olds } } } ks

/-- The granules homed on the module, each one step. -/
def nearGranules (i : Instr) (op : Granule → HomeOp) : State → Map Nat → List Granule → Except Halt (Map Nat × State)
  | s, olds, [] => .ok (olds, s)
  | s, olds, k :: ks => match homeAccess i s k.va 64 (op k) false false false false with
    | .error h => .error h
    | .ok (bs, s) => nearGranules i op s (k.olds bs olds) ks

def Home.away : Home → Bool
  | .comb _ | .remote .. => true
  | _ => false

/-- The vector form of an atomic (19/R309). It does not write `lr` (19/R303). The addresses are checked and translated before the
sources are read (08/R130). -/
def vectorAtom (i : Instr) (info : Info) (f : Form) (s : State) : Except Halt State :=
  let act := s.me.active f
  let lr := s.me.lr
  let keep (r : Except Halt State) : Except Halt State := r.map fun s => { s with me := { s.me with lr := lr } }
  if act = 0 then match s.me.returned (f.releases && f.wide) with
    | .error h => .error h
    | .ok _ =>
      let s := s.release f.releases f.wide
      match s.acknowledged f.releases f.sys with
      | .error h => .error h
      | .ok _ => keep (writeReg i s (Spec.of f.d) (laneWrite 0 fun _ => 0) false)
  else
    let t := f.type info.base
    let lanes := atomLanes s f
    let c := s.source f.cSpec t
    let e := s.source f.d t
    let op (k : Granule) : HomeOp :=
      .atoms info.fn t (k.lanes.map fun l => (l.2, BitVec.ofNat 64 (c.lane l.1), BitVec.ofNat 64 (e.lane l.1)))
    let own : Except Halt State := match readSources i info f false s with
      | .error h => .error h
      | .ok s1 => writeReg i s1 (Spec.of f.d) (laneWrite act fun _ => 0) false
    match lanesOk i s.me lanes with
    | .error h => .error h
    | .ok _ => match ranked (lanesHomes i t s lanes) own with
      | .error h => .error h
      | .ok (hs, sc, s) => match s.me.returned ((f.releases || sc) && f.wide) with
        | .error h => .error h
        | .ok _ =>
          let ks := granulesOf hs
          let s := s.release (f.releases || sc) f.wide
          match s.acknowledged (f.releases || sc) f.sys with
          | .error h => .error h
          | .ok _ => match awayGranules i op (if ks.any fun k => k.home.away then s.drainWc s.meId else s)
              (ks.filter fun k => k.home.away) with
          | .error h => .error h
          | .ok (olds, s) => match nearGranules i op s olds (ks.filter fun k => !k.home.away) with
            | .error h => .error h
            | .ok (olds, s) => match readSources i info f false s with
              | .error h => .error h
              | .ok s => keep (writeReg i s (Spec.of f.d) (laneWrite act fun l => olds.get l 0) false)

/-! ### Atomics -/

/-- The scalar form (17/R265): D gets the old value, zero-extended. -/
def scalarAtom (i : Instr) (info : Info) (f : Form) (s : State) : Except Halt State :=
  let t := f.type info.base
  let n := atomSize t
  let x := s.me.address f
  match globalCheck i s.me x n with
  | .error h => .error h
  | .ok _ =>
    match homeAccess i s x n (.atoms info.fn t [(0, s.me.scalar f.cSpec, s.me.scalar f.d)]) true f.releases f.wide f.sys with
    | .error h => .error h
    | .ok (bs, s) => .ok (s.setScalar f.d (BitVec.ofNat 64 (numOf bs)))

/-- An atomic, scalar or vector by its D field. -/
def atomOp (i : Instr) (s : State) : Host.Outcome State Fault Refusal :=
  run i s fun info f => match Spec.of f.d with
    | .sca _ => scalarAtom i info f s
    | _ => vectorAtom i info f s

/-- `atom.add` (17/R265). -/
def execAtomAdd (f : Form) (s : State) : Host.Outcome State Fault Refusal := atomOp (.atomAdd f) s
/-- `atom.min` (17/R265). -/
def execAtomMin (f : Form) (s : State) : Host.Outcome State Fault Refusal := atomOp (.atomMin f) s
/-- `atom.max` (17/R265). -/
def execAtomMax (f : Form) (s : State) : Host.Outcome State Fault Refusal := atomOp (.atomMax f) s
/-- `atom.and` (19/R308). -/
def execAtomAnd (f : Form) (s : State) : Host.Outcome State Fault Refusal := atomOp (.atomAnd f) s
/-- `atom.or` (19/R308). -/
def execAtomOr (f : Form) (s : State) : Host.Outcome State Fault Refusal := atomOp (.atomOr f) s
/-- `atom.xor` (19/R308). -/
def execAtomXor (f : Form) (s : State) : Host.Outcome State Fault Refusal := atomOp (.atomXor f) s
/-- `atom.exch` (19/R308). -/
def execAtomExch (f : Form) (s : State) : Host.Outcome State Fault Refusal := atomOp (.atomExch f) s
/-- `atom.cas` (19/R308). -/
def execAtomCas (f : Form) (s : State) : Host.Outcome State Fault Refusal := atomOp (.atomCas f) s

/-! ### Exact sums -/

/-- The contributions of an `xsum` (17/R267, 19/R311, R312), lanes ascending. -/
def sumData (s : State) (f : Form) (t : Ty) : List Word :=
  if (Spec.of f.d).isVector then
    ((List.range 32).filter (laneOn (s.me.active f))).map fun l =>
      BitVec.ofNat 64 (if t == .f64 then s.source64 f.d l else (s.source f.d t).lane l)
  else [s.me.scalar f.d]

/-- `xsum` (17/R267, 19/R311, R312). -/
def execXsum (f : Form) (s : State) : Host.Outcome State Fault Refusal :=
  run (.xsum f) s fun info f =>
    let i := Instr.xsum f
    let t := f.type info.base
    let x := s.me.address f
    if (Spec.of f.d).isVector && s.me.active f == 0 then .ok s
    else match globalCheck i s.me x 64 with
      | .error h => .error h
      | .ok _ =>
        match ranked (homeAccess i s x 64 (.xsum (t == .f64) (sumData s f t)) false false f.wide f.sys)
            (readSources i info f false s) with
        | .error h => .error h
        | .ok (_, s) => readSources i info f false s

/-- The 64 bytes of a cell, which an `xrd` may have read before its commit (08/R124). -/
def cellBytes (i : Instr) (f : Form) (base : Ty) (clear : Bool) (s : State) : Except Halt (List Byte × State) :=
  match s.me.earlyBytes with
  | some bs => .ok (bs, s)
  | none => homeAccess i s (s.me.address f) 64 (.xrd (f.type base == .f64) clear) false false f.wide f.sys

/-- A read of a cell, rounded once (17/R268, 19/R313). FTZ is not applied; flags are set and never trap. -/
def readCell (i : Instr) (s : State) (clear : Bool) : Host.Outcome State Fault Refusal :=
  runIf i s (fun _ _ => (arithMode s.me.fm).isNone) fun info f =>
    let wide := f.type info.base == .f64
    let x := s.me.address f
    match globalCheck i s.me x 64 with
    | .error h => .error h
    | .ok _ => match cellBytes i f info.base clear s with
      | .error h => .error h
      | .ok (bs, s) =>
        let r := ((cellOf (numOf bs)).value wide).deliver (if wide then fmtF64 else fmtF32) s.me.mode false
        .ok ((s.raise r.flags).setScalar f.d (BitVec.ofNat 64 r.bits))

/-- `xrd` (17/R268, 19/R313). -/
def execXrd (f : Form) (s : State) : Host.Outcome State Fault Refusal := readCell (.xrd f) s false
/-- `xrd.clr` (17/R268, 19/R313). -/
def execXrdClr (f : Form) (s : State) : Host.Outcome State Fault Refusal := readCell (.xrdClr f) s true

/-! ### A request that arrives at its home (17/R269, 28/R403-R405, R412) -/

/-- The bytes that an operation may touch from its address. -/
def homeSpan : HomeOp → Nat
  | .read n => n
  | .gather offs => offs.foldl (fun n o => max n (o + 1)) 0
  | .write runs => runs.foldl (fun n r => max n (r.1 + r.2.length)) 0
  | .atoms _ t ops => ops.foldl (fun n o => max n (o.1 + atomSize t)) 0
  | _ => 64

/-- The reply to a request of another module. -/
def State.reply (s : State) (r : HomeReq) (ok : Bool) (bytes : List Byte) : State :=
  { s with outbox := s.outbox ++ [.reply r.module r.part r.group r.seq ok bytes] }

/-- The record of a request at its home (17/R269): that of its local address, which stays when the bank that holds it changes
(26/R386). -/
def Retry.holds (x : Retry) (r : HomeReq) : Bool :=
  x.module == r.module && x.part == r.part && x.group == r.group && x.home == r.la && x.seq == r.seq

/-- A request is applied (17/R269, 28/R412): one for bytes that the share table does not open to its module is refused. -/
def State.applyRequest (s : State) (r : HomeReq) : Bool × List Byte × State :=
  if !s.sharesModule r.module r.la (homeSpan r.op) then (false, [], s.refuse r.la)
  else match s.applyHome r.la { va := 0, source := (match r.op with | .read _ | .gather _ | .write _ => 0 | _ => 3) } r.op with
    | .ok (bs, s) => (true, bs, s)
    | .error (_, s) => (false, [], s)

/-- A request at its home, or its repeat (17/R269): a read is answered again; what changes bytes is answered from its
record. A request that a later one of its source has overtaken has no record and is applied (log 41). -/
def State.serve (s : State) (r : HomeReq) : State :=
  match s.bankAt r.la with
  | none => s.reply r false []
  | some _ =>
    let served : State :=
      let (ok, bs, s) := s.applyRequest r
      let kept : Retry := { module := r.module, part := r.part, group := r.group, home := r.la, seq := r.seq, ok, reply := bs }
      ({ s with retries := s.retries ++ [kept] } : State).reply r ok bs
    match r.op with
    | .read _ | .gather _ => let (ok, bs, s) := s.applyRequest r; s.reply r ok bs
    | _ => match s.retries.find? fun x => x.holds r with
      | none => served
      | some x => s.reply r x.ok x.reply

/-- A request waits at its home: its bank is refreshing (26/R383), or an earlier one waits for the bank. -/
def State.waitsAtHome (s : State) (q : List HomeReq) (r : HomeReq) : Bool :=
  s.busyBytes r.la (homeSpan r.op) || q.any fun x => s.bankAt x.la == s.bankAt r.la

/-- A request has arrived at its home (17/R269). -/
def State.arrive (s : State) (r : HomeReq) : State :=
  if s.waitsAtHome s.inbox r then { s with inbox := s.inbox ++ [r] } else s.serve r

/-- Requests that waited for a refresh are served, those of one bank in the order of their arrival. -/
def State.drainInbox (s : State) : State :=
  s.inbox.foldl (fun s r => s.arrive r) { s with inbox := [] }

/-- A request arrives at its home (17/R269). -/
def execHomeRequest (r : HomeReq) (s : State) : Host.Outcome State Fault Refusal := .next (s.arrive r)

end Sys2Proof.Machine
end

