-- ==== Sys2Proof/Machine/Control.lean ====
section
/-!
DEFINITION. Meanings: sequencing, predicates and the mask (06/R88-R91).
-/

namespace Sys2Proof.Machine

open Sys2Proof

/-- `nop` (06/R88). -/
def execNop (f : Form) (s : State) : Host.Outcome State Fault Refusal :=
  run (.nop f) s fun _ _ => .ok s

/-- `lps` (06/R89, 02/R21). -/
def execLps (f : Form) (s : State) : Host.Outcome State Fault Refusal :=
  run (.lps f) s fun _ f =>
    let g := s.me
    let n := (g.scalar f.a).toNat % 2 ^ 32
    if g.lRoom ≤ g.lstack.length then .error (.trap (trapOf (.lps f) g 12 1))
    else
      let e : LEntry := { head := addrAdd g.pc (f.imm * 4), count := BitVec.ofNat 32 (if n = 0 then 1 else n) }
      .ok { s with me := { g with lstack := e :: g.lstack } }

/-- The predicate operations (06/R90): index D gets a function of predicates A and B. -/
def predOp (i : Instr) (s : State) (op : BitVec 32 → BitVec 32 → BitVec 32) : Host.Outcome State Fault Refusal :=
  run i s fun _ f => .ok (s.setPred f.d.toNat (op (s.me.pred f.a.toNat) (s.me.pred f.b.toNat)))

/-- `pmov` (06/R90). -/
def execPmov (f : Form) (s : State) : Host.Outcome State Fault Refusal := predOp (.pmov f) s fun a _ => a
/-- `pand` (06/R90). -/
def execPand (f : Form) (s : State) : Host.Outcome State Fault Refusal := predOp (.pand f) s fun a b => a &&& b
/-- `por` (06/R90). -/
def execPor (f : Form) (s : State) : Host.Outcome State Fault Refusal := predOp (.por f) s fun a b => a ||| b
/-- `pxor` (06/R90). -/
def execPxor (f : Form) (s : State) : Host.Outcome State Fault Refusal := predOp (.pxor f) s fun a b => a ^^^ b
/-- `pandn` (06/R90). -/
def execPandn (f : Form) (s : State) : Host.Outcome State Fault Refusal := predOp (.pandn f) s fun a b => a &&& ~~~b
/-- `pnot` (06/R90). -/
def execPnot (f : Form) (s : State) : Host.Outcome State Fault Refusal := predOp (.pnot f) s fun a _ => ~~~a

/-- `pget` (06/R90). -/
def execPget (f : Form) (s : State) : Host.Outcome State Fault Refusal :=
  run (.pget f) s fun _ f => .ok (s.setScalar f.d ((s.me.pred f.a.toNat).zeroExtend 64))

/-- `pset` (06/R90). -/
def execPset (f : Form) (s : State) : Host.Outcome State Fault Refusal :=
  run (.pset f) s fun _ f => .ok (s.setPred f.d.toNat ((s.me.scalar f.a).truncate 32))

/-- `emget` (06/R91). -/
def execEmget (f : Form) (s : State) : Host.Outcome State Fault Refusal :=
  run (.emget f) s fun _ f => .ok (s.setScalar f.d (s.me.em.zeroExtend 64))

/-- `emset` (06/R91, 02/R17). -/
def execEmset (f : Form) (s : State) : Host.Outcome State Fault Refusal :=
  run (.emset f) s fun _ f => .ok { s with me := s.me.setMask ((s.me.scalar f.a + f.imm).truncate 32) }

/-- A reserved opcode: illegal instruction whatever the role (05/R83), `tval` the first word. `tlm` holds `em`, also where the words
carry a predicate field (log 52: the model's choice). -/
def execReservedOpcode (word : BitVec 32) (s : State) : Host.Outcome State Fault Refusal :=
  if s.me.win.isEmpty then
    match illegal (.reservedOpcode word) s.me with
    | .trap t => .next (s.counted.takeTrap s.meId t)
    | _ => .next s
  else .next { s with me := s.me.waitOn .window s.time }

end Sys2Proof.Machine
end

