-- ==== Sys2Proof/Machine/HwAccess.lean ====
section
/-!
DEFINITION. Reads and writes that the hardware makes by virtual address in a partition's address space: launch records and
tables (21/R331), reports (10/R170), context frames (09/R153), bid formulas (20/R318), the partition block (28/R409).
-/

namespace Sys2Proof.Machine

open Sys2Proof

/-- How such an access ends: done; a fault at an address; a wait, for bytes of an inbound ring that have not landed (21/R329),
for a bank under refresh (26/R383) or for another module (28/R404). -/
inductive Hw (α : Type) where
  | ok (x : α) (s : State)
  | fail (va : Nat) (s : State)
  | wait (s : State)
deriving DecidableEq, Repr

/-- A packet of the hardware to another module and its answer, which stays until the whole step has been made (28/R404):
no answer within 1 ms is a fault. Each such packet is a source of its own at its home (17/R269). -/
def State.hwAsk (s : State) (core va module la : Nat) (op : HomeOp) : Hw (List Byte) :=
  match s.hwAsks.find? fun a => a.core == core && a.va == va && a.module == module && a.la == la && a.op == op with
  | some a => match a.answer with
    | some (true, bs) => .ok bs s
    | some (false, _) => .fail va { s with hwAsks := s.hwAsks.filter fun x => x.seq != a.seq }
    | none => .wait s
  | none =>
    let q := s.nextId
    .wait { s with
      nextId := q + 1, outbox := s.outbox ++ [.remote (2 ^ 32 * q) q (s.portsTo module) module la op]
      hwAsks := s.hwAsks ++ [{ core, va, module, la, op, due := s.time + msCycles, seq := q, answer := none }] }

/-- The number of no module: a request to a device or to host memory by PCI Express stands under it. -/
def noModule : Nat := 2 ^ 20

/-- A read of a Write-combining page by the hardware goes to its home by PCI Express, as a weak load's does (18/R277, R279): no limit. One
that stands for a group's load finds the bytes that the group holds in its combining buffer. -/
def State.hwAskHost (s : State) (core : Nat) (w : Who) (va la n : Nat) : Hw (List Byte) :=
  match s.hwAsks.find? fun a => a.core == core && a.va == va && a.module == noModule && a.la == la && a.op == .read n with
  | some { answer := some (true, bs), mine, .. } => .ok (overlay mine (bs.take n)) s
  | some { answer := some (false, _), seq, .. } => .fail va { s with hwAsks := s.hwAsks.filter fun x => x.seq != seq }
  | some _ => .wait s
  | none =>
    let q := s.nextId
    .wait { s with
      nextId := q + 1, outbox := s.outbox ++ [.deviceRead (2 ^ 32 * q) q (linkOf la) (s.busAddr la) (List.range n)]
      hwAsks := s.hwAsks ++ [{
        core, va, module := noModule, la, op := .read n, due := 0, seq := q, answer := none
        mine := if w.own then s.me.heldBytes la (List.range n) else [] }] }

/-- The packets of a step that has been made are forgotten. -/
def State.hwAsked (s : State) : State := { s with hwAsks := s.hwAsks.filter fun a => a.answer.isNone }

/-- A step that waits for other modules leaves its packets alone behind. -/
def State.keepAsks (s t : State) : State := { s with hwAsks := t.hwAsks, nextId := t.nextId, outbox := t.outbox }

/-- The pieces of n bytes at va that lie in one 64 KiB page each; the first argument bounds their number. -/
def pagePieces : Nat → Nat → Nat → List (Nat × Nat)
  | 0, _, _ => []
  | k + 1, va, n =>
    if n = 0 then []
    else
      let m := min n (65536 - va % 65536)
      (va, m) :: pagePieces k (va + m) (n - m)

def piecesOf (va n : Nat) : List (Nat × Nat) := pagePieces (n / 65536 + 2) va n

/-- The number of no core: such an access uses no translation buffer. -/
def noCore : Nat := 4095

/-- One piece read. -/
def State.hwReadPiece (s : State) (p core : Nat) (w : Who) (va n : Nat) : Hw (List Byte) :=
  if 2 ^ 52 < va + n then .fail va s
  else match s.translate p core va { w with va := BitVec.ofNat 64 va } false false with
    | (.ok h _, s) => match h with
      | .ram la =>
        if !s.reaches p la n then .fail va (s.refuse la)
        else if s.busyBytes la n then .wait s
        else (match s.readOffs la { w with va := BitVec.ofNat 64 va } (List.range n) with
          | .ok (bs, s) => .ok bs s
          | .error (o, s) => .fail (va + o) s)
      | .window o =>
        if o < 0x1000 then .fail va s
        else if (List.range n).any fun j => (s.part p).gatedAt (o + j) then .wait s
        else .ok ((List.range n).map fun j => (s.part p).windowByte (o + j)) s
      | .log o => .ok ((List.range n).map fun j => (s.part p).logByte (o + j)) s
      | .remote m la => s.hwAsk core va m la (.read n)
      | .comb la => s.hwAskHost core w va la n
      | _ => .fail va s
    | (.wait, s) => .wait s
    | (_, s) => .fail va s

def hwReadAll (p core : Nat) (w : Who) : State → List (Nat × Nat) → Hw (List Byte)
  | s, [] => .ok [] s
  | s, (va, n) :: rest => match s.hwReadPiece p core w va n with
    | .ok bs s => (match hwReadAll p core w s rest with
      | .ok more s => .ok (bs ++ more) s
      | r => r)
    | r => r

/-- n bytes read at va. -/
def State.hwRead (s : State) (p core : Nat) (w : Who) (va n : Nat) : Hw (List Byte) := hwReadAll p core w s (piecesOf va n)

/-- A read of n bytes at va meets bytes of an inbound ring that have not landed (21/R329). -/
def State.gatedRead (s : State) (p core : Nat) (w : Who) (va n : Nat) : Bool :=
  (piecesOf va n).any fun x => match s.translate p core x.1 { w with va := BitVec.ofNat 64 x.1 } false false with
    | (.ok (.window o) _, _) => (List.range x.2).any fun j => (s.part p).gatedAt (o + j)
    | _ => false

/-- The home of a piece that the hardware may write: a writable Normal page (09/R153, 10/R170). -/
def State.hwTarget (s : State) (p core va n : Nat) : Hw Home :=
  if 2 ^ 52 < va + n then .fail va s
  else match s.translate p core va { va := BitVec.ofNat 64 va, source := 7 } true false with
    | (.ok h _, s) => match h with
      | .ram la => if s.reaches p la n then .ok h s else .fail va (s.refuse la)
      | .window o =>
        if o < 0x1000 || ((List.range n).any fun j => ((s.part p).ringAt (o + j)).isSome) then .fail va s else .ok h s
      | .remote .. => .ok h s
      | _ => .fail va s
    | (.wait, s) => .wait s
    | (_, s) => .fail va s

/-- Whether every piece can be written. -/
def hwWritable (p core : Nat) : State → List (Nat × Nat) → Hw Unit
  | s, [] => .ok () s
  | s, (va, n) :: rest => match s.hwTarget p core va n with
    | .ok _ s => hwWritable p core s rest
    | .fail a s => .fail a s
    | .wait s => .wait s

/-- Bytes written at a home. -/
def State.hwPut (s : State) (p core : Nat) (w : Who) (va : Nat) (h : Home) (bs : List Byte) : Hw Unit :=
  match h with
  | .ram la => if s.busyBytes la bs.length then .wait s else .ok () (s.writeRuns la w [(0, bs)])
  | .window o => .ok () (s.modPart p fun x => { x with ring := bs.zipIdx.foldl (fun m b => m.set (o + b.2) b.1) x.ring })
  | .remote m la => match s.hwAsk core va m la (.write [(0, bs)]) with
    | .ok _ s => .ok () s
    | .fail a s => .fail a s
    | .wait s => .wait s
  | _ => .fail va s

def hwWriteAll (p core : Nat) (w : Who) : State → List (Nat × Nat) → List Byte → Hw Unit
  | s, [], _ => .ok () s
  | s, (va, n) :: rest, bs => match s.hwTarget p core va n with
    | .ok h s => match s.hwPut p core { w with va := BitVec.ofNat 64 va } va h (bs.take n) with
      | .ok _ s => hwWriteAll p core w s rest (bs.drop n)
      | r => r
    | .fail a s => .fail a s
    | .wait s => .wait s

/-- Bytes written at va: all of them, or none on this module and the address of the first that cannot be written. -/
def State.hwWrite (s : State) (p core : Nat) (w : Who) (va : Nat) (bs : List Byte) : Hw Unit :=
  let ps := piecesOf va bs.length
  match hwWritable p core s ps with
  | .ok _ s => hwWriteAll p core w s ps bs
  | r => r

/-- The bank is free. -/
def State.idleBank (s : State) (p b : Nat) : State :=
  if s.bankBlocked p b then s.modPart p fun x => { x with banks := x.banks.set b { s.bank p b with busy := 0 } } else s

/-- No bank of the module refreshes or alerts, and no bus sends a beat again or tests its lines. -/
def State.idleBanks (s : State) : State :=
  let s := s.parts.keys.foldl (fun s p => (List.range 64).foldl (fun s b => s.idleBank p b) s) s
  { s with parts := s.parts.update fun _ (x : Partition) => { x with
      buses := x.buses.update fun _ b => { b with resend := none, testing := none } } }

/-- Banks and buses are busy as in another state. -/
def State.busyAs (s old : State) : State :=
  { s with parts := s.parts.update fun p (x : Partition) => { x with
      banks := x.banks.update fun b k => { k with busy := (old.bank p b).busy }
      buses := x.buses.update fun n b =>
        let o := (old.part p).buses.get n {}
        { b with resend := o.resend, testing := o.testing } } }

/-- An access that no refresh delays. -/
def State.idly {α : Type} (s : State) (f : State → Hw α) : Hw α :=
  match f s.idleBanks with
  | .ok x t => .ok x (t.busyAs s)
  | .fail va t => .fail va (t.busyAs s)
  | .wait t => .wait (t.busyAs s)

/-- A little-endian field of a byte list. -/
def fieldAt (bs : List Byte) (o n : Nat) : Nat := numOf ((bs.drop o).take n)

end Sys2Proof.Machine
end

