-- ==== Sys2Proof/Machine/NearBank.lean ====
section
/-!
DEFINITION. Meanings: near-bank instructions and mapping (25/R369, R370, 27/R394-R397).
-/

namespace Sys2Proof.Machine

open Sys2Proof

/-! ### The checks of a near-bank access (27/R394) -/

/-- A leaf that a remap step left for a lost page (26/R386): every access is unrecoverable. The spec gives no pattern
(log 21): V = 1 with the reserved bits 43:40 set. -/
def lostLeaf : Word := 0x0000_0F00_0000_0001

/-- The stripe that bank b of a partition holds of a page, by its leaf. -/
def leafStripe (p b : Nat) (l : Leaf) : Option Nat :=
  if leafAddr l.entry / partWindow = p && b / 32 = leafHalf l then some (b % 32) else none

/-- What the checks leave: the virtual address of the stripe's start, and the local address of byte x. -/
structure Row where
  lo : Word
  la : Nat
deriving DecidableEq, Repr

/-- A near-bank span fault (25/R370). -/
def spanFault (i : Instr) (g : Group) (x : Word) : Halt := .trap (trapOf i g 18 x)

/-- The row at local address la of the page at pg: stripe j stands in bank j of its half (26/R380). -/
def rowAt (pg la : Nat) : Row :=
  { lo := BitVec.ofNat 64 (pg + 65536 * ((la % partWindow - directBase) / 2 ^ 26 % 32)), la }

/-- The checks in order; an instruction that issued ahead of its commit keeps what it found at its issue. -/
def bankRow (i : Instr) (s : State) (b : Nat) (x : Word) (store : Bool) : Except Halt (Row × State) :=
  let g := s.me
  let pg := x.toNat / 2 ^ 21 * 2 ^ 21
  match g.granted with
  | some (va, .ram la, _) => if va = x then .ok (rowAt pg la, s) else .error (spanFault i g x)
  | _ =>
  if x.toNat % 128 ≠ 0 then .error (misaligned i g x)
  else if x.toNat / 2 ^ 52 ≠ 0 then .error (badAddress i g x)
  else match s.lookup s.myPart g.core pg (s.who g x 2) with
    | (.leaf l, s) =>
      if l.entry = lostLeaf then .error (badAddress i g x)
      else if !(leafC l.entry && s.leafOk l) || leafPend l.entry || (s.special s.myPart pg).isSome then
        .error (spanFault i g x)
      else match leafStripe s.myPart b l with
        | none => .error (spanFault i g x)
        | some j =>
          if store && !leafW l.entry then .error (badAddress i g x)
          else
            .ok (rowAt pg (leafByte l (pg + 65536 * j + x.toNat % 65536)), s)
    | (.busy, _) => .error (.wait .register)
    | (.unread, s) => .error (.fail { trapOf i g 19 x with place := 7 } s)
    | (_, s) => .error (.fail (trapOf i g 18 x) s)

/-- The bank of the bank register that D names. -/
def bankD (g : Group) (f : Form) : Nat :=
  match Spec.of f.d with
  | .vec n => (bankOf (g.entry n)).1
  | _ => 0

/-- The unit of the bank at a local address waits with its bank (26/R381). -/
def State.nearBusy (s : State) (la : Nat) : Bool := (s.bankAt la).any fun k => s.bankBlocked k.1 k.2

/-- The bytes of a row, read by the bank's unit, or before the commit (08/R124); a damaged column is kind 19 with WHERE 2 (26/R388). -/
def readRow (i : Instr) (s : State) (x : Word) (la : Nat) (offs : List Nat) : Except Halt (List Byte × State) :=
  match s.me.earlyBytes with
  | some bs => .ok (bs, s)
  | none => if s.nearBusy la then .error (.wait .register)
  else match s.readOffs la (s.who s.me x 2) offs with
    | .ok r => .ok r
    | .error (o, s') => .error (.fail { trapOf i s'.me 19 (x + BitVec.ofNat 64 o) with place := 2 } s')

/-! ### The four instructions -/

/-- `nbld` (27/R395). -/
def execNbld (f : Form) (s : State) : Host.Outcome State Fault Refusal :=
  run (.nbld f) s fun _ f =>
    let i := Instr.nbld f
    let act := s.me.active f
    let x := s.me.address f
    if act == 0 then .ok s
    else match bankRow i s (bankD s.me f) x false with
      | .error h => .error h
      | .ok (r, s) => match readRow i s (r.lo + BitVec.ofNat 64 (x.toNat % 65536)) r.la (laneBytes act) with
        | .error h => .error h
        | .ok (bs, s) => loadVector i s f act bs

/-- `nbfma` (27/R395). -/
def execNbfma (f : Form) (s : State) : Host.Outcome State Fault Refusal :=
  runIf (.nbfma f) s (fun _ _ => (arithMode s.me.fm).isNone) fun info f =>
    let i := Instr.nbfma f
    let act := s.me.active f
    let x := s.me.scalar f.a
    if act == 0 then .ok s
    else match bankRow i s (bankD s.me f) x false with
      | .error h => .error h
      | .ok (r, s0) => match readRow i s0 (r.lo + BitVec.ofNat 64 (x.toNat % 65536)) r.la (laneBytes act) with
        | .error h => .error h
        | .ok (bs, s1) => match readSources i info f false s1 with
          | .error h => .error h
          | .ok s2 =>
            let g := s.me
            let t := f.type info.base
            let fm := (fmtOf t).getD fmtF32
            let w := elemWidth t
            let b := s.source f.b t
            let c := s.source f.cSpec t
            fpFinish i info f g s2 false ((List.range 32).map fun l =>
              packLane32 w fun j => g.deliver fm (numFma g.down (fm.read g.ftz (digit w (lanesOf act bs l) j))
                (fm.read g.ftz (digit w (b.lane l) j)) (fm.read g.ftz (digit w (c.lane l) j))))

/-- The first active lane whose row leaves the stripe (25/R370). -/
def dotLeaves (act : BitVec 32) (off : Nat) : Bool :=
  (List.range 32).any fun l => laneOn act l && 65536 < off + 128 * l + 128

/-- The bytes of the rows of the active lanes. -/
def dotBytes (act : BitVec 32) : List Nat := (List.range 4096).filter fun o => laneOn act (o / 128)

/-- The dot product of one row with x (25/R370, 12/R203). -/
def rowDot (g : Group) (t : Ty) (row : List Byte) (x : VReg) (d : Nat) : FRes :=
  let fm := (fmtOf t).getD fmtBf16
  let r := numOf row
  dotSum g (fmtF32.read g.ftz d) ((List.range 64).map fun k =>
    numMul (fm.read g.ftz (digit 16 r k)) (fm.read g.ftz (digit 16 x.data.toNat k)))

/-- `nbdot` (25/R370). -/
def execNbdot (f : Form) (s : State) : Host.Outcome State Fault Refusal :=
  runIf (.nbdot f) s (fun _ _ => (arithMode s.me.fm).isNone) fun info f =>
    let i := Instr.nbdot f
    let act := s.me.active f
    let x := s.me.scalar f.a
    let off := x.toNat % 65536
    if act == 0 then .ok s
    else match bankRow i s (bankD s.me f) x false with
      | .error h => .error h
      | .ok (r, s0) =>
        if dotLeaves act off then .error (.fail (trapOf i s.me 18 (r.lo + 65536)) s0)
        else match readRow i s0 (r.lo + BitVec.ofNat 64 off) r.la (dotBytes act) with
          | .error h => .error h
          | .ok (bs, s1) => match readSources i info f false s1 with
            | .error h => .error h
            | .ok s2 =>
              let g := s.me
              let t := f.type info.base
              let b := s.source f.b t
              let d := s.source f.d .f32
              let row (l : Nat) : List Byte :=
                (bs.drop (128 * ((List.range l).filter (laneOn act)).length)).take 128
              fpFinish i info f g s2 false ((List.range 32).map fun l =>
                if laneOn act l then rowDot g t (row l) b (d.lane l) else ⟨0, 0⟩)

/-- `nbst` (27/R395): its bytes reach the bank at commit (08/R123). -/
def execNbst (f : Form) (s : State) : Host.Outcome State Fault Refusal :=
  run (.nbst f) s fun _ f =>
    let i := Instr.nbst f
    let act := s.me.active f
    let x := s.me.address f
    if act == 0 then .ok s
    else match bankRow i s (bankD s.me f) x true with
      | .error h => .error h
      | .ok (r, s) =>
        if s.nearBusy r.la then .error (.wait .register)
        else .ok (s.writeRuns r.la (s.who s.me (r.lo + BitVec.ofNat 64 (x.toNat % 65536)) 2)
          (laneRuns act (s.source f.d .v)))

/-! ### Compute-capable pages (25/R369, 26/R380, 27/R396) -/

/-- Some byte of the 2 MiB at v lies in a page that the hardware installed (28/R409). -/
def State.installedAt (s : State) (p v : Nat) : Bool := (List.range 32).any fun k => (s.special p (v + 65536 * k)).isSome

/-- The walks of the pages of 64 KiB at some indexes from v, up to the first that does not end at an invalid entry. -/
def State.walkAll (p v : Nat) (w : Who) : List Nat → State → Walk × State
  | [], s => (.invalid, s)
  | k :: ks, s => match s.walk p (v + 65536 * k) w with
    | (.invalid, s) => State.walkAll p v w ks s
    | r => r

/-- The lowest slot free in all 32 banks of a half; none where a bank is retired or no slot is free. -/
def Partition.freeStripe (p : Partition) (h : Nat) : Option Nat :=
  let banks := (List.range 32).map (32 * h + ·)
  if banks.all p.bankmap.getLsbD then
    (List.range (p.spool / 65536)).find? fun x => banks.all fun b => !(p.banks.get b {}).slots.contains x
  else none

/-- A local address lies in slot x of a bank of half h. -/
def inStripe (p h x la : Nat) : Bool :=
  let off := la % partWindow
  la / partWindow == p && directBase ≤ off && (off - directBase) / 2 ^ 26 / 32 == h
    && (off - directBase) % 2 ^ 26 / 65536 == x

/-- The slots of a page marked as taken or free. -/
def State.markStripe (s : State) (p h x : Nat) (taken : Bool) : State :=
  s.modPart p fun y => { y with
    banks := ((List.range 32).map (32 * h + ·)).foldl (fun m b =>
      let k := s.bank p b
      m.set b { k with slots := if taken then x :: k.slots else k.slots.filter (· ≠ x) }) y.banks }

/-- Every byte of a page's stripes reads 0. -/
def State.zeroStripe (s : State) (p h x : Nat) : State :=
  { s with
    mem := s.mem.filter fun c => !inStripe p h x c.1
    damaged := s.damaged.filter fun c => !inStripe p h x (64 * c.1)
    codes := s.codes.filter fun c => !inStripe p h x (256 * c.1) }

/-- The leaf of a 2 MiB page written into the tree, or kept by the hardware where the tree has no table for it (log 20). -/
def State.writeLeaf (s : State) (p v : Nat) (e : Word) (w : Who) : State :=
  let keep (x : Option Word) : State := s.modPart p fun y => { y with
    cpages := match x with | some e => y.cpages.set (v / 2 ^ 21) e | none => y.cpages.erase (v / 2 ^ 21) }
  match s.entrySpot p v with
  | some a => (keep none).writeRuns a w [(0, bytesOf e.toNat 8)]
  | none => keep (if e = 0 then none else some e)

/-- The leaf of a page that `mapc` maps (25/R369): V, W, C, PIN; MODULE the module itself. -/
def computeLeaf (module la : Nat) : Word := BitVec.ofNat 64 (module * 2 ^ 44 + la + 0x309)

/-- The address checks of `mapc` and `unmapc` (25/R369). -/
def pageCheck (i : Instr) (g : Group) (v : Word) : Except Halt Unit :=
  if v.toNat % 2 ^ 21 ≠ 0 then .error (misaligned i g v)
  else if v.toNat / 2 ^ 52 ≠ 0 then .error (badAddress i g v)
  else .ok ()

/-- The stripe of bank j of half h in slot x (26/R380). -/
def stripeAddr (p h x j : Nat) : Nat := p * partWindow + directBase + (32 * h + j) * 2 ^ 26 + 65536 * x

/-- Unrecoverable translation of an instruction whose own walk meets an entry that cannot be read (26/R388). -/
def walkFails (i : Instr) (va : Word) (s : State) : Halt := .fail { trapOf i s.me 19 va with place := 7 } s

/-- `mapc` (25/R369). It waits while a bank of the page refreshes (26/R383). -/
def execMapc (f : Form) (s : State) : Host.Outcome State Fault Refusal :=
  runIf (.mapc f) s (fun _ f => 2 ≤ (s.me.scalar f.b).toNat) fun _ f =>
    let i := Instr.mapc f
    let v := s.me.scalar f.a
    let h := (s.me.scalar f.b).toNat
    let p := s.myPart
    let w := s.who s.me v 7
    match pageCheck i s.me v with
    | .error e => .error e
    | .ok _ =>
      if s.installedAt p v.toNat then .ok (s.setScalar f.d 1)
      else match State.walkAll p v.toNat w (List.range 32) s with
        | (.busy, _) => .error (.wait .register)
        | (.unread, s) => .error (walkFails i v s)
        | (.leaf _, s) | (.malformed, s) => .ok (s.setScalar f.d 1)
        | (.invalid, s) => match (s.part p).freeStripe h with
          | none => .ok (s.setScalar f.d 2)
          | some x =>
            if (List.range 32).any fun j => s.bankBusy (stripeAddr p h x j) then .error (.wait .register)
            else
              let s := ((s.markStripe p h x true).zeroStripe p h x).writeLeaf p v.toNat (computeLeaf s.module (stripeAddr p h x 0)) w
              .ok ((s.invalidatePart p v.toNat (2 ^ 21)).setScalar f.d 0)

/-- A near-bank instruction waits in the place window of a group of the partition, against a page. -/
def State.nearWaits (s : State) (p v : Nat) : Bool :=
  s.groups.any fun g => corePart g.2.core == p && g.2.win.any fun w =>
    0xE0 ≤ w.ins.opcode && w.ins.opcode ≤ 0xE3 && w.va.toNat / 2 ^ 21 == v / 2 ^ 21

/-- `unmapc` (27/R396). -/
def execUnmapc (f : Form) (s : State) : Host.Outcome State Fault Refusal :=
  run (.unmapc f) s fun _ f =>
    let i := Instr.unmapc f
    let v := s.me.scalar f.a
    let p := s.myPart
    let w := s.who s.me v 7
    match pageCheck i s.me v with
    | .error e => .error e
    | .ok _ =>
      if s.nearWaits p v.toNat then .error (.wait .register)
      else match s.walk p v.toNat w with
        | (.leaf l, s) =>
          if l.large && leafC l.entry && s.leafOk l then
            let off := leafAddr l.entry % partWindow - directBase
            let s := (s.writeLeaf p v.toNat 0 w).markStripe (leafAddr l.entry / partWindow) (leafHalf l)
              (off % 2 ^ 26 / 65536) false
            .ok ((s.invalidatePart p v.toNat (2 ^ 21)).setScalar f.d 0)
          else .ok (s.setScalar f.d 1)
        | (.busy, _) => .error (.wait .register)
        | (.unread, s) => .error (walkFails i v s)
        | (_, s) => .ok (s.setScalar f.d 1)

/-! ### `xinv` (27/R397) -/

/-- Whether a core's buffers are named: the partition's, or those of the issuer's facing cluster pair. -/
def invNames (core : Nat) (pair : Bool) (c : Nat) : Bool :=
  if pair then coreCluster c == coreCluster core || coreCluster c == coreCluster (facing core)
  else corePart c == corePart core

/-- An access of a named core, translated in the range, is still outstanding: of a group, stores in its combining buffer and translations
kept for accesses that have not committed among them, of the hardware through the core's buffers, or of a copy. -/
def State.inFlight (s : State) (names : Nat → Bool) (lo n : Nat) : Bool :=
  let hit (va : Word) : Bool := lo ≤ va.toNat && va.toNat < lo + n
  s.groups.any (fun g => names g.2.core
      && (g.2.splits.any (fun l => l.got.isNone && hit l.va) || g.2.asked.any (fun a => a.answer.isNone && hit a.va)
        || g.2.wc.any (fun l => hit (BitVec.ofNat 64 l.va)) || g.2.granted.any (fun t => hit t.1) || g.2.posted.any (fun w => hit (BitVec.ofNat 64 w.2))
        || g.2.win.any fun w => w.found.any fun t => hit t.1))
    || s.hwAsks.any (fun a => names a.core && a.answer.isNone && hit (BitVec.ofNat 64 a.va))
    || s.cores.any fun c => names c.1 && c.2.copies.any fun y => y.2.ask.any fun a => a.answer.isNone && hit a.va

/-- `xinv` (27/R397). -/
def execXinv (f : Form) (s : State) : Host.Outcome State Fault Refusal :=
  run (.xinv f) s fun _ f =>
    let i := Instr.xinv f
    let a := s.me.scalar f.a
    let b := s.me.scalar f.b
    if a.toNat % 65536 ≠ 0 then .error (misaligned i s.me a)
    else if b.toNat % 65536 ≠ 0 then .error (misaligned i s.me b)
    else if b ≠ 0 && 2 ^ 52 < a.toNat + b.toNat then .error (badAddress i s.me a)
    else match s.me.returned true with
    | .error h => .error h
    | .ok _ =>
      let s := s.drainWc s.meId
      let names := invNames s.me.core (f.scope == 3)
      let (lo, n) := if b = 0 then (0, 2 ^ 52) else (a.toNat, b.toNat)
      if s.inFlight names lo n then .error (.held .answer s)
      else .ok (s.invalidate names lo n)

end Sys2Proof.Machine
end

