-- ==== Sys2Proof/Machine/Places.lean ====
section
/-!
DEFINITION. Meanings: `plc`, `qfree`, `xchg` (03/R45-R54, 06/R112-R114), the travel of culvert entries and slot returns
(03/R47, R52).
-/

namespace Sys2Proof.Machine

open Sys2Proof

/-! ### `plc` -/

/-- The launch whose tendered team a core has bid for (22/R347). -/
def State.bidFor (s : State) (c : Nat) : Option Launch := (s.core c).reserved.bind (s.part (corePart c)).slots.get?

/-- Bank registers of a partition that are held for tendered teams, bid for or awarded (22/R347). -/
def State.banksHeld (s : State) (p : Nat) : List (Nat × Nat) :=
  (s.cores.flatMap fun k => if corePart k.1 = p then ((s.bidFor k.1).map (·.banks)).getD [] else [])
    ++ s.teams.flatMap fun t => if t.2.part = p && t.2.state == .awarded then
      (((s.part p).slots.get? t.2.slot).map (·.banks)).getD [] else []

/-- A bank register is free for a placement (02/R25, 03/R37). -/
def State.bankFree (s : State) (p : Nat) (b : Nat × Nat) : Bool :=
  (((s.part p).banks.get b.1 {}).owner.get? b.2).isNone && !(s.banksHeld p).contains b

/-- What a `plc` asks for: the new map entry, or the cause of its place fault (06/R112). A slot that an uncommitted `plc` has
claimed is held (03/R45), as are that of a register that a trap has relieved (08/R139) and a bank register held for a tendered team
(22/R347; log 66). -/
def plcTarget (s : State) (f : Form) (n : Nat) : Except Nat (BitVec 32) :=
  let g := s.me
  let pl := f.plc.toNat
  let i := f.imm.toNat
  let any := i / 2 ^ 16 % 2 = 1
  let slot := i % 2 ^ 16
  let bank := slot / 2 ^ 10
  let entry (slot : Nat) : BitVec 32 := BitVec.ofNat 32 (pl * 2 ^ 29 + slot)
  let p := s.part s.myPart
  let owner (r : Nat) : Option (Nat × Nat) := (p.banks.get bank {}).owner.get? r
  let kept : Bool := g.relieved n && g.ownEntry n == entry slot || (owner (slot / 32 % 32)).isNone && !s.bankFree s.myPart (bank, slot / 32 % 32)
  let inTeam := s.groups.any fun x => x.2.team == g.team &&
    (((List.range 128).any fun m => (if x.1 = s.meId && m = n then (if g.relieved n then [g.ownEntry n] else []) else x.2.entries m).contains (entry slot))
      || x.2.claims.any fun c => c.2 == entry slot && !(x.1 == s.meId && c.1 == n))
  if mapQKind (g.entry n) ≠ 0 || pl = 3 then .error 6
  else if (g.localHead n).isSome then .error 9
  else if 4 ≤ pl then .error 1
  else if i / 2 ^ 17 ≠ 0 || (any && pl ≠ 2) || (any && slot / 32 % 32 ≠ 0) || (pl = 0 && slot ≠ 0)
      || (pl = 1 && 512 * s.myTeam.n ≤ slot) || (pl = 2 && slot % 32 ≠ 0) then .error 2
  else if pl = 2 && !s.bankComputes s.myPart bank then .error 4
  else if pl = 1 && inTeam then .error 3
  else if pl = 2 && !any && (kept || (match owner (slot / 32 % 32) with | some o => o != (s.meId, n) | none => false)) then .error 3
  else if any then
    match (List.range 32).find? fun r => s.bankFree s.myPart (bank, r) with
    | none => .error 5
    | some r => .ok (entry (bank * 2 ^ 10 + r * 32))
  else .ok (entry slot)

/-- The unit of the bank register of a map entry waits with its bank (26/R381). -/
def State.unitWaits (s : State) (p : Nat) (e : BitVec 32) : Bool := mapPlace e == 2 && s.bankBlocked p (bankOf e).1

/-- The slot of a map entry freed. -/
def State.freeSlot (s : State) (p : Nat) (e : BitVec 32) : State :=
  if mapPlace e = 2 then s.ownBank p (bankOf e).1 (bankOf e).2 none else s

/-- `plc` (03/R45, 06/R112). -/
def execPlc (f : Form) (s : State) : Host.Outcome State Fault Refusal :=
  run (.plc f) s fun _ f =>
    let i := Instr.plc f
    let n := f.d.toNat
    let g := s.me
    let old := g.entry n
    match plcTarget s f n with
    | .error c => .error (placeFault i g c n)
    | .ok new =>
      if g.loading (.vec n) then .error (.wait .register)
      else if new = old then .ok s
      else if s.unitWaits s.myPart old || s.unitWaits s.myPart new then .error (.wait .register)
      else
        let gate : Except Halt Unit :=
          if mapPlace old = 1 then
            match s.gate g.team (128 * mapSlot old) 128 with
            | .wait => .error (.wait .gated)
            | .broken => .error (.trap { trapOf i g 13 (BitVec.ofNat 64 (128 * mapSlot old)) with place := 1 })
            | .go => if s.slotBad g.team (mapSlot old) then .error (spFault i s (128 * mapSlot old)) else .ok ()
          else .ok ()
        match gate with
        | .error h => .error h
        | .ok _ =>
          let v := s.vreg n
          let s := s.freeSlot s.myPart old
          let s := { s with me := { s.me with pmap := s.me.pmap.set n new } }
          .ok (match mapPlace new with
            | 1 => s.writeSlot g.team (mapSlot new) v.whole
            | 2 =>
              let (b, r) := bankOf new
              (s.ownBank s.myPart b r (some (s.meId, n))).setBankReg s.myPart b r v
            | _ => { s with me := { s.me with regs := s.me.regs.set n v } })

/-! ### `qfree` -/

/-- Pushes into the queue `vN` that have issued and not committed; their slots are taken at issue (03/R49). -/
def Group.windowPushes (g : Group) (n : Nat) : Nat := (g.win.filter fun w => w.pushes n).length

/-- The free-slot count of a queue register; 0 for another register (03/R52). -/
def State.freeSlots (s : State) (n : Nat) : Nat :=
  let e := s.me.entry n
  let k := culvertOf s.me.core e
  let c := s.culvert k
  match mapQKind e with
  | 1 => mapQDepth e - (s.me.lqueues.get n []).length - s.me.windowPushes n
  | 2 => c.depth - s.slotsTaken k c - s.me.windowPushes n
  | 3 => c.depth - c.entries.length
  | _ => 0

/-- `qfree` (03/R52, 06/R113): neither a read nor a write of the queue. -/
def execQfree (f : Form) (s : State) : Host.Outcome State Fault Refusal :=
  run (.qfree f) s fun _ f => .ok (s.setScalar f.d (BitVec.ofNat 64 (s.freeSlots f.a.toNat)))

/-! ### Culverts -/

/-- A pushed entry arrives at the in end 12 cycles after its push (03/R47, log 13); one for an in-end group that has exited
is discarded (R53). -/
def execCulvertEntryArrival (s : State) : Host.Outcome State Fault Refusal :=
  let q := s.subject
  .next (match (s.culvert q).flying with
    | (t, v) :: rest =>
      if t ≤ s.cycles (culvertEnd q false) then
        s.modCulvert q fun c => { c with flying := rest, entries := if c.inGone then [] else c.entries ++ [v] }
      else s
    | [] => s)

/-- A slot return that has reached the out end is counted from the next cycle on (03/R52). -/
def execSlotReturn (s : State) : Host.Outcome State Fault Refusal :=
  let q := s.subject
  .next (match (s.culvert q).returns with
    | t :: rest => if t < s.cycles (culvertEnd q true) then s.modCulvert q fun c => { c with returns := rest, taken := c.taken - 1 } else s
    | [] => s)

/-! ### `xchg` -/

/-- Where the partner of an `xchg` stands (03/R54, 06/R114). -/
inductive Partner where
  | far
  | gone
  | waits
  | there (g : Nat)
deriving DecidableEq, Repr

/-- The team with an index in the launch of the group whose turn it is. -/
def State.launchTeam (s : State) (index : Nat) : Option (Nat × Team) :=
  let t := s.myTeam
  s.teams.find? fun x => x.2.part == t.part && x.2.slot == t.slot && x.2.index == index && x.2.steward == t.steward

/-- The launch of a team's slot. -/
def State.launchOf (s : State) (t : Team) : Launch := (s.part t.part).slots.get t.slot {}

def State.partner (s : State) (team group : Nat) : Partner :=
  let l := s.launchOf s.myTeam
  let total := if s.myTeam.steward then 1 else l.grid * l.teams
  let count := if s.myTeam.steward then s.myTeam.ngroups else l.groups.getD (team % max 1 l.teams) 0
  if total ≤ team || count ≤ group then .far
  else match s.launchTeam team with
    | none => if team < l.oldest || (l.ended.get? team).isSome then .gone else .waits
    | some (t, x) =>
      match x.state with
      | .bound | .awarded => .waits
      | _ =>
        if coreCluster x.core = coreCluster s.me.core || x.core / 256 ≠ s.me.core / 256 then .far
        else if x.exited.contains group then .gone
        else match s.groups.find? fun g => g.2.team == t && g.2.index == group with
          | some g => .there g.1
          | none => .waits

/-- The value that a group gives at an `xchg`: its register, or the oldest entry of a local queue (03/R46, R47). -/
def Group.gives (g : Group) (n : Nat) : VReg :=
  if mapQKind (g.entry n) = 1 then ((g.lqueues.get n []).head?).getD .fresh else g.regs.get n .fresh

/-- What a group receives at an `xchg` in the lanes m active on both sides, with their scale bytes (03/R54): a local queue pops its
entry and takes a new one that holds the lanes received; without an active lane it does neither (03/R47). -/
def Group.takes (g : Group) (n : Nat) (m : BitVec 32) (v : VReg) : Group :=
  let w := scaledWrite m v.lane v.scaleByte
  if mapQKind (g.entry n) = 1 then
    if g.em = 0 then g else { g with lqueues := g.lqueues.set n ((g.lqueues.get n []).drop 1 ++ [w.onto .fresh]) }
  else { g with regs := g.regs.set n (w.onto (g.regs.get n .fresh)) }

/-- The register exchanged by a group at an `xchg`: each exchanges the one its own instruction names. -/
def State.swapWith (s : State) (f : Form) (h : Nat) (w : XWait) : State :=
  let x := s.group h
  let m := s.me.em &&& w.mask
  let n := f.d.toNat
  let k := w.form.d.toNat
  let s' : State := { s with me := s.me.takes n m (x.gives k) }
  let s' := s'.setGroup h (x.takes k m (s.me.gives n))
  s'.asGroup h (retire (.xchg w.form) w.mask)

/-- `xchg` (03/R54, 06/R114); a partner word with bits above the group is illegal before the place or queue that holds D is judged (08/R130; log 69). -/
def execXchg (f : Form) (s : State) : Host.Outcome State Fault Refusal :=
  runIf (.xchg f) s (fun _ f => (s.me.scalar f.a).toNat / 2 ^ 21 ≠ 0) fun _ f =>
    let i := Instr.xchg f
    let g := s.me
    let n := f.d.toNat
    let v := (g.scalar f.a).toNat
    let team := v % 2 ^ 16
    let group := v / 2 ^ 16 % 32
    let here := (g.index, s.myTeam.index)
    if mapPlace (g.entry n) ≠ 0 then .error (.trap (trapOf i g 9 (BitVec.ofNat 64 n)))
    else if g.loading (.vec n) then .error (.wait .register)
    else if mapQKind (g.entry n) = 1 && g.em ≠ 0 && (g.lqueues.get n []).isEmpty then .error (.wait .queue)
    else
      let waits : Halt := .held .xchg { s with me := { g with xw := some { form := f, team, group, mask := g.em } } }
      match s.partner team group with
      | .far => .error (placeFault i g 10 n)
      | .gone => .error (.trap { trapOf i g 16 (BitVec.ofNat 64 v) with tlm := 0 })
      | .waits => .error waits
      | .there h =>
        let x := s.group h
        match x.xw with
        | some w =>
          if x.status = .running && x.sched = .active && w.team = here.2 && w.group = here.1 then
            .ok (s.swapWith f h w)
          else .error waits
        | none => .error waits

end Sys2Proof.Machine
end

