-- ==== Sys2Proof/Machine/Power.lean ====
section
/-!
DEFINITION. Meanings: gating, waking, levels, Weir budgets, heat and current slew (03/R55, 06/R115, 23/R353-R361,
24/R367, R368, 28/R415), and the steps of the Headgate and of the firmware that they name. Times are cycles of 1.1 GHz.
-/

namespace Sys2Proof.Machine

open Sys2Proof

/-! ### Islands (23/R355-R358) -/

/-- The group has pushed into a culvert out end, and the push has not committed (03/R49). -/
def Group.pushesOut (g : Group) : Bool :=
  g.win.any fun w => match Spec.of w.ins.form.d with
    | .vec n => mapQKind (g.entry n) == 2 && w.pushes n
    | _ => false

/-- An island's culverts hold entries (03/R55): an entry, a push or a slot return in flight toward it; a push is in flight from
its issue on (R49), and a return until the cycle in which it arrives. -/
def State.culvertsHold (s : State) (c : Nat) : Bool :=
  s.groups.any (fun g => g.2.core == facing c && g.2.pushesOut) || s.culverts.any fun q => culvertLow q.1 == lowerCore c &&
    (!q.2.entries.isEmpty || (!q.2.flying.isEmpty && culvertEnd q.1 true == c)
      || (culvertEnd q.1 false == c && (q.2.returns ++ q.2.past).any fun t => s.cycles (culvertEnd q.1 true) < t))

/-- Gating begins (23/R358): the request is served. -/
def State.gateIsland (s : State) (c : Nat) : State :=
  s.modCore c fun x => { x with power := .gating, since := s.time, request := false, grantAt := none, wake := false }

/-- An island is idle: no resident group, culverts empty (03/R55). -/
def State.idle (s : State) (c : Nat) : Bool := (s.residents c).isEmpty && !s.culvertsHold c

/-- A wake of an island (23/R358): a gated one enters its cluster's Headgate queue at once. -/
def State.wakeIsland (s : State) (c : Nat) : State :=
  let x := s.core c
  if x.power = .on || x.power = .waking || x.wake then s
  else
    let s := s.modCore c fun x => { x with wake := true }
    if x.power = .gated then s.modCluster (coreCluster c) fun k => { k with queue := k.queue ++ [c] } else s

/-- The island that `pgr` and `pwrq` select (06/R115); none is an illegal value. -/
def islandOf (own : Nat) (v : Nat) : Option Nat :=
  if v = 0 then some own
  else if v = 1 then some (facing own)
  else if 0x100 ≤ v && v ≤ 0xCFF then some (v - 0x100)
  else none

/-- `pgr` at issue (06/R115, 03/R55): the status and the state with the request made; a request already held merges. -/
def State.gateRequest (s : State) (c : Nat) : Nat × State :=
  let x := s.core c
  if corePart c ≠ s.myPart then (2, s)
  else match x.power with
    | .gating | .hold | .gated => (0, s)
    | _ =>
      if x.request || !s.idle c then (1, s.modCore c fun x => { x with request := true })
      else (0, s.gateIsland c)

/-- `pgr` (06/R115). -/
def execPgr (f : Form) (s : State) : Host.Outcome State Fault Refusal :=
  runIf (.pgr f) s (fun _ f => (islandOf s.me.core (s.me.scalar f.a).toNat).isNone) fun _ f =>
    match islandOf s.me.core (s.me.scalar f.a).toNat with
    | none => .error (illegal (.pgr f) s.me)
    | some c =>
      let r := s.gateRequest c
      .ok (r.2.setScalar f.d (BitVec.ofNat 64 r.1))

/-- A held request becomes grantable when the island is idle, and is granted in the next cycle (03/R55).
One whose island is waking is granted only after the wake, though a fresh `pgr` gates such an island at once (log 64). -/
def execHeldRequestGrant (s : State) : Host.Outcome State Fault Refusal :=
  let c := s.subject
  let x := s.core c
  .next (if !x.request || x.power ≠ .on then s
    else if !s.idle c then s.modCore c fun x => { x with grantAt := none }
    else match x.grantAt with
      | none => s.modCore c fun x => { x with grantAt := some (s.time + 1) }
      | some t => if t ≤ s.time then s.gateIsland c else s)

/-- The rails have discharged 500 ns after the grant (23/R358). -/
def execGatingDischarged (s : State) : Host.Outcome State Fault Refusal :=
  let c := s.subject
  let x := s.core c
  .next (if x.power = .gating && !x.wake && x.since + 550 ≤ s.time then s.modCore c fun x => { x with power := .hold } else s)

/-- A wake in state 1 cancels the gate (23/R358). -/
def execGateCancelled (s : State) : Host.Outcome State Fault Refusal :=
  let c := s.subject
  let x := s.core c
  .next (if x.power = .gating && x.wake then s.modCore c fun x => { x with power := .on, wake := false } else s)

/-- The hold ends 2 µs after the grant; a queued wake enters the Headgate queue (23/R358). -/
def execHoldEnd (s : State) : Host.Outcome State Fault Refusal :=
  let c := s.subject
  let x := s.core c
  .next (if x.power = .hold && x.since + 2200 ≤ s.time then
      let s := s.modCore c fun x => { x with power := .gated }
      if x.wake then s.modCluster (coreCluster c) fun k => { k with queue := k.queue ++ [c] } else s
    else s)

/-- The Headgate serves the in-rush of one island of a cluster at a time (23/R358). -/
def execInrushSlot (s : State) : Host.Outcome State Fault Refusal :=
  let k := s.subject
  let busy := (List.range 8).any fun j => (s.core (8 * k + j)).power == .waking
  .next (match (s.cluster k).queue with
    | c :: rest =>
      if busy then s
      else (s.modCluster k fun x => { x with queue := rest }).modCore c fun x =>
        { x with power := .waking, since := s.time }
    | [] => s)

/-- A wake completes 200 ns after its slot (23/R358). -/
def execWakeComplete (s : State) : Host.Outcome State Fault Refusal :=
  let c := s.subject
  let x := s.core c
  .next (if x.power = .waking && x.since + 220 ≤ s.time then
    s.modCore c fun x => { x with power := .on, wake := false } else s)

/-! ### Levels (23/R356, R357) -/

/-- An island reaches its target, at a moment the hardware chooses (23/R357). -/
def execLevelReached (s : State) : Host.Outcome State Fault Refusal :=
  let c := s.subject
  .next (s.modCore c fun x => { x with reached := s.targetLevel c })

/-- `perf` (23/R356, 24/R367). -/
def execPerf (f : Form) (s : State) : Host.Outcome State Fault Refusal :=
  run (.perf f) s fun info f =>
    let i := Instr.perf f
    let set (s : State) (x : Nat) : State := { s with me := { s.me with level := min x 7 } }
    if (Spec.of f.a).isVector then
      let act := s.me.active f
      if act = 0 then .ok s
      else match readSources i info f false s with
        | .error h => .error h
        | .ok s' =>
          let v := s.source f.a .u32
          .ok (set s' (((List.range 32).filter (laneOn act)).foldl (fun n l => max n (v.lane l)) 0))
    else .ok (set s (s.me.scalar f.a).toNat)

/-! ### Weir (23/R353, R354) -/

/-- The claims of a cluster's teams: energy and peak (23/R353). -/
def State.claims (s : State) (k : Nat) : Nat × Nat :=
  s.teams.foldl (fun acc t =>
    if t.2.claims && coreCluster t.2.core == k then (acc.1 + t.2.energy, acc.2 + t.2.peak) else acc) (0, 0)

/-- What remains of a cluster's budget. -/
def State.remaining (s : State) (k : Nat) : Nat × Nat :=
  ((s.cluster k).energy - (s.claims k).1, (s.cluster k).peak - (s.claims k).2)

/-- A control interval starts, 10 µs after the one before (23/R354): `used` is the energy that the cluster used in the one that ended. -/
def execWeirInterval (cl used : Nat) (s : State) : Host.Outcome State Fault Refusal :=
  let overrun := (s.cluster cl).energy < used
  let t := s.modCluster cl fun k => { k with overrun, used := 0, weirAt := s.time }
  .next (if s.time < (s.cluster cl).weirAt + weirPeriod then s
    else (List.range 8).foldl (fun t j =>
      t.modCore (8 * cl + j) fun x => { x with ocap := if overrun then s.levelNow (8 * cl + j) - 1 else 7 }) t)

/-! ### Heat (23/R359, R360) -/

/-- The class after a poll. -/
def Cluster.nextClass (k : Cluster) (tclu tbase : Int) : Nat :=
  let top := max tclu tbase
  let up := if k.t3 ≤ top then 3 else if k.t2 ≤ top then 2 else if k.t1 ≤ top then 1 else 0
  if k.cls < up then up
  else
    let bound := match k.cls with | 1 => k.t1 | 2 => k.t2 | _ => k.t3
    if k.cls ≠ 0 && top < bound - k.hyst then k.cls - 1 else k.cls

/-- The trap of a thermal abort (08/R128, R132). -/
def thermalTrap : Trap := { kind := 21, tval := 3, tlm := 0, place := 4, op := 0, nxs := false }

/-- Thermal abort of the groups of a cluster inside a non-preemptible region (08/R132, 23/R360), parked ones too; it goes to the
steward. A group that the steward has stopped takes none, and its region is broken. -/
def State.thermalAbort (s : State) (cl : Nat) : State :=
  (s.groups.filter fun g => coreCluster g.2.core == cl && g.2.npr.isSome).foldl
    (fun s g => s.modGroup g.1 fun x =>
      if x.status == .running || x.status == .parked then
        { x with pend := some thermalTrap }
      else { x with npr := none }) s

/-- A poll of the diodes (23/R359), every 50 µs; at class 3 it aborts the regions that are open (R360). -/
def execThermalPoll (cl tclu tbase : Nat) (s : State) : Host.Outcome State Fault Refusal :=
  let k := s.cluster cl
  let n := k.nextClass tclu tbase
  .next (if s.time < k.pollAt + pollPeriod then s
    else
      let t := s.modCluster cl fun k => { k with cls := n, tclu, tbase, pollAt := s.time }
      let t := if n = k.cls then t else t.notify (corePart (8 * cl)) 0x4A (BitVec.ofNat 64 (cl + n * 2 ^ 16))
      if n = 3 then t.thermalAbort cl else t)

/-- The current cycle of a core is a bubble of its matrix port (23/R360): 1 in every n. -/
def State.bubble (s : State) (c : Nat) : Bool :=
  let k := s.cluster (coreCluster c)
  k.cls != 0 && s.cycles c % k.bubble == k.bubble - 1

/-! ### Current slew (23/R361) -/

/-- A droop throttles partitions of its terrace. -/
def execDroopDetected (terrace : Nat) (ps : List Nat) (s : State) : Host.Outcome State Fault Refusal :=
  .next ((ps.filter fun p => p / 4 == terrace).foldl (fun t p => t.modPart p fun x => { x with slew := some s.time }) s)

/-- A partition's demand would rise faster than its budget. -/
def execCurrentSlewExceeded (s : State) : Host.Outcome State Fault Refusal :=
  .next (s.modPart s.subject fun x => { x with slew := some s.time })

/-- Throttling lasts until the rise falls within the budget, and at least 1 µs. -/
def execSlewThrottleEnd (s : State) : Host.Outcome State Fault Refusal :=
  let p := s.subject
  .next (match (s.part p).slew with
    | some t => if t + usCycles ≤ s.time && (s.part p).rise ≤ (s.part p).slewMax then s.modPart p fun x => { x with slew := none } else s
    | none => s)

/-- Firmware plans the voltages again (28/R415): partitions whose islands no longer hold level 7, with their caps. -/
def execVoltageReplan (lowered : List (Nat × Nat)) (s : State) : Host.Outcome State Fault Refusal :=
  .next (lowered.foldl (fun t p => t.modPart p.1 fun x => { x with aged := min x.aged p.2 }) s)

/-! ### `pwrq` (24/R368) -/

/-- The status words: the field values placed at their lowest bits. -/
def fieldsWord (fs : List (Nat × Nat)) : Word := BitVec.ofNat 64 (fs.foldl (fun n f => n + f.1 * 2 ^ f.2) 0)

def State.lvlWord (s : State) (c : Nat) : Word :=
  fieldsWord [(s.levelNow c, 0), (s.targetLevel c, 4), (s.me.level, 8), ((s.part (corePart c)).levelCap, 12),
    (thermalCap (s.cluster (coreCluster c)).cls, 16), ((s.core c).ocap, 20)]

/-- The code of a power state (23/R358). -/
def Power.code : Power → Nat
  | .on => 0 | .gating => 1 | .hold => 2 | .gated => 3 | .waking => 4

def State.gateWord (s : State) (c : Nat) : Word :=
  let x := s.core c
  fieldsWord [(x.power.code, 0), (x.request.toNat, 4), ((x.reserved.isSome || 0 < (s.reservedOn c).1).toNat, 5), ((s.residents c).length, 8)]

/-- ECLASS of a cluster (22/R346): 15 × remaining ÷ budget. -/
def State.energyClass (s : State) (k : Nat) : Nat := 15 * (s.remaining k).1 / (s.cluster k).energy

def State.weirWord (s : State) (c : Nat) : Word :=
  let k := coreCluster c
  fieldsWord [(min (s.remaining k).1 65535, 0), (min (s.remaining k).2 65535, 16), (s.energyClass k, 32),
    ((s.cluster k).overrun.toNat, 36)]

/-- A diode reading in its 8-bit field. -/
def diode (t : Int) : Nat := min t.toNat 255

def State.thermWord (s : State) (c : Nat) : Word :=
  let k := s.cluster (coreCluster c)
  fieldsWord [(k.cls, 0), (diode k.tclu, 4), (diode k.tbase, 12), (k.bubble % 16, 20), ((s.part (corePart c)).slew.isSome.toNat, 24)]

/-- A status word of the island selected, `0x8000_0000_0000_0000` outside the partition. -/
def powerQuery (i : Instr) (s : State) (word : Nat → Word) : Host.Outcome State Fault Refusal :=
  runIf i s (fun _ f => (islandOf s.me.core (s.me.scalar f.a).toNat).isNone) fun _ f =>
    match islandOf s.me.core (s.me.scalar f.a).toNat with
    | none => .error (illegal i s.me)
    | some c => .ok (s.setScalar f.d (if corePart c = s.myPart then word c else 0x8000_0000_0000_0000))

/-- `pwrq.lvl` (24/R368). -/
def execPwrqLvl (f : Form) (s : State) : Host.Outcome State Fault Refusal := powerQuery (.pwrqLvl f) s s.lvlWord
/-- `pwrq.gate` (24/R368). -/
def execPwrqGate (f : Form) (s : State) : Host.Outcome State Fault Refusal := powerQuery (.pwrqGate f) s s.gateWord
/-- `pwrq.weir` (24/R368). -/
def execPwrqWeir (f : Form) (s : State) : Host.Outcome State Fault Refusal := powerQuery (.pwrqWeir f) s s.weirWord
/-- `pwrq.therm` (24/R368). -/
def execPwrqTherm (f : Form) (s : State) : Host.Outcome State Fault Refusal := powerQuery (.pwrqTherm f) s s.thermWord

end Sys2Proof.Machine
end

