-- ==== Sys2Proof/Machine/Teams.lean ====
section
/-!
DEFINITION. Register blocks (02/R26-R30), a group leaving (02/R20, R25, 03/R53, 13/R209, 14/R227), the end of a team
(02/R25, 10/R172, 21/R335), and the steps `groupExit`, `batchFailureReport`, `teamEndReport`, `trapEntry`.
-/

namespace Sys2Proof.Machine

open Sys2Proof

/-! ### Register blocks -/

/-- A logical block becomes held: its registers are at `ln` and read 0 (02/R28). -/
def Group.gainBlock (g : Group) (b : Nat) : Group :=
  { g with held := g.held ||| BitVec.ofNat 16 (2 ^ b), regs := dropBlock g.regs b, pmap := dropBlock g.pmap b, want := none }

def Group.loseBlock (g : Group) (b : Nat) : Group :=
  { g with held := g.held &&& ~~~(BitVec.ofNat 16 (2 ^ b)), regs := dropBlock g.regs b, pmap := dropBlock g.pmap b }

/-- Groups of a core that wait in `rbget` (02/R30). -/
def State.wanting (s : State) (c : Nat) : Map Group :=
  (s.residents c).filter fun x => x.2.status == .running && x.2.want.isSome

/-- A freed block goes to the oldest group waiting in `rbget`, else to the pool (02/R30, R26). -/
def State.giveBlock (s : State) (c : Nat) : State :=
  match leastGroup s.ageKey (s.wanting c) with
  | some (g, x) => s.setGroup g (x.gainBlock (x.want.getD 0))
  | none => s.modCore c fun k => { k with freeBlocks := min 255 (k.freeBlocks + 1) }

def State.giveBlocks (s : State) (c : Nat) : Nat → State
  | 0 => s
  | n + 1 => (s.giveBlock c).giveBlocks c n

/-- The bank registers and `sp` slots that a group's registers of some numbers hold are freed (03/R37). -/
def State.freePlaces (s : State) (g : Group) (ns : List Nat) : State :=
  ns.foldl (fun s n => s.freeSlot (corePart g.core) (g.ownEntry n)) s

/-- Every bank register that a group holds is freed (03/R37), one that its handler has declared in the relieved block among them
(08/R139, 09/R152). -/
def State.freeBanks (s : State) (p g : Nat) : State :=
  s.modPart p fun x => { x with banks := x.banks.update fun _ (k : Bank) =>
    let mine := (k.owner.filter fun o => o.2.1 == g).map (·.1)
    { k with owner := k.owner.filter fun o => o.2.1 != g, regs := k.regs.filter fun r => !mine.contains r.1 } }

/-- A group leaves its core for good, or for a full pre-emption: its blocks, places and fault-buffer entry are released. A
group that holds the emergency grant returns it (02/R30, 08/R146, 09/R152). -/
def State.releaseGroup (s : State) (g : Nat) : State :=
  let x := s.group g
  let n := if x.status = .out && !(s.team x.team).light then 0 else ((List.range 16).filter x.holds).length
  let s := s.freeBanks (corePart x.core) g
  let s := match x.parked with
    | some { entry := some e, .. } => s.modCore x.core fun k => { k with fbuf := k.fbuf.erase e }
    | _ => s
  let s := s.modGroup g fun x => { x with held := 0, emg := false, regs := [], pmap := [], relief := none, parked := none }
  if x.emg && 0 < n then (s.modCore x.core fun k => { k with emergency := true }).giveBlocks x.core (n - 1)
  else s.giveBlocks x.core n

/-- The emergency block (02/R30): every resident group waits in `rbget`; a handler never receives it (08/R140). -/
def State.grantEmergency (s : State) (c : Nat) : State :=
  let rs := s.residents c
  let k := s.core c
  if k.emergency && !rs.isEmpty && rs.all (fun x => x.2.status == .running && x.2.want.isSome) then
    match leastGroup s.ageKey (rs.filter fun x => !x.2.depth) with
    | some (g, x) =>
      (s.modCore c fun k => { k with emergency := false }).setGroup g { x.gainBlock (x.want.getD 0) with emg := true }
    | none => s
  else s

/-- The emergency block is granted on the core in `subject` (02/R30). -/
def execEmergencyBlockGrant (s : State) : Host.Outcome State Fault Refusal := .next (s.grantEmergency s.subject)

/-! ### Ends that go away -/

/-- A culvert queue with an end group gone (03/R53); the number is free once both are gone and the queue is empty (R50). -/
def Culvert.leave (c : Culvert) (g : Nat) : Culvert :=
  let c := if c.outEnd = g then { c with outGone := true } else c
  if c.inEnd = g then { c with inGone := true, entries := [] } else c

/-- A team has left its core by a full pre-emption (09/R152). -/
def State.frozen (s : State) (t : Nat) : Bool :=
  let x := s.team t
  (x.state == .out || x.state == .restoring) && !x.light

/-- The end of a culvert queue that a group of a team holds is away: its team is out, or the group has stopped
for a full pre-emption (03/R49, 09/R154). -/
def State.endAway (s : State) (t g : Nat) : Bool :=
  s.frozen t || (s.team t).preempt.any fun q => q.full && q.stopped.contains (s.group g).index

/-- A culvert queue stands still while one of its ends is away (03/R49, 09/R154). -/
def State.setAway (s : State) : State :=
  { s with culverts := s.culverts.update fun _ c =>
    { c with away := (!c.inGone && s.endAway c.inTeam c.inEnd) || (!c.outGone && s.endAway c.outTeam c.outEnd) } }

/-- A queue number is held (03/R50). -/
def Culvert.isHeld (c : Culvert) : Bool := !(c.outGone && c.inGone && c.entries.isEmpty && c.flying.isEmpty)

/-- A group waits at the latch. -/
def Group.atLatch (g : Group) : Bool := g.status == .running && g.wait == some .gang

/-- Waiting members of a gang take a rendezvous orphan when a member exits, and the arrivals are withdrawn (13/R209; logs 23, 73). -/
def State.orphan (s : State) (t : Nat) (index : Nat) : State :=
  let x := s.team t
  if x.latch.isEmpty || !x.gn.contains index then s
  else
    let tval := BitVec.ofNat 64 (x.index % 2 ^ 16 + index * 2 ^ 16)
    ((x.latch.filter fun a => (s.group a.gid).atLatch).foldl (fun s a => (s.modGroup a.gid fun g => { g with words := g.words + 1 }).takeTrap a.gid
      { kind := 16, tval, tlm := 0, place := 5, op := if a.swal then 0x91 else 0x90, nxs := false }) s).modTeam t
        fun x => { x with latch := [] }

/-- What an exited group leaves behind: its batches go on (14/R226), and those that failed unwaited are reported. -/
def Group.ghost (g : Group) (r : Report) : Group :=
  { Group.vacant with
    team := g.team, index := g.index, core := g.core, batch := g.batch, sealed := g.sealed, nextb := g.nextb, ident := r }

/-- A batch that an exited group's record still needs. -/
def Batch.open (b : Batch) : Bool := 0 < b.copies || (b.failed.isSome && !b.waited)

def Group.lingers (g : Group) : Bool := g.batch.open || g.sealed.any fun b => b.2.open

/-- A group is gone (02/R20, R25): its buffer drains (18/R279), its blocks and places are free, its culvert ends are gone,
waiting gang members are orphaned, its wait is over. -/
def State.leaveGroup (s : State) (g : Nat) : State :=
  let x := s.group g
  let r := s.groupReport x
  let s := (s.drainWc g).releaseGroup g
  let s := { s with culverts := s.culverts.update fun _ c => c.leave g }
  let s := s.modTeam x.team fun t => { t with exited := t.exited ++ [x.index] }
  let s := (s.endTeamBar x.team).endCohortBar (s.team x.team).cohort
  let ghost := (s.group g).ghost r
  let s := s.dropGroup g
  let s := if ghost.lingers then { s with others := s.others.set g ghost } else s
  ((s.orphan x.team x.index).fill x.core)

/-! ### The end of a team -/

/-- Scratchpad of a cohort is released once every team has ended and no multicast still lands (14/R228). -/
def State.releaseCohort (s : State) (k : Nat) : State :=
  let c := s.cohort k
  if c.total ≤ c.ended && c.mcount = 0 then { s with cohorts := s.cohorts.erase k } else s

/-- Copies of a team that stop: those into the team's own scratchpad when the team ends, which is freed (02/R25); every one
with a watermark when the team is ended by the steward (14/R222). -/
def State.dropCopies (s : State) (t : Nat) (ended : Bool) : State :=
  let gone (c : Copy) : Bool := c.team == t && !c.global && (ended || c.dst < cohortBase)
  let casts := (s.copies.filter fun c => gone c.2 && c.2.kind == .cpm).length
  let s := { s with cores := s.cores.update fun _ k => { k with
    fbuf := k.fbuf.filter fun e => match e.2.1 with
      | .copy id => !((k.copies.get? id).any gone)
      | .group _ => true
    copies := k.copies.filter fun c => !gone c.2 } }
  if casts = 0 then s else s.modCohort (s.team t).cohort fun k => { k with mcount := k.mcount - casts }

/-- Copies of a team that still read its scratchpad keep what it holds now (14/R226, 09/R153). -/
def State.keepSources (s : State) (t : Nat) : State :=
  let x := s.team t
  let kept : Kept := { sp := x.sp, seed := x.seed, bad := s.spDamage.get t [], n := x.n }
  { s with cores := s.cores.update fun _ (k : Core) => { k with copies := k.copies.update fun _ c =>
    if c.team = t && (c.spSrc || c.kind == .cpg) && c.kept.isNone then { c with kept := some kept } else c } }

/-- The entry of the reorder window is marked (21/R335). -/
def State.markEnd (s : State) (p slot index tval : Nat) : State :=
  s.modPart p fun x => match x.slots.get? slot with
    | none => x
    | some l => { x with slots := x.slots.set slot { l with
        marked := l.marked.set index tval, ended := l.ended.set index (if tval = 0 then 4 else 5) } }

/-- The queue ends of a team are gone (03/R53). -/
def Culvert.leaveTeam (c : Culvert) (t : Nat) : Culvert :=
  let c := if c.outTeam = t then { c with outGone := true } else c
  if c.inTeam = t then { c with inGone := true, entries := [] } else c

/-- A team is gone (02/R25, 21/R335): its state is discarded, its scratchpad freed, its end marked. -/
def State.finishTeam (s : State) (t tval : Nat) : State :=
  let x := s.team t
  let s := (s.dropCopies t (tval != 0)).keepSources t
  let s : State := { s with teams := s.teams.erase t, spDamage := (s.spDamage.erase t).erase (scaleKey t)
                            culverts := s.culverts.update fun _ c => c.leaveTeam t }
  let s := s.endCohortBar x.cohort
  let s := if s.cohorts.any (·.1 == x.cohort) then
      (s.modCohort x.cohort fun k => { k with ended := k.ended + 1 }).releaseCohort x.cohort
    else s
  if x.steward then s else s.markEnd x.part x.slot x.index tval

/-- A group whose instruction carried `=> exit` leaves (02/R20); the last one ends its team. -/
def State.exitGroup (s : State) (g : Nat) : State :=
  let x := s.group g
  if x.status = .exiting && x.win.isEmpty then
    let s := s.leaveGroup g
    if (s.team x.team).ngroups ≤ (s.team x.team).exited.length then s.finishTeam x.team 0 else s
  else s

/-- The group in `subject` ends (02/R20). -/
def execGroupExit (s : State) : Host.Outcome State Fault Refusal := .next (s.exitGroup s.subject)

/-! ### How a tender ends (20/R320, R321) -/

/-- The status word of a tender. -/
def Tender.word (t : Tender) (status bid core : Nat) : Word :=
  BitVec.ofNat 64 (status + t.wdraws * 2 ^ 8 + core * 2 ^ 16 + t.wdcore * 2 ^ 32 + bid * 2 ^ 48)

/-- Reservations of a partition's cores released, but for one core. -/
def State.unreserve (s : State) (p : Nat) (keep : Option Nat) : State :=
  { s with cores := s.cores.update fun c (k : Core) =>
    if corePart c = p && keep != some c then { k with reserved := none } else k }

/-- The status reaches the group that issued the `tndr`, which waits there until it does (22/R351). -/
def State.tellTender (s : State) (t : Tender) (w : Word) : State :=
  s.modGroup t.gid fun x => if x.status == .running then { x with tres := some w } else x

/-- The tender in progress ends. -/
def State.endTender (s : State) (p : Nat) (t : Tender) (status bid core : Nat) : State :=
  let s := s.unreserve p none
  let s := s.modPart p fun x =>
    let slots := match x.slots.get? t.slot with
      | some l => x.slots.set t.slot { l with awards := l.awards.set t.team (core, bid, t.wdraws) }
      | none => x.slots
    { x with tender := none, slots, reconf := false }
  s.tellTender t (t.word status bid core)

/-- ENDTEAM on a team under tender, or queued for it (22/R351). -/
def State.cancelTender (s : State) (p slot team : Nat) : State :=
  let x := s.part p
  let hit (t : Tender) : Bool := t.slot == slot && t.team == team
  let s := match x.tender with
    | some t => if hit t then s.endTender p t 3 0 0 else s
    | none => s
  (x.waiting.filter hit).foldl (fun s t => s.tellTender t (t.word 3 0 0))
    (s.modPart p fun x => { x with waiting := x.waiting.filter fun t => !hit t })

/-- ENDTEAM of a team that exists (10/R172): its groups stop where they are, and the team counts as exited. -/
def State.endTeam (s : State) (t tval : Nat) : State :=
  let gs := s.groups.filter fun g => g.2.team == t && g.2.status != .absent
  let s := s.modTeam t fun x => { x with latch := [] }
  let s := gs.foldl (fun s g => s.leaveGroup g.1) s
  (s.finishTeam t tval).setAway

/-- The end of the oldest incomplete team of a launch is reported (21/R335); that team is complete when the report has landed. -/
def execTeamEndReport (p slot : Nat) (s : State) : Host.Outcome State Fault Refusal :=
  .next (match (s.part p).slots.get? slot with
    | none => s
    | some l => match l.marked.get? l.oldest with
      | none => s
      | some tval =>
        if l.told then s
        else
          let s := s.notify p 0x45 (BitVec.ofNat 64 tval) { team := l.oldest, launch := l.addr, ends := some slot }
          s.modPart p fun x => { x with slots := x.slots.set slot { l with told := true } })

/-- The report of a team's end has landed: O rises, and after the last team the slot is free (21/R332, R335). -/
def State.teamReported (s : State) (p slot : Nat) : State :=
  match (s.part p).slots.get? slot with
  | none => s
  | some l =>
    let l := { l with oldest := l.oldest + 1, marked := l.marked.erase l.oldest, told := false }
    s.modPart p fun x => { x with slots := if l.grid * l.teams ≤ l.oldest then x.slots.erase slot else x.slots.set slot l }

/-! ### Batches of exited groups (14/R227) -/

/-- Reports of a group's failed batches that it never waited for, in the order of their seals. -/
def State.reportBatches (s : State) (p : Nat) (r : Report) (bs : List Batch) : State :=
  bs.foldl (fun s b => match b.failed with
    | some va => if b.waited then s else s.notify p 0x44 va { r with tlm := 0x40, depth := 0 }
    | none => s) s

/-- The failed batches of the exited group in `subject` are reported, and its record goes once nothing is left. -/
def execBatchFailureReport (s : State) : Host.Outcome State Fault Refusal :=
  let g := s.subject
  .next (match s.others.get? g with
    | none => s
    | some x =>
      if x.status ≠ .absent then s
      else
        let s := s.reportBatches (corePart x.core) x.ident (x.sealed.values ++ [x.batch])
        let left := x.sealed.filter fun b => 0 < b.2.copies && b.2.failed.isNone
        let batch := if x.batch.failed.isSome then { x.batch with waited := true } else x.batch
        if left.isEmpty && batch.copies = 0 then { s with others := s.others.erase g }
        else { s with others := s.others.set g { x with sealed := left, batch } })

/-! ### Pending traps -/

/-- A member of a step that the engine executes (13/R204). -/
def State.inEngine (s : State) (g : Nat) : Bool :=
  (s.team (s.group g).team).engine.any fun e => e.members.any (·.1 == g)

/-- A request of a group for more than a plain read has left the module: it is sent exactly once (18/R278, R298). -/
def Group.sentOnce (g : Group) : Bool := g.asked.any fun a => !a.fetch && !a.again

/-- A trap signalled to a group is taken with the oldest uncommitted instruction squashed (08/R126, R132), and a thermal abort breaks
the group's region (09/R151, 23/R360). A member of a step that the engine executes takes it once the step has committed, and
one that waits at the latch takes it at once, its arrival staying there (log 23); one that waits at a barrier withdraws its arrival, or
leaves the barrier first if that has released; a group whose access has left the module takes it once the access has completed, unless that
is a plain read. -/
def State.takePend (s : State) (g : Nat) : State :=
  let x := s.group g
  match x.pend with
  | none => s
  | some t =>
    if s.inEngine g || x.sentOnce || s.released x then s
    else
      let s := s.withdrawBar g
      let x := s.group g
      let pc := match x.win with | e :: _ => e.pc | [] => x.pc
      (s.setGroup g { x with pc, pend := none, npr := if t.kind = 21 then none else x.npr }).takeTrap g t

/-- The pending trap of the group in `subject` is taken (08/R138). -/
def execTrapEntry (s : State) : Host.Outcome State Fault Refusal := .next (s.takePend s.subject)

end Sys2Proof.Machine
end

