-- ==== Sys2Proof/Machine/System.lean ====
section
/-!
DEFINITION. Meanings: traps, trap registers, safe points, regions, register blocks, system registers and steward commands
(09/R148-R151, 10/R158-R173).
-/

namespace Sys2Proof.Machine

open Sys2Proof

/-! ### `trap` and `tret` -/

/-- `trap` (10/R159). -/
def execTrap (f : Form) (s : State) : Host.Outcome State Fault Refusal :=
  run (.trap f) s fun _ f => .error (.trap { trapOf (.trap f) s.me 22 f.imm with tlm := 0 })

/-- The return to depth 0 at an address (08/R141): a misaligned address is a fault of the fetch there. -/
def State.comeBack (s : State) (g : Nat) (pc : VAddr) : State :=
  let s := s.modGroup g fun x => x.returnTo pc
  if pc.toNat % 4 = 0 then s else s.takeTrap g (fetchTrap 7 4 (pc.zeroExtend 64) (s.group g))

/-- `tret` (08/R141, 10/R160, 26/R390). -/
def execTret (f : Form) (s : State) : Host.Outcome State Fault Refusal :=
  let i := Instr.tret f
  match i.row with
  | none => .next s
  | some (info, f') =>
    match issueCheck i info f' false s with
    | .error h => settle i s (.error h)
    | .ok _ =>
      if !s.me.depth then settle i s (.error (illegal i s.me))
      else if !(s.spDamage.get (saveSlotKey s.meId) []).isEmpty then
        let x := Config.freeWord s.free 0
        let s := s.logArray s.myPart x.toNat 5 0xFF 2 (s.who s.me 0 0)
        settle i s (.error (.fail (trapOf i s.me 19 x) { s with free := s.free + 1 }))
      else
        let g := (s.me.counted i).settled
        .next ({ s with me := g }.comeBack s.meId (g.tepc.truncate 52))

/-! ### Trap registers -/

/-- Bits of trap register k that a write stores (10/R161). -/
def trapMask (k : Nat) : Word :=
  match k with
  | 0 => 0x1FFF_FFFF_FFFF_FFFF
  | 1 => 0xFF_FFFF
  | 2 => 0xF_FFFF_FFFF_FFFF
  | 3 => 0xFFFF_FFFF_FFFF_FFFF
  | _ => 0xFFFF_FFFF

def Group.trapReg (g : Group) (k : Nat) : Word :=
  match k with
  | 0 => g.tvec | 1 => g.tcause | 2 => g.tepc | 3 => g.tval | _ => g.tlm

def Group.setTrapReg (g : Group) (k : Nat) (x : Word) : Group :=
  let v := x &&& trapMask k
  match k with
  | 0 => { g with tvec := v }
  | 1 => { g with tcause := v }
  | 2 => { g with tepc := v }
  | 3 => { g with tval := v }
  | _ => { g with tlm := v }

/-- `trr` (10/R161). -/
def execTrr (f : Form) (s : State) : Host.Outcome State Fault Refusal :=
  run (.trr f) s fun _ f => .ok (s.setScalar f.d (s.me.trapReg f.a.toNat))

/-- `trw` (10/R161, R162). -/
def execTrw (f : Form) (s : State) : Host.Outcome State Fault Refusal :=
  run (.trw f) s fun _ f => .ok { s with me := s.me.setTrapReg f.d.toNat (s.me.scalar f.a) }

/-! ### Safe points and regions -/

/-- A pre-emption request is pending for a group and no region is open (09/R148-R151). -/
def State.requested (s : State) (g : Group) : Bool :=
  g.npr.isNone && (s.team g.team).preempt.isSome && !(s.team g.team).steward

/-- A group marked as pre-empted stops (09/R153): it leaves the active set, and for a full pre-emption its culvert queues stand still. -/
def State.stopMarked (s : State) (g : Nat) : State :=
  let x := s.group g
  if x.status = .running && x.stopAt.isSome then
    let s := s.setGroup g { x with status := .preempted, sched := .pending, wait := none, want := none, xw := none
                                   asked := none, fetched := [], yielded := false }
    let s := s.modTeam x.team fun t => { t with preempt := t.preempt.map fun q => { q with stopped := q.stopped ++ [x.index] } }
    s.setAway.fill x.core
  else s

/-- `spt` (09/R148, 10/R163): the next address is taken before the group stops. -/
def execSpt (f : Form) (s : State) : Host.Outcome State Fault Refusal :=
  let r := run (.spt f) s fun _ f =>
    let live := f.imm.truncate 16 &&& s.me.held
    .ok (if s.requested s.me then { s with me := { s.me with stopAt := some (0, live) } } else s)
  match r with
  | .next s' => .next (s'.stopMarked s.meId)
  | r => r

/-- A pre-emption elsewhere than at a safe point (09/R149, R150): a wait is abandoned, an arrival withdrawn. -/
def State.stopGroup (s : State) (g cause : Nat) : State :=
  let x := s.group g
  let s := (s.withdrawBar g).modTeam x.team fun t => { t with latch := t.latch.filter fun a => a.gid != g }
  (s.modGroup g fun x => { x with stopAt := some (cause, x.held) }).stopMarked g

/-- A group that a request may stop where it stands: not in a handler (08/R143), not parked, no step of it in the engine, and
no longer at a barrier that has released (19/R316). -/
def State.stoppable (s : State) (g : Nat) : Bool :=
  let x := s.group g
  s.requested x && x.status == .running && !x.depth && x.win.isEmpty && x.pend.isNone && !s.inEngine g && !s.released x

/-- Forced save of the group in `subject` (09/R149). -/
def execForcedSave (s : State) : Host.Outcome State Fault Refusal :=
  let x := s.group s.subject
  .next (if s.stoppable s.subject && 4096 < x.words && x.asked.isNone then s.stopGroup s.subject 1 else s)

/-- The wait of a group has been met in this cycle: an active group has tried its instruction, a pending one is not ready
(21/R341, R342); one that is swapping in has not been judged. -/
def State.stalledNow (s : State) (g : Nat) : Bool :=
  let x := s.group g
  x.wait.any Wait.long && (x.sched = .active && s.issued.any (·.1 == g) || x.sched = .pending && x.ready.isNone)

/-- A group in a long-latency wait is pre-empted (09/R150). -/
def execStallPreemption (s : State) : Host.Outcome State Fault Refusal :=
  .next (if s.stoppable s.subject && s.stalledNow s.subject then s.stopGroup s.subject 2 else s)

/-- `npr` (10/R164); in a cluster of class 3 the region that opens is aborted (23/R360). -/
def execNpr (f : Form) (s : State) : Host.Outcome State Fault Refusal :=
  run (.npr f) s fun _ _ =>
    .ok (match s.me.npr with
      | some _ => s
      | none => { s with me := { s.me with
          npr := some s.time, nprt := false
          pend := if (s.cluster (coreCluster s.me.core)).cls = 3 then some thermalTrap else s.me.pend } })

/-- `epr` (10/R164). -/
def execEpr (f : Form) (s : State) : Host.Outcome State Fault Refusal :=
  run (.epr f) s fun _ _ => .ok { s with me := { s.me with npr := none, nprt := false } }

/-- A region open 200 µs is closed (09/R151). -/
def execNprTimeLimit (s : State) : Host.Outcome State Fault Refusal :=
  let x := s.group s.subject
  .next (match x.npr with
    | some t =>
      if t + 200 * usCycles ≤ s.time then
        (s.setGroup s.subject { x with npr := none, nprt := true }).notify (corePart x.core) 0x41 0 (s.groupReport x)
      else s
    | none => s)

/-! ### Register blocks -/

/-- `rbget` (02/R28, 10/R165). -/
def execRbget (f : Form) (s : State) : Host.Outcome State Fault Refusal :=
  run (.rbget f) s fun _ f =>
    let b := f.d.toNat
    let c := s.me.core
    if s.me.holds b then .ok s
    else if 0 < s.blocksFree c then
      .ok { s.modCore c fun k => { k with freeBlocks := k.freeBlocks - 1 } with me := s.me.gainBlock b }
    else .error (.held .rbget { s with me := { s.me with want := some b } })

/-- The first register of a block that is a queue register of any kind (02/R29). -/
def Group.queueIn (g : Group) (b : Nat) : Option Nat :=
  ((List.range 8).map (8 * b + ·)).find? fun n => mapQKind (g.entry n) != 0 || (g.localHead n).isSome

/-- `rbput` (02/R29, R30, 08/R140, 10/R165). -/
def execRbput (f : Form) (s : State) : Host.Outcome State Fault Refusal :=
  run (.rbput f) s fun _ f =>
    let i := Instr.rbput f
    let b := f.d.toNat
    let g := s.me
    if !g.holds b then .ok s
    else if g.relief.any (·.block == b) then .error (placeFault i g 11 (8 * b))
    else match g.queueIn b with
      | some n => .error (placeFault i g 8 n)
      | none =>
        if g.splits.any fun l => (match Spec.of l.dest with | .vec n => n / 8 == b | _ => false) then
          .error (.wait .register)
        else
          let s := s.freePlaces g ((List.range 8).map (8 * b + ·))
          let s := { s with me := { s.me.loseBlock b with emg := false } }
          .ok (if g.emg then s.modCore g.core fun k => { k with emergency := true } else s.giveBlock g.core)

/-! ### System registers -/

/-- CORE (10/R168). -/
def State.coreWord (s : State) : Word := fieldsWord [(s.me.core, 0), (s.myPart, 12), (s.myTeam.pos, 18)]

/-- ROLE of GSTAT and of a frame (10/R168, 09/R155). -/
def roleCode : Role → Nat
  | .v => 0 | .m => 1 | .c => 2

/-- GSTAT (10/R168). -/
def State.gstat (s : State) : Word :=
  let g := s.me
  fieldsWord [(roleCode g.role, 0), (g.depth.toNat, 2), (s.myTeam.steward.toNat, 4), (g.npr.isSome.toNat, 5), (g.nprt.toNat, 6),
    (g.emg.toNat, 7), (min g.words 8191, 32)]

/-- The command registers of the group (10/R167). -/
def State.cmd (s : State) : Cmd := (s.part s.myPart).cmds.get s.me.index {}

/-- System register n as `srr` reads it (10/R167). -/
def State.sysReg (s : State) (n : Nat) : Word :=
  let p := s.part s.myPart
  match n with
  | 0x00 => BitVec.ofNat 64 s.time
  | 0x01 => s.coreWord
  | 0x02 => s.gstat
  | 0x03 => BitVec.ofNat 64 s.myTeam.launch
  | 0x10 => BitVec.ofNat 64 p.trbase
  | 0x11 => BitVec.ofNat 64 p.trsize
  | 0x12 => BitVec.ofNat 64 p.trmark
  | 0x13 => BitVec.ofNat 64 p.trtail
  | 0x20 => s.cmd.launch
  | 0x21 => s.cmd.team
  | 0x22 => s.cmd.addr
  | _ => s.cmd.core

/-- A read of a system register; those from `0x10` on belong to the steward (10/R166). In LEN 10 and 11 the number is the
literal (log 56: the model's choice). -/
def readSys (i : Instr) (s : State) : Host.Outcome State Fault Refusal :=
  run i s fun _ f =>
    if 0x10 ≤ f.imm.toNat && !s.myTeam.steward then .error (illegal i s.me)
    else .ok (s.setScalar f.d (s.sysReg f.imm.toNat))

/-- `srr` (10/R166). -/
def execSrr (f : Form) (s : State) : Host.Outcome State Fault Refusal := readSys (.srr f) s

/-- `srr` of TRMARK (20/R323): the acquire orders nothing more in a model that performs accesses in order (log 7). -/
def execTrmarkRead (f : Form) (s : State) : Host.Outcome State Fault Refusal := readSys (.trmarkRead f) s

/-- Statuses of `srw` (10/R169). -/
def stDone : Nat := 0
def stNoTarget : Nat := 1
def stBadVal : Nat := 2
def stBusy : Nat := 3
def stBadState : Nat := 4
def stNoPlace : Nat := 5

/-- A write of a system register with its status. -/
def writeSys (i : Instr) (s : State) (act : Form → Word → Nat × State) : Host.Outcome State Fault Refusal :=
  run i s fun _ f =>
    let r := act f (s.me.scalar f.a)
    .ok (r.2.setScalar f.d (BitVec.ofNat 64 r.1))

/-- TRBASE and TRSIZE (10/R170): both counts become 0, and a notice may be written again. -/
def State.setRing (s : State) (n : Nat) (x : Word) : Nat × State :=
  let p := s.part s.myPart
  let v := x.toNat
  if p.trmark ≠ p.trtail then (stBusy, s)
  else if n = 0x10 then
    if v % 64 ≠ 0 || 2 ^ 52 ≤ v then (stBadVal, s)
    else (stDone, s.modPart s.myPart fun p => { p with trbase := v, trmark := 0, trtail := 0, notice := false })
  else if v < 64 || 65536 < v || v ≠ 2 ^ Nat.log2 v then (stBadVal, s)
  else (stDone, s.modPart s.myPart fun p => { p with trsize := v, trmark := 0, trtail := 0, notice := false })

/-- `srw` of TRBASE or TRSIZE (10/R170). -/
def execTrapRingSet (f : Form) (s : State) : Host.Outcome State Fault Refusal :=
  writeSys (.trapRingSet f) s fun f x => s.setRing f.imm.toNat x

/-- `srw` of TRTAIL (10/R170). -/
def execTrtailWrite (f : Form) (s : State) : Host.Outcome State Fault Refusal :=
  writeSys (.trtailWrite f) s fun _ x =>
    let p := s.part s.myPart
    if p.trtail ≤ x.toNat && x.toNat ≤ p.trmark then
      (stDone, s.modPart s.myPart fun p => { p with trtail := x.toNat })
    else (stBadVal, s)

/-- The command registers 0x20 to 0x23 (10/R167, R169). -/
def State.setCmd (s : State) (n : Nat) (x : Word) : Nat × State :=
  let put (c : Cmd) : Nat × State := (stDone, s.modPart s.myPart fun p => { p with cmds := p.cmds.set s.me.index c })
  let c := s.cmd
  match n with
  | 0x20 => if 2 ^ 52 ≤ x.toNat then (stBadVal, s) else put { c with launch := x }
  | 0x21 => if 2 ^ 21 ≤ x.toNat then (stBadVal, s) else put { c with team := x }
  | 0x22 => if 2 ^ 52 ≤ x.toNat then (stBadVal, s) else put { c with addr := x }
  | _ => if x.toNat ≤ 0xBFF || x = 0xFFFF_FFFF then put { c with core := x } else (stBadVal, s)

/-- `srw` of CMDLAUNCH, CMDTEAM, CMDADDR, CMDCORE (10/R167). -/
def execSysregWrite (f : Form) (s : State) : Host.Outcome State Fault Refusal :=
  writeSys (.sysregWrite f) s fun f x => s.setCmd f.imm.toNat x

/-! ### Steward commands (10/R172) -/

/-- What a command names: a team that has been placed and not ended, or one that has not been placed or whose end report has not
landed (10/R172). -/
inductive Target where
  | nothing
  | team (t : Nat)
  | unplaced (slot index : Nat)
deriving DecidableEq, Repr

/-- The team named by CMDLAUNCH and CMDTEAM; of several launches of one record, the one started first. -/
def State.target (s : State) : Target :=
  let c := s.cmd
  let p := s.myPart
  let index := c.team.toNat % 2 ^ 16
  match s.teams.find? fun t => t.2.part == p && t.2.launch == c.launch.toNat && t.2.index == index with
  | some (t, _) => .team t
  | none =>
    match (s.part p).slots.find? fun l => l.2.addr == c.launch.toNat && l.2.oldest ≤ index && index < l.2.grid * l.2.teams with
    | some (slot, _) => .unplaced slot index
    | none => .nothing

/-- The group named by CMDTEAM in a team. -/
def State.targetGroup (s : State) (t : Nat) : Option (Nat × Group) :=
  let index := s.cmd.team.toNat / 2 ^ 16 % 32
  s.groups.find? fun g => g.2.team == t && g.2.index == index && g.2.status != .absent

/-- PREEMPT (10/R172). -/
def State.cmdPreempt (s : State) (full : Bool) : Nat × State :=
  match s.target with
  | .nothing => (stNoTarget, s)
  | .unplaced .. => (stBadState, s)
  | .team t =>
    let x := s.team t
    let stopped := s.groups.any fun g => g.2.team == t && g.2.status == .stopped
    if x.preempt.isSome then (stBusy, s)
    else if x.state ≠ .placed || x.steward || stopped || s.cmd.addr.toNat % 64 ≠ 0 then (stBadState, s)
    else (stDone, s.modTeam t fun x => { x with preempt := some { full, addr := s.cmd.addr.toNat, stopped := [], written := [] } })

/-- The culvert queues of a team. -/
def State.teamCulverts (s : State) (t : Nat) : List Culvert :=
  (s.culverts.values).filter fun c => (c.inTeam == t && !c.inGone) || (c.outTeam == t && !c.outGone)

/-- The team that holds the partner ends of a team's culverts, if its end is not gone. -/
def State.culvertPartner (s : State) (t : Nat) : Option Nat :=
  (s.teamCulverts t).findSome? fun c =>
    if c.inTeam = t then (if c.outGone then none else some c.outTeam) else if c.inGone then none else some c.inTeam

/-- The free scratchpad units of a core: 48, less what placed teams, cohorts and tenders reserve (02/R25, 14/R228). -/
def State.scratchFree (s : State) (c : Nat) : Nat :=
  let own := s.teams.foldl (fun n t =>
    let x := t.2
    let here := x.core == c && (x.state == .placed || (x.state == .out && x.light) || (x.state == .restoring && x.light))
    if here then n + x.n else n) 0
  let cohorts := s.cohorts.foldl (fun n k =>
    k.2.m.foldl (fun n m => if pairCore k.2.part k.2.pair m.1 == c then n + m.2 else n) n) 0
  48 - (own + cohorts + (s.reservedOn c).2.2)

/-- A core where the culvert partner of a team leaves it room to return (09/R157): one that faces the partner's core, unless the
partner is out too and its own RESTORE has not chosen a core. -/
def State.facesPartner (s : State) (t c : Nat) : Bool :=
  (s.culvertPartner t).all fun u =>
    let y := s.team u
    y.state == .out || (y.state == .restoring && y.partner) || c == facing y.core

/-- Cores on which a RESTORE may place a team (09/R157): its own alone where it holds cohort scratchpad or its core kept it. -/
def State.restoreCores (s : State) (t : Nat) (want : Option Nat) : List Nat :=
  let x := s.team t
  ((List.range 64).map (partCore x.part)).filter fun c =>
    (!(x.light || 0 < x.m) || c == x.core) && s.facesPartner t c && (want.isNone || want == some c) && !(s.core c).retired

/-- The blocks that the groups of a team that is out held. -/
def State.outBlocks (s : State) (t : Nat) : Nat :=
  s.groups.foldl (fun n g =>
    if g.2.team = t && g.2.status = .out then n + ((List.range 16).filter g.2.holds).length else n) 0

/-- The culvert queues of a team follow it to another facing pair (09/R157). -/
def State.moveCulverts (s : State) (t old new : Nat) : State :=
  if lowerCore old = lowerCore new then s
  else
    let mine (key : Nat) (c : Culvert) : Bool := key / 16 == lowerCore old && (c.inTeam == t || c.outTeam == t)
    let moving := s.culverts.filter fun c => mine c.1 c.2
    let stay : Map Culvert := s.culverts.filter fun c => !mine c.1 c.2
    let low := new == lowerCore new
    { s with culverts := moving.foldl (fun m c =>
        s.culvertSet m (culvertKey (lowerCore new) (if (c.2.inTeam == t) == low then 1 else 0) (c.1 % 8)) c.2) stay }

/-- Queue numbers of a team that moves are free on the new pair, and its directions have room (03/R50, R51, 09/R157). -/
def State.numbersFree (s : State) (t old new : Nat) : Bool :=
  lowerCore old == lowerCore new || (
    let mine (c : Culvert) : Bool := c.inTeam == t || c.outTeam == t
    let there := s.culverts.filter fun c => c.1 / 16 == lowerCore new && c.2.isHeld && !mine c.2
    let coming := (s.moveCulverts t old new).culverts.filter fun c => c.1 / 16 == lowerCore new && c.2.isHeld && mine c.2
    coming.all fun c => !(there.any (·.1 == c.1)) &&
      ((there ++ coming).filter (fun q => q.1 / 8 == c.1 / 8)).foldl (fun n q => n + q.2.depth) 0 ≤ 64)

/-- The home core of the queues that a team holds. -/
def State.queueCore (s : State) (t : Nat) : Option Nat :=
  (s.culverts.find? fun c => (c.2.inTeam == t && !c.2.inGone) || (c.2.outTeam == t && !c.2.outGone)).map fun c =>
    culvertEnd c.1 (c.2.inTeam == t)

/-- Free resources of a core hold a team that is out (09/R157): blocks, scratchpad, group slots and queue numbers. -/
def State.holdsTeam (s : State) (t c : Nat) : Bool :=
  let x := s.team t
  (x.light || (x.n ≤ s.scratchFree c && s.outBlocks t ≤ s.blocksFree c)) && x.ngroups - x.exited.length ≤ s.slotsFree c
    && s.numbersFree t ((s.queueCore t).getD x.core) c

/-- The core that a RESTORE takes: the lowest-numbered permitted one whose free resources hold the team, else the lowest. -/
def State.pickCore (s : State) (t : Nat) (want : Option Nat) : Option Nat :=
  ((s.restoreCores t want).find? fun c => s.holdsTeam t c).or (s.restoreCores t want).head?

/-- The core of a team and the facing one of the culvert partner that a held RESTORE waits with (09/R157): at the teams' own cohort
positions, permitted by both, the lowest whose free resources hold both teams, else the lowest. -/
def State.jointCore (s : State) (t u : Nat) (want : Option Nat) : Option Nat :=
  let x := s.team t
  let cs := (s.restoreCores t want).filter fun c => (s.restoreCores u (s.team u).rcore).contains (facing c)
    && (List.range 4).any fun k => pairCore x.part k x.pos == c
  (cs.find? fun c => s.holdsTeam t c && s.holdsTeam u (facing c)).or cs.head?

/-- RESTORE (09/R157, 10/R172): it takes its turn for a core; where its culvert partner is out too, the two go together. A team whose
RESTORE waits is not out, and a second one finds BADSTATE; of two failed needs BADSTATE is reported before BADVAL, and that before
NOPLACE (log 57: the model's choices). -/
def State.cmdRestore (s : State) : Nat × State :=
  match s.target with
  | .nothing => (stNoTarget, s)
  | .unplaced .. => (stBadState, s)
  | .team t =>
    let x := s.team t
    let want := if s.cmd.core = 0xFFFF_FFFF then none else some s.cmd.core.toNat
    if x.state ≠ .out then (stBadState, s)
    else if s.cmd.addr.toNat % 64 ≠ 0 then (stBadVal, s)
    else
      let take (c : Nat) (held : Bool) : State :=
        { s.modTeam t fun x => { x with
            state := .restoring, core := c, rcore := want, partner := held, order := s.order, frame := s.cmd.addr.toNat }
          with order := s.order + 1 }
      match s.pickCore t want with
      | none => (stNoPlace, s)
      | some c0 => match s.culvertPartner t with
        | none => (stDone, take c0 false)
        | some u =>
          let y := s.team u
          if y.state = .restoring && y.partner then
            match s.jointCore t u want with
            | none => (stNoPlace, s)
            | some c =>
              (stDone, (take c false).modTeam u fun y => { y with core := facing c, partner := false, order := s.order })
          else (stDone, take c0 (y.state = .out && !x.light))

/-- RESUME (10/R172): at the stopped depth. -/
def State.cmdResume (s : State) : Nat × State :=
  match s.target with
  | .nothing => (stNoTarget, s)
  | .unplaced .. => (stNoTarget, s)
  | .team t => match s.targetGroup t with
    | none => (stNoTarget, s)
    | some (g, x) =>
      if x.status ≠ .stopped || s.cmd.addr.toNat % 4 ≠ 0 then (stBadState, s)
      else (stDone, (s.setGroup g { x with status := .running, pc := s.cmd.addr.truncate 52 }).fill x.core)

/-- RESUMET (10/R172): the group leaves its handler; damage of the save slots is not met (log 71). -/
def State.cmdResumet (s : State) : Nat × State :=
  match s.target with
  | .nothing => (stNoTarget, s)
  | .unplaced .. => (stNoTarget, s)
  | .team t => match s.targetGroup t with
    | none => (stNoTarget, s)
    | some (g, x) =>
      if x.status ≠ .stopped || !x.depth then (stBadState, s)
      else (stDone, ((s.setGroup g { x with status := .running }).comeBack g (s.cmd.addr.truncate 52)).fill x.core)

/-- ENDTEAM (10/R172). -/
def State.cmdEnd (s : State) : Nat × State :=
  match s.target with
  | .nothing => (stNoTarget, s)
  | .unplaced slot index =>
    if (((s.part s.myPart).slots.get slot {}).ended.get? index).isSome then (stDone, s)
    else (stDone, (s.cancelTender s.myPart slot index).markEnd s.myPart slot index 1)
  | .team t => if (s.team t).steward then (stBadState, s) else (stDone, s.endTeam t 1)

/-- CANCEL (10/R172). -/
def State.cmdCancel (s : State) : Nat × State :=
  match s.target with
  | .nothing => (stNoTarget, s)
  | .unplaced .. => (stBadState, s)
  | .team t => match (s.team t).preempt with
    | some q => if q.stopped.isEmpty then (stDone, s.modTeam t fun x => { x with preempt := none }) else (stBadState, s)
    | none => (stBadState, s)

/-- A command by its code. -/
def State.command (s : State) (code : Nat) : Nat × State :=
  match code with
  | 1 => s.cmdPreempt false
  | 2 => s.cmdPreempt true
  | 3 => s.cmdRestore
  | 4 => s.cmdResume
  | 5 => s.cmdResumet
  | 6 => s.cmdEnd
  | 7 => s.cmdCancel
  | _ => (stBadVal, s)

/-- `srw` of CMD with the code in a register, or a code that is no command (10/R166, R172). -/
def execSrw (f : Form) (s : State) : Host.Outcome State Fault Refusal :=
  writeSys (.srw f) s fun _ x => s.command x.toNat

/-- PREEMPT light. -/
def execPreemptLight (f : Form) (s : State) : Host.Outcome State Fault Refusal :=
  writeSys (.preemptLight f) s fun _ _ => s.cmdPreempt false
/-- PREEMPT full. -/
def execPreemptFull (f : Form) (s : State) : Host.Outcome State Fault Refusal :=
  writeSys (.preemptFull f) s fun _ _ => s.cmdPreempt true
/-- RESTORE. -/
def execRestore (f : Form) (s : State) : Host.Outcome State Fault Refusal := writeSys (.restore f) s fun _ _ => s.cmdRestore
/-- RESUME. -/
def execResume (f : Form) (s : State) : Host.Outcome State Fault Refusal := writeSys (.resume f) s fun _ _ => s.cmdResume
/-- RESUMET. -/
def execResumet (f : Form) (s : State) : Host.Outcome State Fault Refusal := writeSys (.resumet f) s fun _ _ => s.cmdResumet
/-- ENDTEAM. -/
def execEndteam (f : Form) (s : State) : Host.Outcome State Fault Refusal := writeSys (.endteam f) s fun _ _ => s.cmdEnd
/-- CANCEL. -/
def execCancel (f : Form) (s : State) : Host.Outcome State Fault Refusal := writeSys (.cancel f) s fun _ _ => s.cmdCancel

end Sys2Proof.Machine
end

