-- ==== Sys2Proof/Machine/Matrix.lean ====
section
/-!
DEFINITION. Meanings: the matrix engine, gangs and stage rings (11/R175-R179, 13/R204-R219, 16/R251-R255), and the steps
`gangStepRelease` and `mmaStepComplete`. The watermark drain `mdr.sp` stands in Sluice.lean.
-/

namespace Sys2Proof.Machine

open Sys2Proof

/-! ### Chains (12/R196, 13/R211) -/

/-- IA25 (12/R196): RNE to 17 significant bits; a magnitude below 2^-126 becomes zero of its sign. -/
def ia25 (x : FpNum) : FpNum × Nat :=
  match x with
  | .nan sig => (.nan false, if sig then flNV else 0)
  | .inf neg => (.inf neg, 0)
  | .fin neg m e =>
    if m = 0 then (.fin neg 0 0, 0)
    else
      let lsb := topExp m e - 16
      let (q, inexact) := quantize .rne neg m e lsb
      let fl := if inexact then flNX else 0
      if 127 < topExp q lsb then (.inf neg, flOF + flNX)
      else if topExp q lsb < -126 then (.fin neg 0 0, fl)
      else (.fin neg q lsb, fl)

/-- The storage format of chains and elements by the rounding kind: FP64 for kind 2, else FP32. -/
def chainFmt (kind : Nat) : Fmt := if kind = 2 then fmtF64 else fmtF32

/-- One rounding of a chain: pattern and flags. -/
def chainRound (kind : Nat) (r : ExRes) : Nat × Nat :=
  if kind = 0 then
    let (x, fl) := ia25 r.num
    ((fmtF32.write .arith .rne false x).bits, r.flags ||| fl)
  else
    let w := r.deliver (chainFmt kind) .rne false
    (w.bits, w.flags)

def chainAdd (kind x : Nat) (p : ExRes) : Nat × Nat :=
  let r := chainRound kind (numAdd false ((chainFmt kind).read false x) p.num)
  (r.1, r.2 ||| p.flags)

/-- -0.0, where a chain starts. -/
def chainZero (kind : Nat) : Nat := if kind = 2 then 2 ^ 63 else 2 ^ 31

/-- An element rounded at promotion: ac + CH(E + O) (13/R211); `ch` is the rounding of the chains' sum. -/
def promoteElem (kind ch ac e o : Nat) : Nat × Nat :=
  let f := chainFmt kind
  let c := chainRound ch (numAdd false (f.read false e) (f.read false o))
  let r := (numAdd false (f.read false ac) (f.read false c.1)).deliver f .rne false
  (r.bits, c.2 ||| r.flags)

/-- The flags of 13/R212. -/
def engineFlags (fl : Nat) : Nat := fl &&& (flNV ||| flOF ||| flNX ||| 256)

def cellCount : Nat := 6144

def cellAt (xs : List (BitVec 64)) (i d : Nat) : Nat := ((xs[i]?).map BitVec.toNat).getD d

def patterns (xs : List Nat) : List (BitVec 64) := xs.map (BitVec.ofNat 64)

def orAll (xs : List Nat) : Nat := xs.foldl (· ||| ·) 0

/-! ### Accumulators -/

def Team.acc (t : Team) (a : Nat) : Accum := t.accs.get a {}
def Team.setAcc (t : Team) (a : Nat) (x : Accum) : Team := { t with accs := t.accs.set a x }
def Team.count (t : Team) (j : Nat) : Counts := t.counts.get j {}

/-- The accumulator whose chains serve `ac`A: the even half of an FP64 pair, else itself. -/
def Team.accKey (t : Team) (a : Nat) : Nat := if (t.acc a).valid && (t.acc a).mode = 1 then a - a % 2 else a

/-- One accumulator's pending interval promoted; its flags. The chains of a Swallowtail half meet under IA25 whatever its
inputs are (13/R213). -/
def Accum.promote (x : Accum) : Accum × Nat :=
  if x.n = 0 then (x, 0)
  else
    let z := chainZero x.kind
    let ch := if x.mode = 2 then 0 else x.kind
    let rs := (List.range cellCount).map fun i =>
      promoteElem x.kind ch (cellAt x.cells i 0) (cellAt x.even i z) (cellAt x.odd i z)
    ({ x with cells := patterns (rs.map (·.1)), even := [], odd := [], n := 0 }, engineFlags (orAll (rs.map (·.2))))

/-- One element of a count store at promotion: saturating counts of each sign, and CSAT (13/R213). -/
def countElem (old gain : Nat) : Nat × Nat :=
  let up := old % 2 ^ 16 + gain % 2 ^ 16
  let dn := old / 2 ^ 16 + gain / 2 ^ 16
  (min up 65535 + min dn 65535 * 2 ^ 16, if 65535 < up || 65535 < dn then 256 else 0)

def countAt (xs : List (BitVec 32)) (i : Nat) : Nat := ((xs[i]?).map BitVec.toNat).getD 0

/-- A count store gains what its open interval has counted. -/
def Counts.promote (x : Counts) : Counts × Nat :=
  let rs := (List.range cellCount).map fun i => countElem (countAt x.cells i) (countAt x.pend i)
  ({ x with cells := rs.map fun r => BitVec.ofNat 32 r.1, pend := [] }, orAll (rs.map (·.2)))

/-- The pending interval of a Swallowtail pair promoted: S+, S- and the counts (11/R178, 13/R213). -/
def Team.promotePair (t : Team) (a : Nat) : Team × Nat :=
  let a := a - a % 2
  let p := (t.acc a).promote
  let m := (t.acc (a + 1)).promote
  let c := (t.count (a / 2)).promote
  let t := (t.setAcc a p.1).setAcc (a + 1) m.1
  ({ t with counts := t.counts.set (a / 2) c.1 }, p.2 ||| m.2 ||| c.2)

/-- A drain first promotes the pending interval of the accumulator, or of its pair (13/R211). -/
def Team.promote (t : Team) (a : Nat) : Team × Nat :=
  let k := t.accKey a
  if (t.acc k).n = 0 then (t, 0)
  else if (t.acc a).valid && (t.acc a).mode = 2 then t.promotePair a
  else
    let r := (t.acc k).promote
    (t.setAcc k r.1, r.2)

/-- An accumulator loses its partner: the other half of a pair becomes invalid (13/R210). -/
def Team.dissolve (t : Team) (a : Nat) : Team :=
  let x := t.acc a
  if x.valid && (x.mode = 1 || x.mode = 2) then
    let t := t.setAcc (a + 1 - 2 * (a % 2)) {}
    if x.mode = 2 then { t with counts := t.counts.set (a / 2) {} } else t
  else t

def freshAcc (mode kind : Nat) : Accum := { valid := true, mode, kind }

/-- `mzero` (13/R210, R214). -/
def Team.zero (t : Team) (a : Nat) : Team := (t.dissolve a).setAcc a (freshAcc 0 0)

/-- `mzero.sw` (13/R210, R214). -/
def Team.zeroPair (t : Team) (a : Nat) : Team :=
  let t := (t.setAcc a (freshAcc 2 0)).setAcc (a + 1) (freshAcc 2 0)
  { t with counts := t.counts.set (a / 2) { valid := true } }

/-- `mzero` (13/R214). -/
def execMzero (f : Form) (s : State) : Host.Outcome State Fault Refusal :=
  run (.mzero f) s fun _ f => .ok (s.modTeam s.me.team fun t => t.zero f.d.toNat)

/-- `mzero.sw` (13/R214). -/
def execMzeroSw (f : Form) (s : State) : Host.Outcome State Fault Refusal :=
  run (.mzeroSw f) s fun _ f => .ok (s.modTeam s.me.team fun t => t.zeroPair f.d.toNat)

/-! ### Fragments (13/R204, R205) -/

/-- The encoding of an operand with the scaling that the type gives (12/R184). -/
def mxEncoding (own e : Ty) : Ty :=
  if Opcode.Ty.isMx own then (match e with | .e4m3 => .mxe4m3 | .e5m2 => .mxe5m2 | e => e) else e

def encodings (own : Ty) (fm : BitVec 32) : Option (Ty × Ty) :=
  (effective own fm).map fun e => (mxEncoding own e.1, mxEncoding own e.2)

/-- K of one step. -/
def stepK (e : Ty) : Nat :=
  match elemWidth e with | 4 => 64 | 8 => 32 | 16 => 16 | 32 => 4 | _ => 1

/-- The rounding kind of a step's chains. -/
def stepKind (e : Ty) : Nat := if e == .f64 then 2 else if e == .f32 then 1 else 0

/-- Element k of row or column i of a fragment register. -/
def fragElem (e : Ty) (v : VReg) (i k : Nat) : FpNum :=
  ((fmtOf e).getD fmtF32).read false (v.data.toNat / 2 ^ (256 * i + k * elemWidth e) % 2 ^ elemWidth e)

def fragScale (e : Ty) (v : VReg) (i k : Nat) : Nat :=
  match e with
  | .mxe4m3 | .mxe5m2 => v.scaleByte (2 * i)
  | .mxe2m1 => v.scaleByte (2 * i + k / 32)
  | _ => 127

/-- The products of element (r, c), k ascending. -/
def stepProducts (aenc benc : Ty) (a b : List VReg) (r c : Nat) : List ExRes :=
  let va := a.getD (r / 4) .fresh
  let vb := b.getD (c / 4) .fresh
  (List.range (stepK aenc)).map fun k =>
    scaledProduct (fragElem aenc va (r % 4) k) (fragElem benc vb (c % 4) k) (fragScale aenc va (r % 4) k)
      (fragScale benc vb (c % 4) k)

/-- The two chains over products from index kk: E, O, flags. -/
def plainChains (kind : Nat) : Nat → List ExRes → Nat → Nat → Nat → Nat × Nat × Nat
  | _, [], e, o, fl => (e, o, fl)
  | kk, p :: ps, e, o, fl =>
    let r := chainAdd kind (if kk % 2 = 0 then e else o) p
    if kk % 2 = 0 then plainChains kind (kk + 1) ps r.1 o (fl ||| r.2) else plainChains kind (kk + 1) ps e r.1 (fl ||| r.2)

/-- Products of one sign, the others left out by `none` (13/R213). -/
def signChains (kind : Nat) : Nat → List (Option ExRes) → Nat → Nat → Nat → Nat × Nat × Nat
  | _, [], e, o, fl => (e, o, fl)
  | kk, none :: ps, e, o, fl => signChains kind (kk + 1) ps e o fl
  | kk, some p :: ps, e, o, fl =>
    let r := chainAdd kind (if kk % 2 = 0 then e else o) p
    if kk % 2 = 0 then signChains kind (kk + 1) ps r.1 o (fl ||| r.2) else signChains kind (kk + 1) ps e r.1 (fl ||| r.2)

/-- A product of the minus chains: a nonzero one with its sign bit 1. -/
def minusProduct (p : ExRes) : Bool :=
  match p.num with
  | .fin n m _ => n && m != 0
  | .inf n => n
  | .nan _ => false

/-- A product that counts. -/
def countedProduct (p : ExRes) : Bool :=
  match p.num with
  | .fin _ m _ => m != 0
  | .inf _ => true
  | .nan _ => false

/-- The chains of one accumulator after a step. -/
def Accum.chained (x : Accum) (kind : Nat) (chain : Nat → Nat → Nat → Nat × Nat × Nat) : Accum × Nat :=
  let z := chainZero kind
  let rs := (List.range cellCount).map fun i => chain i (cellAt x.even i z) (cellAt x.odd i z)
  ({ x with even := patterns (rs.map (·.1)), odd := patterns (rs.map (·.2.1)), n := x.n + 1, kind },
    engineFlags (orAll (rs.map (·.2.2))))

/-- A step ends its interval when its count reaches P. -/
def Accum.close (x : Accum) (p : Nat) : Accum × Nat := if p ≤ x.n then x.promote else (x, 0)

/-- A plain step on `ac`D (13/R211). -/
def Team.plainStep (t : Team) (d p : Nat) (aenc benc : Ty) (a b : List VReg) : Team × Nat :=
  let kind := stepKind aenc
  let x := if (t.acc d).valid then t.acc d else freshAcc (if kind = 2 then 1 else 0) kind
  let r := x.chained kind fun i e o => plainChains kind (x.n * stepK aenc) (stepProducts aenc benc a b (i / 96) (i % 96)) e o 0
  let q := r.1.close p
  let t := t.setAcc d q.1
  (if kind = 2 then t.setAcc (d + 1) (freshAcc 1 2) else t, r.2 ||| q.2)

/-- How many products of each sign an element counts (13/R213). -/
def countProducts (ps : List ExRes) : Nat :=
  (ps.filter fun p => countedProduct p && !minusProduct p).length + (ps.filter minusProduct).length * 2 ^ 16

/-- A Swallowtail step on the pair `ac`D, `ac`(D+1) (13/R213). The counts are gained at promotion (11/R178). -/
def Team.swallowStep (t : Team) (d p : Nat) (aenc benc : Ty) (a b : List VReg) : Team × Nat :=
  let kind := stepKind aenc
  let t := if (t.acc d).valid then t else t.zeroPair d
  let prods (i : Nat) : List ExRes := stepProducts aenc benc a b (i / 96) (i % 96)
  let half (x : Accum) (minus : Bool) : Accum × Nat := x.chained kind fun i e o =>
    signChains kind (x.n * stepK aenc) ((prods i).map fun p => if minusProduct p == minus then
      some (if minus then { p with num := p.num.negate } else p) else none) e o 0
  let plus := half (t.acc d) false
  let minus := half (t.acc (d + 1)) true
  let c := t.count (d / 2)
  let pend := (List.range cellCount).map fun i => BitVec.ofNat 32 (countAt c.pend i + countProducts (prods i))
  let t := (t.setAcc d plus.1).setAcc (d + 1) minus.1
  let t := { t with counts := t.counts.set (d / 2) { c with pend } }
  let r := if p ≤ plus.1.n then t.promotePair d else (t, 0)
  (r.1, plus.2 ||| minus.2 ||| r.2)

/-! ### `mma` (13/R206, R207, 16/R253, R254) -/

/-- The fields of a range word (11/R177): AFIRST, ACNT, BFIRST, BCNT; none for a malformed word. -/
def rangeWord (w : Nat) : Option (Nat × Nat × Nat × Nat) :=
  if w / 2 ^ 20 ≠ 0 then none
  else if w.testBit 19 then some (w % 16, w / 2 ^ 4 % 32, w / 2 ^ 9 % 32, w / 2 ^ 14 % 32)
  else if w ≠ 0 then none
  else some (0, 16, 0, 24)

/-- Registers from a specifier; none where the range passes `v127` (16/R254). -/
def supplied (x : BitVec 8) (n : Nat) : Option (List Nat) :=
  if n = 0 then some []
  else if x.toNat + n ≤ 0x80 then some ((List.range n).map (x.toNat + ·)) else none

/-- The first register that no fragment may be: not at `ln`, or of a queue. -/
def Group.badFragment (g : Group) (ns : List Nat) : Option Nat :=
  (List.range 128).find? fun n => ns.contains n
    && (mapPlace (g.entry n) != 0 || mapQKind (g.entry n) != 0 || (g.localHead n).isSome)

/-- The group waits for a released step (13/R204). -/
def Team.inEngine (t : Team) (g : Nat) : Bool := t.engine.any fun e => e.members.any (·.1 == g)

/-- One member's `mma` or `mma.sw`: it arrives at the latch and waits there, then for its step. One that a thermal abort has squashed and
that issues again takes the place of its arrival (log 23). -/
def mmaOp (i : Instr) (s : State) (swal : Bool) : Host.Outcome State Fault Refusal :=
  run i s fun info f =>
    let g := s.me
    let t := s.myTeam
    if t.inEngine s.meId then .error (.wait .answer)
    else match rangeWord (g.scalar f.cSpec).toNat, encodings (f.type info.base) g.fm with
      | some (af, an, bf, bn), some (aenc, benc) =>
        match supplied f.a an, supplied f.b bn with
        | some as, some bs =>
          match (as ++ bs).find? fun n => !g.holds (n / 8) with
          | some n => .error (.trap (trapOf i g 8 (BitVec.ofNat 64 n)))
          | none => match g.badFragment (as ++ bs) with
            | some n => .error (.trap (trapOf i g 9 (BitVec.ofNat 64 n)))
            | none =>
              if !t.gn.isEmpty && !t.gn.contains g.index then .error (illegal i g)
              else
                let reg (n : Nat) : VReg := g.regs.get n .fresh
                let a : Arrival := { gid := s.meId, index := g.index, form := f, swal, aenc, benc, first := (af, bf)
                                     afrag := as.map reg, bfrag := bs.map reg, since := s.time }
                match t.latch.find? (·.gid == s.meId) with
                | none => .error (.held .gang (s.modTeam g.team fun t => { t with latch := t.latch ++ [a] }))
                | some o =>
                  if { a with since := o.since } = o then .error (.wait .gang)
                  else .error (.held .gang (s.modTeam g.team fun t =>
                    { t with latch := t.latch.map fun b => if b.gid = s.meId then a else b }))
        | _, _ => .error (illegal i g)
      | _, _ => .error (illegal i g)

/-- `mma` (16/R253). -/
def execMma (f : Form) (s : State) : Host.Outcome State Fault Refusal := mmaOp (.mma f) s false
/-- `mma.sw` (16/R253). -/
def execMmaSw (f : Form) (s : State) : Host.Outcome State Fault Refusal := mmaOp (.mmaSw f) s true

/-! ### The latch (13/R207, R208) -/

/-- The gang that is complete: every group named in `gn`; with `gn` empty, the first arrival alone, the lower-indexed of one cycle (R178). -/
def Team.fullGang (t : Team) : Option (List Arrival) :=
  if t.gn.isEmpty then
    (t.latch.foldl (fun best a => match best with
      | none => some a
      | some b => if lexLess [a.since, a.index] [b.since, b.index] then some a else best) none).map fun a => [a]
  else
    let ms := t.gn.filterMap fun k => t.latch.find? (·.index == k)
    if ms.length = t.gn.length then some ms else none

/-- The fragments that a member supplies, a supply beyond the last one counting for it. -/
def coverOf (first last : Nat) (n : Nat) : List Nat := (List.range n).map fun j => min (first + j) last

/-- How often each of n fragments is covered, the first that is not covered once; a supply beyond the last covers the last
twice. -/
def badCover (last : Nat) (ms : List (Nat × Nat)) : Option Nat :=
  let all := ms.flatMap fun m => coverOf m.1 last m.2
  let beyond := ms.any fun m => 0 < m.2 && last < m.1 + m.2 - 1
  (List.range (last + 1)).find? fun k => (all.filter (· == k)).length != 1 || (k == last && beyond)

/-- `tval` of a cover fault for one member (13/R208). -/
def coverTval (x : BitVec 8) (first last n code k : Nat) (doubly : Bool) : Word :=
  let j := (List.range n).find? fun j => min (first + j) last == k
  let sp := match j with | some j => if doubly then x.toNat + j else 0 | none => 0
  fieldsWord [(sp, 0), (code, 8), (k, 10)]

/-- What the check of a step finds: none, or each member's `tval` (13/R208, R210). Members that mix `mma` and `mma.sw` mismatch;
a bad cover is found before a bad mode (log 59); types count by their effective encodings (log 72). -/
def Team.coverFault (t : Team) (ms : List Arrival) : Option (List (Arrival × Word)) :=
  match ms with
  | [] => none
  | m :: _ =>
    let same := ms.all fun x => x.form.d == m.form.d && x.form.imm == m.form.imm && x.aenc == m.aenc && x.benc == m.benc
      && x.swal == m.swal
    let d := m.form.d.toNat
    let wide := m.aenc == .f64
    let modeOk (a mode : Nat) : Bool := !(t.acc a).valid || (t.acc a).mode == mode
    let paired := (t.acc d).valid == (t.acc (d + 1)).valid
    let mode :=
      if m.swal then modeOk d 2 && modeOk (d + 1) 2 && paired
      else if wide then modeOk d 1 && modeOk (d + 1) 1 && paired
      else modeOk d 0
    if !same then some (ms.map fun x => (x, 0x300))
    else match badCover 15 (ms.map fun x => (x.first.1, x.afrag.length)) with
      | some k =>
        let n := (ms.flatMap fun x => coverOf x.first.1 15 x.afrag.length).filter (· == k)
        some (ms.map fun x => (x, coverTval x.form.a x.first.1 15 x.afrag.length 1 k (!n.isEmpty)))
      | none => match badCover 23 (ms.map fun x => (x.first.2, x.bfrag.length)) with
        | some k =>
          let n := (ms.flatMap fun x => coverOf x.first.2 23 x.bfrag.length).filter (· == k)
          some (ms.map fun x => (x, coverTval x.form.b x.first.2 23 x.bfrag.length 2 k (!n.isEmpty)))
        | none => if mode then none else some (ms.map fun x => (x, 0x300))

/-- The fragments of a gang in order. -/
def gather (last : Nat) (ms : List (Nat × List VReg)) : List VReg :=
  (List.range (last + 1)).map fun k =>
    (ms.findSome? fun m => if m.1 ≤ k then m.2[k - m.1]? else none).getD .fresh

/-- A complete gang is checked and its step released (13/R208, R219), once the engine is free and in no bubble (13/R204,
23/R360): the accumulator changes at once, so that a later drain sees the step; the members that still wait complete when it has executed. -/
def State.releaseStep (s : State) (t : Nat) : State :=
  let x := s.team t
  match x.fullGang with
  | none => s
  | some ms =>
    if !x.engine.isEmpty || s.bubble x.core then s
    else
      let left := x.latch.filter fun a => !ms.any (·.gid == a.gid)
      match ms, x.coverFault ms with
      | [], _ => s
      | _, some fs =>
        (fs.filter fun f => (s.group f.1.gid).atLatch).foldl (fun s f => s.asGroup f.1.gid fun s => s.counted.takeTrap s.meId
          { kind := 15, tval := f.2, tlm := 0, place := 5, op := if f.1.swal then 0x91 else 0x90, nxs := false })
          (s.setTeam t { x with latch := left })
      | m :: _, none =>
        let a := gather 15 (ms.map fun y => (y.first.1, y.afrag))
        let b := gather 23 (ms.map fun y => (y.first.2, y.bfrag))
        let d := m.form.d.toNat
        let p := m.form.imm.toNat
        let r := if m.swal then x.swallowStep d p m.aenc m.benc a b else x.plainStep d p m.aenc m.benc a b
        let waiting := ms.filter fun y => (s.group y.gid).atLatch
        let step : Step := { members := waiting.map fun y => (y.gid, y.form), swal := m.swal, flags := r.2
                             due := s.cycles x.core + 16 }
        let s := s.setTeam t { r.1 with latch := left, engine := [step] }
        waiting.foldl (fun s y => s.modGroup y.gid fun g => { g with wait := some .answer }) s

/-- The latch of the team in `subject` releases a step (13/R208). -/
def execGangStepRelease (s : State) : Host.Outcome State Fault Refusal := .next (s.releaseStep s.subject)

/-- The instruction of a member. -/
def memberInstr (swal : Bool) (f : Form) : Instr := if swal then .mmaSw f else .mma f

/-- A step ends: each member's instruction commits, and its `ff` gains the step's flags (13/R204, R212). -/
def State.completeStep (s : State) (t : Nat) : State :=
  match (s.team t).engine with
  | [] => s
  | e :: rest =>
    if s.cycles (s.team t).core < e.due then s
    else
      let s := s.modTeam t fun x => { x with engine := rest }
      e.members.foldl (fun s m => s.asGroup m.1 fun s =>
        retire (memberInstr e.swal m.2) (s.me.active m.2) (s.raise e.flags)) s

/-- The oldest step of the team in `subject` completes. -/
def execMmaStepComplete (s : State) : Host.Outcome State Fault Refusal := .next (s.completeStep s.subject)

/-! ### `gang` -/

/-- `gang` (11/R177, 13/R207). A mask that names a group which has exited is illegal (log 58). -/
def execGang (f : Form) (s : State) : Host.Outcome State Fault Refusal :=
  run (.gang f) s fun _ f =>
    let t := s.myTeam
    let v := (s.me.scalar f.a).toNat
    let ms := (List.range 32).filter v.testBit
    let roleM (k : Nat) : Bool := s.groups.any fun g => g.2.team == s.me.team && g.2.index == k && g.2.role == .m
    if 2 ^ 32 ≤ v || ms.isEmpty || 6 < ms.length || !ms.all roleM then .error (illegal (.gang f) s.me)
    else if !t.latch.isEmpty then .error (.wait .gang)
    else .ok (s.modTeam s.me.team fun t => { t with gn := ms })

/-! ### Draining (13/R215, R217, 11/R179) -/

/-- The values of an accumulator's elements from an index; contents never defined are free values (13/R210, log 12). -/
def Team.accVals (t : Team) (free a from_ n : Nat) : List Nat :=
  let x := t.acc (t.accKey a)
  (List.range n).map fun j =>
    if (t.acc a).valid then cellAt x.cells (from_ + j) 0 else (Config.freeAcc free (from_ + j)).toNat

/-- The scalar row operand, below 64. -/
def rowOf (g : Group) (f : Form) : Option Nat :=
  let r := (g.scalar f.b).toNat
  if r < 64 then some r else none

/-- The accumulator has the width that the type names, or is invalid (13/R215); FP64 names the even accumulator of a pair (log 12). -/
def Team.widthOk (t : Team) (a : Nat) (wide : Bool) : Bool :=
  let x := t.acc a
  if wide then a % 2 == 0 && (!x.valid || x.mode == 1) else !(x.valid && x.mode == 1)

/-- Registers written by a drain: 96 values, 32 to a register. -/
def drainWrites (m : BitVec 32) (xs : List Nat) : List VWrite :=
  (List.range 3).map fun j => scaledWrite m (fun l => xs.getD (32 * j + l) 0) fun _ => 0x7F

/-- An FP64 row: low and high words in pairs of registers. -/
def drainPairs (m : BitVec 32) (xs : List Nat) : List VWrite :=
  (List.range 3).flatMap fun j => (List.range 2).map fun k =>
    scaledWrite m (fun l => digit 32 (xs.getD (32 * j + l) 0) k) fun _ => 0x7F

/-- `mdr` (13/R215). -/
def execMdr (f : Form) (s : State) : Host.Outcome State Fault Refusal :=
  run (.mdr f) s fun info f =>
    let i := Instr.mdr f
    let a := f.a.toNat
    let wide := f.type info.base == .f64
    match rowOf s.me f with
    | none => .error (illegal i s.me)
    | some r =>
      if !s.myTeam.widthOk a wide then .error (illegal i s.me)
      else
        let p := s.myTeam.promote a
        let xs := p.1.accVals s.free a (96 * r) 96
        let s := ({ s.setTeam s.me.team p.1 with free := s.free + 1 } : State).raise p.2
        let m := s.me.active f
        writeRange i s (Spec.of f.d) 0 (if wide then drainPairs m xs else drainWrites m xs)

/-- m1·2^e1 / m2·2^e2 with enough bits for one rounding: the last bit stands for the remainder. -/
def numRatio (neg : Bool) (m1 : Nat) (e1 : Int) (m2 : Nat) (e2 : Int) : FpNum :=
  let k := Nat.log2 m2 + 30
  let q := m1 * 2 ^ k / m2
  .fin neg (2 * q + (if m1 * 2 ^ k % m2 = 0 then 0 else 1)) (e1 - e2 - k - 1)

/-- |x - y| < τ · (x + y) exactly, for finite sums; τ ≤ 0 or NaN zeroes nothing, τ > 1 everything (11/R179, 13/R218). -/
def agrees (tau x y : FpNum) : Bool :=
  match tau, x, y with
  | .inf neg, .fin .., .fin .. => !neg
  | .fin neg m e, .fin .., .fin .. =>
    if m = 0 || neg then false
    else if numLt (.fin false 1 0) tau then true
    else
      let d := (numAdd false x y.negate).num
      let d := if d.neg then d.negate else d
      numLt d (numMul (.fin false m e) (numAdd false x y).num).num
  | _, _, _ => false

/-- One element of `sdr.diff`, 1 `ratio`, 2 `agree` (11/R179, 13/R217): pattern and flags. -/
def sdrElem (fn : Nat) (tau sp sn : Nat) : Nat × Nat :=
  let x := fmtF32.read false sp
  let y := fmtF32.read false sn
  let diff : Nat × Nat :=
    let r := (numAdd false x y.negate).deliver fmtF32 .rne false
    (r.bits, r.flags &&& (flOF ||| flNX ||| flUF))
  if x.isNan || y.isNan then (fmtF32.qnan, 0)
  else match x, y with
    | .inf _, .inf _ => match fn with
      | 0 => (fmtF32.qnan, flNV)
      | 1 => (0x3F80_0000, 128)
      | _ => (0, 128)
    | .fin _ m e, .fin _ n d =>
      if fn = 1 then
        if m = 0 && n = 0 then (0, 64)
        else
          let q := if numLt y x then numRatio false n d m e else numRatio false m e n d
          let r := fmtF32.write .arith .rne false q
          (r.bits, r.flags)
      else if fn = 2 && agrees (fmtF32.read false tau) x y then (0, 0)
      else diff
    | _, _ => if fn = 1 then (0, 0) else diff

/-- `sdr` of one mode (11/R179, 13/R217); a pair with one plain half is a plain pair (log 74). -/
def sdrOp (i : Instr) (s : State) (fn : Nat) : Host.Outcome State Fault Refusal :=
  run i s fun info f =>
    let a := f.a.toNat
    let t := s.myTeam
    let plain (a : Nat) : Bool := (t.acc a).valid && (t.acc a).mode != 2
    match rowOf s.me f with
    | none => .error (illegal i s.me)
    | some r =>
      if plain a || plain (a + 1) then .error (illegal i s.me)
      else
        let p := t.promote a
        let sp := p.1.accVals s.free a (96 * r) 96
        let sn := p.1.accVals (s.free + 1) (a + 1) (96 * r) 96
        let cs := p.1.count (a / 2)
        let tau := (t.ag.get (a / 2) 0).toNat
        let xs : List (Nat × Nat) :=
          if f.type info.base == .u32 then (List.range 96).map fun j =>
            (if cs.valid then ((cs.cells[96 * r + j]?).map BitVec.toNat).getD 0
              else (Config.freeAcc (s.free + 2) (96 * r + j)).toNat, 0)
          else (sp.zip sn).map fun v => sdrElem fn tau v.1 v.2
        let act := s.me.active f
        let fl := if (p.1.acc a).valid then orAll (xs.zipIdx.map fun v => if laneOn act (v.2 % 32) then v.1.2 else 0) else 0
        let s := ({ s.setTeam s.me.team p.1 with free := s.free + 3 } : State).raise (p.2 ||| fl)
        writeRange i s (Spec.of f.d) 0 (drainWrites act (xs.map (·.1)))

/-- `sdr.diff` (11/R179, 13/R217). -/
def execSdrDiff (f : Form) (s : State) : Host.Outcome State Fault Refusal := sdrOp (.sdrDiff f) s 0
/-- `sdr.ratio` (11/R179, 13/R217). -/
def execSdrRatio (f : Form) (s : State) : Host.Outcome State Fault Refusal := sdrOp (.sdrRatio f) s 1
/-- `sdr.agree` (11/R179, 13/R217). -/
def execSdrAgree (f : Form) (s : State) : Host.Outcome State Fault Refusal := sdrOp (.sdrAgree f) s 2

/-- `agset` (11/R179, 13/R218). -/
def execAgset (f : Form) (s : State) : Host.Outcome State Fault Refusal :=
  run (.agset f) s fun _ f =>
    .ok (s.modTeam s.me.team fun t => { t with ag := t.ag.set f.d.toNat ((s.me.scalar f.a).truncate 32) })

/-! ### Stage rings (11/R175, 16/R255) -/

def Team.ring (t : Team) (n : Nat) : Ring := t.rings.get n {}

/-- `racq` (11/R175). -/
def execRacq (f : Form) (s : State) : Host.Outcome State Fault Refusal :=
  run (.racq f) s fun _ f =>
    let r := s.myTeam.ring (f.d.toNat / 8)
    let k := f.d.toNat % 8
    if r.slots = 0 then .error (.wait .ring)
    else if r.slots ≤ k then .error (illegal (.racq f) s.me)
    else if r.phase.getLsbD k == f.imm.getLsbD 0 then .ok s
    else .error (.wait .ring)

/-- `rrel` (11/R175). -/
def execRrel (f : Form) (s : State) : Host.Outcome State Fault Refusal :=
  run (.rrel f) s fun _ f =>
    let n := f.d.toNat / 8
    let r := s.myTeam.ring n
    let k := f.d.toNat % 8
    if r.slots ≤ k then .error (illegal (.rrel f) s.me)
    else .ok (s.modTeam s.me.team fun t =>
      { t with rings := t.rings.set n { r with phase := r.phase ^^^ BitVec.ofNat 8 (2 ^ k) } })

/-- `rcfg` (11/R175, 16/R255). -/
def execRcfg (f : Form) (s : State) : Host.Outcome State Fault Refusal :=
  run (.rcfg f) s fun _ f =>
    let v := (s.me.scalar f.a).toNat
    if v < 2 || 8 < v then .error (illegal (.rcfg f) s.me)
    else .ok (s.modTeam s.me.team fun t => { t with rings := t.rings.set f.d.toNat { slots := v, phase := 0 } })

end Sys2Proof.Machine
end

