-- ==== Sys2Proof/Machine/Sluice.lean ====
section
/-!
DEFINITION. Meanings: copies, watermarks and batches (14/R220-R230, 16/R256-R264, 13/R216), `fbsvc` (27/R398), and the steps
`copyLand`, `multicastLand`, `accessRestart`.
-/

namespace Sys2Proof.Machine

open Sys2Proof

/-! ### The shape register (11/R176, 16/R256) -/

def signedLane (v : VReg) (l : Nat) : Int := signedOf 32 (v.lane l)

/-- N0, the dimensions and, for a gather, LISTOFF; none where a reserved lane is not 0 or N0 does not suit the widening. -/
def shapeOf (gather : Bool) (wid : Nat) (v : VReg) : Option (Nat × List Dim × Nat) :=
  let used (l : Nat) : Bool :=
    if gather then [0, 1, 2, 8, 16].contains l else l ≤ 4 || (8 ≤ l && l ≤ 11) || (16 ≤ l && l ≤ 19)
  if (List.range 32).any fun l => !used l && v.lane l != 0 then none
  else if wid != 0 && v.lane 0 % 4 != 0 then none
  else if gather then some (v.lane 0, [{ n := v.lane 1, s := signedLane v 8, d := signedLane v 16 }], v.lane 2)
  else some (v.lane 0, (List.range 4).map fun j =>
    { n := v.lane (1 + j), s := signedLane v (8 + j), d := signedLane v (16 + j) }, 0)

/-- The first destination stride that does not rise: its offset from `dst` (14/R221). -/
def notRising (n0 : Nat) : List Dim → Int → Option Int
  | [], _ => none
  | d :: ds, inner =>
    if 1 < d.n && d.d < n0 + inner then some d.d else notRising n0 ds (inner + ((d.n : Int) - 1) * d.d)

/-- The first boundary of a multicast's runs that is not one of 128 B: its offset from `dst` (14/R229). -/
def notLined (dst : Int) (n0 : Nat) (dims : List Dim) : Option Int :=
  if dst % 128 ≠ 0 then some 0
  else if n0 % 128 ≠ 0 then some n0
  else (dims.find? fun d => 1 < d.n && d.d % 128 != 0).map (·.d)

def Copy.runs (c : Copy) : Nat := c.dims.foldl (fun n d => n * d.n) 1

/-- Source bytes of a run (16/R256). -/
def Copy.runBytes (c : Copy) : Nat := if c.wid = 0 then c.n0 else 3 * c.n0 / 4

def Copy.runDst (c : Copy) (r : Nat) : Int := c.dst + dimOffset false c.dims r
def Copy.runSrc (c : Copy) (r : Nat) : Int := c.src + dimOffset true c.dims r

/-- Width of an index of a gather's list. -/
def listWidth (t : Ty) : Nat := if t == .u16 then 2 else 4

/-- The first of n bytes at x outside [lo, hi). -/
def firstOutside (lo hi x : Int) (n : Nat) : Option Nat :=
  if n = 0 then none else if x < lo || hi ≤ x then some 0 else if x + n ≤ hi then none else some (hi - x).toNat

/-- The scratchpad ranges that a copy is known to read when it issues: its source runs, or a gather's list, which is
part of its source (16/R256, R258): first byte and length. -/
def Copy.ownSources (c : Copy) : List (Int × Int) :=
  if c.kind = .cpg then [((c.list : Int), ((c.runs * listWidth c.lty : Nat) : Int))]
  else if c.kind = .cpy && c.spSrc then (List.range c.runs).map fun q => (c.runSrc q, (c.runBytes : Int))
  else []

/-- The first destination byte that lies in the copy's own scratchpad source (16/R256). A source offset at or beyond the cohort region's
base is no byte of that region, but outside the team region (log 60). -/
def Copy.selfOverlap (c : Copy) : Option Int :=
  if c.global || c.total = 0 || cohortBase ≤ c.dst then none
  else
    (List.range c.runs).findSome? fun (r : Nat) =>
      let hits : List Int := c.ownSources.filterMap fun q =>
        let lo := max (c.runDst r) q.1
        if lo < c.runDst r + c.n0 && lo < q.1 + q.2 then some lo else none
      hits.foldl (fun best x => match best with | none => some x | some b => some (min b x)) none

/-- The bounds of the region that holds a destination's first byte. -/
def Team.region (t : Team) (x : Int) : Int × Int :=
  if cohortBase ≤ x then (cohortBase, cohortBase + 65536 * t.m) else (0, 65536 * t.n)

/-- The first offset or address that a copy may not touch, in iteration order (16/R256); a widened element reads its source bytes
as it lands. Of one element's, the destination comes first (log 60). -/
def Copy.outside (c : Copy) (t : Team) : Option Int :=
  if c.total = 0 then none
  else
    let d := if c.global then (0, 2 ^ 52) else t.region c.dst
    let s : Int × Int := if c.spSrc then (0, 65536 * t.n) else (0, 2 ^ 52)
    let w := listWidth c.lty
    (List.range c.runs).findSome? fun (r : Nat) =>
      let list := if c.kind = .cpg then (firstOutside 0 (65536 * t.n) (c.list + r * w) w).map fun o => (c.list + r * w : Int) + o else none
      let src := if c.kind = .cpg then none else firstOutside s.1 s.2 (c.runSrc r) c.runBytes
      match list with
      | some x => some x
      | none => match firstOutside d.1 d.2 (c.runDst r) c.n0, src with
        | some a, some b => some (if a ≤ (if c.wid = 0 then b else 8 * b / 6) then c.runDst r + a else c.runSrc r + b)
        | some a, none => some (c.runDst r + a)
        | none, some b => some (c.runSrc r + b)
        | none, none => none

/-! ### Batches (14/R226, R227) -/

/-- A batch of a group by its serial: the current one has the next. -/
def State.modBatch (s : State) (g serial : Nat) (f : Batch → Batch) : State :=
  let go (x : Group) : Group :=
    if serial = x.nextb then { x with batch := f x.batch }
    else { x with sealed := x.sealed.update fun k b => if k = serial then f b else b }
  if g = s.meId then { s with me := go s.me }
  else match s.others.get? g with
    | some x => { s with others := s.others.set g (go x) }
    | none => s

/-- A sealed batch that has neither completed nor failed. -/
def Batch.incomplete (b : Batch) : Bool := 0 < b.copies && b.failed.isNone

/-- `cseal` (16/R261). A batch superseded by its number is forgotten, unless it is incomplete or its failure has still to be
reported (14/R227). -/
def execCseal (f : Form) (s : State) : Host.Outcome State Fault Refusal :=
  run (.cseal f) s fun _ f =>
    let g := s.me
    if 16 ≤ (g.sealed.filter fun b => b.2.incomplete).length then .error (.wait .cseal)
    else
      let kept : Map Batch := g.sealed.filter fun b => b.1 % 16 != g.nextb % 16 || b.2.incomplete || (b.2.failed.isSome && !b.2.waited)
      .ok (({ s with me := { g with sealed := kept.set g.nextb g.batch, batch := {}, nextb := g.nextb + 1 } } : State).setScalar f.d
        (BitVec.ofNat 64 (g.nextb % 16)))

/-- The batch most recently sealed with a number. -/
def Group.sealedAs (g : Group) (n : Nat) : Option (Nat × Batch) := (g.sealed.filter fun b => b.1 % 16 == n).getLast?

/-- `cwait` (14/R226, R227, 16/R262). -/
def execCwait (f : Form) (s : State) : Host.Outcome State Fault Refusal :=
  run (.cwait f) s fun _ f =>
    let i := Instr.cwait f
    let v := (s.me.scalar f.a).toNat
    if 16 ≤ v then .error (illegal i s.me)
    else match s.me.sealedAs v with
      | none => .ok s
      | some (k, b) => match b.failed with
        | some va => .error (.fail { trapOf i s.me 19 va with place := 6 } (s.modBatch s.meId k fun b => { b with waited := true }))
        | none => if 0 < b.copies then .error (.wait .cwait) else .ok s

/-! ### Issue (16/R256-R260) -/

/-- A watermark that a new copy may take (14/R222). -/
def Watermark.free (w : Watermark) : Bool := w.st != 1 && w.st != 2

def Team.wm (t : Team) (n : Nat) : Watermark := t.wms.get n {}

/-- Copies in progress on a core. -/
def State.copyRoom (s : State) (c : Nat) : Bool := (s.core c).copies.length < 16

/-- The first check that a copy's values fail (16/R256): kind, `tval`. -/
def Copy.check (c : Copy) (s : State) : Option (Nat × Int) :=
  let t := s.team c.team
  let base : Int := if c.kind = .cpm then cohortBase else 0
  let w := listWidth c.lty
  let empty := c.total = 0
  let strangers := (List.range 16).any fun p => c.mask.getLsbD p && ((s.cohort c.cohort).teams.get? p).isNone
  let short (p : Nat) : Bool := c.mask.getLsbD p && !empty
    && ((cohortBase : Int) + 65536 * (s.cohort c.cohort).m.get p 0 < c.limit || c.dst < cohortBase)
  if c.kind = .cpg && c.list % w ≠ 0 then some (7, c.list)
  else match (if c.kind = .cpm && !empty then notLined (c.dst - base) c.n0 c.dims else none) with
    | some o => some (7, c.dst + o)
    | none => match (if empty then none else notRising c.n0 c.dims 0) with
      | some o => some (14, c.dst + o)
      | none => match c.selfOverlap with
        | some x => some (14, x)
        | none =>
          if c.kind = .cpm then
            if strangers || (List.range 16).any short then some (19, c.dst)
            else (({ c with global := true, dst := 0, dims := c.dims.map fun d => { d with d := 0 } } : Copy).outside t).map
              fun x => (19, x)
          else (c.outside t).map fun x => (19, x)

/-- A watermark opened on a destination range; an empty one closes at once (14/R222). -/
def Watermark.opened (c : Copy) : Watermark :=
  if c.total = 0 then { base := c.dst.toNat, limit := c.dst.toNat, mark := c.dst.toNat, st := 4, order := c.order }
  else { base := c.dst.toNat, limit := c.limit.toNat, mark := c.dst.toNat, st := 1, order := c.order }

/-- Lines of a multicast's destination, as numbers of 128 B. -/
def Copy.lineSet (c : Copy) : List Nat :=
  (List.range c.runs).flatMap fun r => (List.range (c.n0 / 128)).map fun j => (c.runDst r).toNat / 128 + j

/-- The issue of a multicast: the count rises, and the landed bits of its lines are cleared (14/R228, R230). -/
def State.castIssue (s : State) (c : Copy) : State :=
  if c.total = 0 then s
  else
    let ps := (List.range 16).filter c.mask.getLsbD
    let gone := c.lineSet
    let s := s.modCohort c.cohort fun k => { k with
      mcount := k.mcount + 1
      lines := ps.foldl (fun m p => m.set p ((m.get p []).filter fun l => !gone.contains l)) k.lines }
    ps.foldl (fun s p => match (s.cohort c.cohort).teams.get? p with
      | some t => if (s.teams.get? t).isSome then s.followLines t else s
      | none => s) s

/-- The watermark of a copy follows it (14/R222). -/
def State.markCopy (s : State) (c : Copy) (landed st : Nat) : State :=
  match c.wm with
  | none => s
  | some n => if (s.teams.get? c.team).isNone then s else s.modTeam c.team fun t =>
    let w := t.wm n
    if w.order = c.order && w.free = false then
      { t with wms := t.wms.set n { w with st, mark := if st = 3 then w.mark else (c.markAt landed).toNat } }
    else t

def State.putCopy (s : State) (core id : Nat) (c : Copy) : State :=
  s.modCore core fun k => { k with copies := k.copies.set id c }

def State.eraseCopy (s : State) (core id : Nat) : State := s.modCore core fun k => { k with copies := k.copies.erase id }

/-- A copy ends: its batch counts one less, its multicast no more. -/
def State.endCopy (s : State) (core id : Nat) (c : Copy) : State :=
  let s := s.eraseCopy core id
  let s := match c.batch with
    | some k => s.modBatch c.gid k fun b => { b with copies := b.copies - 1 }
    | none => s
  if c.kind = .cpm then (s.modCohort c.cohort fun k => { k with mcount := k.mcount - 1 }).releaseCohort c.cohort else s

/-- The lowest front of a multicast (14/R229). -/
def Copy.lowest (c : Copy) : Nat :=
  ((List.range 16).filter c.mask.getLsbD).foldl (fun n p => min n (c.fronts.get p 0)) c.total

/-- An entry of a core's fault buffer is free again. -/
def State.freeEntry (s : State) (core e : Nat) : State := s.modCore core fun k => { k with fbuf := k.fbuf.erase e }

/-- The masked positions of a multicast whose cores satisfy a test count as landed (28/R402). A frozen one with no byte left to land gives
up its entry and closes. -/
def State.skipCast (s : State) (dead : Nat → Bool) (core id : Nat) (c : Copy) : State :=
  let k := s.cohort c.cohort
  let ps := (List.range 16).filter fun q => c.mask.getLsbD q && dead (pairCore k.part k.pair q)
  if c.kind ≠ .cpm || ps.isEmpty then s
  else
    let c := { c with fronts := ps.foldl (fun m q => m.set q c.total) c.fronts }
    let s := s.putCopy core id c
    if c.total ≤ c.lowest then ((c.frozen.elim s (s.freeEntry core)).markCopy c c.lowest 4).endCopy core id c
    else if c.frozen.isSome then s
    else s.markCopy c c.lowest 1

/-- A copy that has passed its checks is issued; a multicast drops its bytes for cores in reset (28/R402). -/
def State.issueCopy (s : State) (c : Copy) : State :=
  let c := { c with order := s.order }
  let s := { s with order := s.order + 1 }
  let s := match c.wm with
    | some n => s.modTeam c.team fun t => { t with wms := t.wms.set n (Watermark.opened c) }
    | none => s
  let s := if c.kind = .cpm then s.castIssue c else s
  if c.total = 0 then s
  else
    let s := match c.batch with
      | some k => s.modBatch c.gid k fun b => { b with copies := b.copies + 1 }
      | none => s
    let id := (s.core s.me.core).copies.fresh
    (s.putCopy s.me.core id c).skipCast (fun k => (s.core k).inReset || (s.core k).retired) s.me.core id c

/-- A copy of the group whose turn it is. -/
def State.newCopy (s : State) (kind : CopyKind) (wm : Option Nat) (dst : Int) : Copy :=
  let t := s.myTeam
  { kind, team := s.me.team, cohort := t.cohort, pos := t.pos, part := t.part, slot := t.slot, steward := t.steward, gid := s.meId
    kept := none, ident := { s.groupReport s.me with depth := 0 }, wm, batch := none, dst, src := 0, global := false, spSrc := false, wid := 0
    n0 := 0, dims := [], list := 0, lty := .u32, mask := 0, fronts := [], data := [], run := none, lines := [], ask := none
    landed := 0, frozen := none, order := 0 }

/-- The checks and the issue that the three copies share. -/
def copyOp (i : Instr) (s : State) (kind : CopyKind) : Host.Outcome State Fault Refusal :=
  run i s fun info f =>
    let gather := kind == .cpg
    let wid := if kind == .cpm then 0 else f.imm.toNat / 4
    let global := kind != .cpm && f.imm.getLsbD 0
    match readSources i info f true s with
    | .error h => .error h
    | .ok s' =>
      match shapeOf gather wid (s.source f.cSpec .u32) with
      | none => .error (illegal i s.me)
      | some (n0, dims, list) =>
        let dst : Int := ((s.me.scalar f.a).toNat : Int) + (if kind == .cpm then cohortBase else 0)
        let c := { s'.newCopy kind (if global then none else some f.d.toNat) dst with
          src := (s.me.scalar f.b).toNat
          global, spSrc := if kind == .cpm then f.imm.getLsbD 16 else f.imm.getLsbD 1
          wid, n0, dims, list, lty := f.type .u32
          mask := if kind == .cpm then f.imm.truncate 16 else 0
          batch := if global then some s.me.nextb else none }
        match c.check s with
        | some (kind, x) =>
          let t := trapOf i s.me kind (BitVec.ofInt 64 x)
          .error (.trap (if kind = 14 then { t with tlm := 0 } else t))
        | none =>
          if !s.copyRoom s.me.core then .error (.wait .copyRoom)
          else if !global && !(s.myTeam.wm f.d.toNat).free then .error (.wait .copyMark)
          else .ok (s'.issueCopy c)

/-- `cpy` (16/R257). -/
def execCpy (f : Form) (s : State) : Host.Outcome State Fault Refusal := copyOp (.cpy f) s .cpy
/-- `cpg` (16/R258). -/
def execCpg (f : Form) (s : State) : Host.Outcome State Fault Refusal := copyOp (.cpg f) s .cpg
/-- `cpm` (16/R259). -/
def execCpm (f : Form) (s : State) : Host.Outcome State Fault Refusal := copyOp (.cpm f) s .cpm

/-- `mdr.sp` (13/R216). -/
def execMdrSp (f : Form) (s : State) : Host.Outcome State Fault Refusal :=
  run (.mdrSp f) s fun info f =>
    let i := Instr.mdrSp f
    let a := f.a.toNat
    let wide := f.type info.base == .f64
    let x := (s.me.scalar f.b).toNat
    let w := if wide then 8 else 4
    if !s.myTeam.widthOk a wide then .error (illegal i s.me)
    else if x % 128 ≠ 0 then .error (misaligned i s.me (BitVec.ofNat 64 x))
    else if !s.myTeam.inRegion x (cellCount * w) then .error (badAddress i s.me (BitVec.ofNat 64 x))
    else if !s.copyRoom s.me.core then .error (.wait .copyRoom)
    else if !(s.myTeam.wm f.d.toNat).free then .error (.wait .copyMark)
    else
      let p := s.myTeam.promote a
      let data := (p.1.accVals s.free a 0 cellCount).flatMap fun v => bytesOf v w
      let s := ({ s.setTeam s.me.team p.1 with free := s.free + 1 } : State).raise p.2
      .ok (s.issueCopy { s.newCopy .drain (some f.d.toNat) x with data })

/-! ### Landing (14/R220-R225, R229) -/

/-- What a copy finds at its next byte; `done` says how many bytes have landed. -/
inductive Landing where
  | byte (b : Byte) (c : Copy) (s : State)
  | done (n : Nat) (c : Copy) (s : State)
  | wait (c : Copy) (s : State)
  | replay (va : Word) (c : Copy) (s : State)
  | bad (va : Word) (c : Copy) (s : State)
deriving DecidableEq, Repr

/-- The maker of a copy's access (26/R393). -/
def Copy.who (c : Copy) (va : Word) : Who :=
  { va, source := 1, team := c.ident.team, group := c.ident.group, slot := c.slot, launch := c.ident.launch }

/-- The source under which other modules know a copy's packets (17/R269): not that of its group. -/
def Copy.sender (c : Copy) : Nat := 2 ^ 32 * (c.order + 1) + c.gid

/-- A request sent for a copy; a write carries n bytes. -/
def State.copyAsk (s : State) (c : Copy) (write : Bool) (n : Nat) (va : Word) (limit : Bool) (out : Nat → Outgoing) : Landing :=
  let q := s.nextId
  let ask := { write, n, va, due := if limit then s.time + msCycles else 0, seq := q, answer := none }
  .wait { c with ask := some ask } { s with nextId := q + 1, outbox := s.outbox ++ [out q] }

/-- A source byte of the granules that a copy has read: each is read whole (18/R275). -/
def Copy.lineByte (c : Copy) (a : Nat) : Option Byte :=
  (c.lines.find? fun l => l.1 == a / 64).bind fun l => l.2[a % 64]?

def Copy.keepLine (c : Copy) (a : Nat) (bs : List Byte) : Copy := { c with lines := (a / 64, bs) :: c.lines.take 1 }

/-- The granule of a source byte, read from DRAM or asked for. -/
def State.sourceGranule (s : State) (c : Copy) (a : Nat) (h : Home) : Landing :=
  let va := BitVec.ofNat 64 a
  match h with
  | .ram la =>
    if !s.reaches c.part la 1 then .bad va c (s.refuse la)
    else if s.bankBusy la then .wait c s
    else match s.readOffs (la / 64 * 64) (c.who va) (List.range 64) with
      | .ok (bs, s) => .byte (bs.getD (a % 64) 0) (c.keepLine a bs) s
      | .error (_, s) => .bad va c s
  | .comb la => s.copyAsk c false 0 va false (fun q => .deviceRead c.sender q (linkOf (la / 64 * 64)) (s.busAddr (la / 64 * 64)) (List.range 64))
  | .remote m la => s.copyAsk c false 0 va true (fun q => .remote c.sender q (s.portsTo m) m (la / 64 * 64) (.read 64))
  | _ => .bad va c s

/-- A copy's reads of its team's scratchpad, or of what it has kept of it. -/
def State.copySp (s : State) (c : Copy) (x : Nat) : Byte :=
  match c.kept with
  | some k => (k.sp.get? x).getD (Config.freeByte k.seed x)
  | none => s.spRead c.team x

def State.copyInTeam (s : State) (c : Copy) (x : Nat) : Bool :=
  match c.kept with
  | some k => x < 65536 * k.n
  | none => (s.team c.team).inTeam x 1

/-- A source read waits for its watermarks and passes a broken one (14/R223). -/
def State.copyGated (s : State) (c : Copy) (x n : Nat) : Bool :=
  c.kept.isNone && storeGated (s.gates c.team) ((List.range n).map (x + ·))

def State.copySpBad (s : State) (c : Copy) (x n : Nat) : Bool :=
  match c.kept with
  | some k => k.bad.any fun w => 8 * w < x + n && x < 8 * w + 8
  | none => s.spBad c.team x n

/-- A translation for a copy (14/R224). -/
def State.copyTranslate (s : State) (core : Nat) (c : Copy) (a : Nat) (va : Word) (write : Bool) : Xlate × State :=
  let (x, s) := s.translate c.part core a (c.who va) write false
  (x.barFar c.reduced c.part, s)

/-- One source byte at an address or offset (14/R220, R223, R225). Of a gather's run that lies partly outside the team region the bytes
before the first one outside land (log 60). -/
def State.sourceByte (s : State) (core : Nat) (c : Copy) (a : Int) : Landing :=
  let va := BitVec.ofInt 64 a
  if c.spSrc then
    if a < 0 || !s.copyInTeam c a.toNat then .bad va c s
    else if s.copyGated c a.toNat 1 then .wait c s
    else if s.copySpBad c a.toNat 1 then .bad va c (s.logArray c.part a.toNat 5 0xFF 2 (c.who 0))
    else .byte (s.copySp c a.toNat) c s
  else if a < 0 || 2 ^ 52 ≤ a then .bad va c s
  else match s.copyTranslate core c a.toNat va false with
    | (.replay, s) => if c.steward then .bad va c s else .replay va c s
    | (.wait, s) => .wait c s
    | (.bad, s) => .bad va c s
    | (.ok h _, s) => match h with
      | .window o =>
        if o < 0x1000 then .bad va c s
        else if (s.part c.part).gatedAt o then .wait c s
        else .byte ((s.part c.part).windowByte o) c s
      | .log o => .byte ((s.part c.part).logByte o) c s
      | .signal _ | .device _ => .bad va c s
      | h => (match c.lineByte a.toNat with
        | some b => .byte b c s
        | none => s.sourceGranule c a.toNat h)

/-- An FP6 element widened (12/R189, 16/R256). -/
def widen6 (wid x : Nat) : Byte :=
  BitVec.ofNat 8 (if wid = 1 then (fmtE5m2.write .convert .rne false (fmtE3m2.read false x)).bits
    else (fmtE4m3.write .convert .rne false (fmtE2m3.read false x)).bits)

/-- The source address of a run; a gather reads its list entry once (16/R258). -/
def State.runStart (s : State) (c : Copy) (r : Nat) : Sum Landing (Int × Copy) :=
  if c.kind ≠ .cpg then .inr (c.runSrc r, c)
  else match c.run with
    | some (r', a) => if r' = r then .inr (a, c) else .inl (.wait { c with run := none } s)
    | none =>
      let w := listWidth c.lty
      let o := c.list + r * w
      if s.copyGated c o w then .inl (.wait c s)
      else if s.copySpBad c o w then .inl (.bad (BitVec.ofNat 64 o) c (s.logArray c.part o 5 0xFF 2 (c.who 0)))
      else
        let x := numOf ((List.range w).map fun j => s.copySp c (o + j))
        let x : Int := if c.lty == .i32 then signedOf 32 x else x
        let a := c.src + x * ((c.dims.head?).map (·.s)).getD 0
        .inr (a, { c with run := some (r, a) })

/-- Byte k of what a copy lands. -/
def State.copyByte (s : State) (core : Nat) (c : Copy) (k : Nat) : Landing :=
  let from_ := if c.kind = .cpm then 0 else c.total - c.data.length
  match (if from_ ≤ k then c.data[k - from_]? else none) with
  | some b => .byte b c s
  | none =>
    match s.runStart c (k / c.n0) with
    | .inl r => r
    | .inr (a, c) =>
      let b := k % c.n0
      if c.wid = 0 then s.sourceByte core c (a + b)
      else match s.sourceByte core c (a + (6 * b / 8 : Nat)) with
        | .byte lo c s => (match s.sourceByte core c (a + ((6 * b + 5) / 8 : Nat)) with
          | .byte hi c s => .byte (widen6 c.wid ((lo.toNat + (if 6 * b / 8 = (6 * b + 5) / 8 then 0 else 256 * hi.toNat))
              / 2 ^ (6 * b % 8) % 64)) c s
          | r => r)
        | r => r

/-- Whether two copies land in one place: the same team region, one cohort region at one position, or, from one core,
global memory. -/
def sameRegion (x : Copy) (y : Copy) (pos : Nat) : Bool :=
  (x.global && y.global) || (!x.global && !y.global &&
    if y.dst < cohortBase then x.dst < cohortBase && x.team == y.team
     else cohortBase ≤ x.dst && x.cohort == y.cohort && (if x.kind = .cpm then x.mask.getLsbD pos else x.pos == pos))

/-- The lowest and highest byte that two copies both land. -/
def overlapOf (x y : Copy) : Option (Int × Int) :=
  let runsOf (c : Copy) : List (Int × Int) :=
    if c.kind = .drain then [(c.dst, c.dst + c.data.length)] else (List.range c.runs).map fun r => (c.runDst r, c.runDst r + c.n0)
  ((runsOf x).flatMap fun a => (runsOf y).filterMap fun b =>
    let lo := max a.1 b.1
    let hi := min a.2 b.2
    if lo < hi then some (lo, hi - 1) else none).foldl (fun acc o => match acc with
      | none => some o
      | some p => some (min p.1 o.1, max p.2 o.2)) none

/-- A destination byte waits for an earlier copy still landing (14/R224). -/
def State.landBlocked (s : State) (core : Nat) (y : Copy) (pos : Nat) (t : Int) : Bool :=
  s.copies.any fun p =>
    let x := p.2
    x.order < y.order && (p.1 == core || !y.global) && sameRegion x y pos && (match overlapOf x y with
      | some (lo, hi) =>
        let landed := if x.kind = .cpm then x.fronts.get pos 0 else x.landed
        lo ≤ t && x.markAt landed ≤ hi
      | none => false)

/-- A byte written to a cohort's scratchpad at a position. -/
def State.cohortByte (s : State) (k pos : Nat) (x : Nat) (b : Byte) : State :=
  s.modCohort k fun c => { c with sp := c.sp.set pos ((c.sp.get pos []).set x b) }

/-- Byte k of a copy lands in scratchpad at a position; with the last byte of a word that the copy has written whole, the word's error
is gone (26/R390). -/
def State.landScratch (s : State) (c : Copy) (pos k x : Nat) (b : Byte) : State :=
  let team := if cohortBase ≤ x then (s.cohort c.cohort).teams.get? pos else some c.team
  let s := if cohortBase ≤ x then s.cohortByte c.cohort pos x b else s.spWrite c.team x b
  let whole := x % 8 == 7 && 7 ≤ k && (List.range 8).all fun j => c.dstAt (k - j) == (x : Int) - j
  match team, whole with
  | some t, true => s.spHeal t (· == x / 8)
  | _, _ => s

/-- Bytes of one 64 B granule land in global memory together (16/R257, 18/R280, 21/R328). -/
def State.landRun (s : State) (core : Nat) (c : Copy) (a : Nat) (bs : List Byte) : Landing :=
  let va := BitVec.ofNat 64 a
  let n := bs.length
  match s.copyTranslate core c a va true with
  | (.replay, s) => if c.steward then .bad va c s else .replay va c s
  | (.wait, s) => .wait c s
  | (.bad, s) => .bad va c s
  | (.ok h _, s) => match h with
    | .ram la =>
      if !s.reaches c.part la n then .bad va c (s.refuse la)
      else if s.bankBusy la then .wait c s
      else .done n c (s.writeRuns la (c.who va) [(0, bs)])
    | .window o =>
      if o < 0x1000 || ((s.part c.part).ringAt o).isSome then .bad va c s
      else .done n c (s.modPart c.part fun p => { p with ring := bs.zipIdx.foldl (fun m b => m.set (o + b.2) b.1) p.ring })
    | .comb la => .done n c { s with outbox := s.outbox ++ [.deviceWrite 0 0 (linkOf la) (s.busAddr la) bs] }
    | .remote m la => s.copyAsk c true n va true (fun q => .remote c.sender q (s.portsTo m) m la (.write [(0, bs)]))
    | _ => .bad va c s

/-- How many bytes land together: one in scratchpad; in global memory what a run has left in a granule. -/
def Copy.unit (c : Copy) : Nat :=
  if c.global then min (64 - (c.dstAt c.landed).toNat % 64) (c.n0 - c.landed % c.n0) else 1

/-- Source bytes from byte k on, at most n of them: those read, the copy and the state before the first that is not, and what
it met. -/
def State.copyBytes (core : Nat) : Nat → Nat → List Byte → Copy → State → List Byte × Copy × State × Option Landing
  | 0, _, bs, c, s => (bs, c, s, none)
  | n + 1, k, bs, c, s => match s.copyByte core c k with
    | .byte b c s => State.copyBytes core n (k + 1) (bs ++ [b]) c s
    | r => (bs, c, s, some r)

/-- The next bytes into global memory, n of them. Those before one that faults, or whose source is gated, land before it is met; one that
has asked another module is waited for. -/
def State.landGlobal (s : State) (core : Nat) (c : Copy) (a n : Nat) : Landing :=
  match State.copyBytes core n c.landed [] c s with
  | ([], _, _, some r) => r
  | (bs, c, s, some (.wait c' s')) => if c'.ask.isSome then .wait c' s' else s.landRun core c a bs
  | (bs, c, s, _) => s.landRun core c a bs

/-- The answer to a copy's request, if it waits for one: a write's acknowledgment counts its bytes as landed. -/
def State.copyAnswer (s : State) (c : Copy) : Option Landing :=
  c.ask.map fun a => match a.answer with
    | none => if a.due ≠ 0 && a.due ≤ s.time then .bad a.va { c with ask := none } s else .wait c s
    | some (false, _) => .bad a.va { c with ask := none } s
    | some (true, bs) =>
      if a.write then .done a.n { c with ask := none } s
      else .byte 0 (({ c with ask := none } : Copy).keepLine a.va.toNat bs) s

/-- The next bytes of a copy that is no multicast: `done` when they have landed. They end before a byte that an earlier copy has still
to land (14/R224). -/
def State.landNext (s : State) (core : Nat) (c : Copy) : Landing :=
  let t := c.dstAt c.landed
  let go (c : Copy) (s : State) : Landing :=
    let n := ((List.range c.unit).takeWhile fun (k : Nat) => !s.landBlocked core c c.pos (t + k)).length
    if n = 0 then .wait c s
    else if c.global then s.landGlobal core c t.toNat n
    else match s.copyByte core c c.landed with
      | .byte b c s => .done 1 c (s.landScratch c c.pos c.landed t.toNat b)
      | r => r
  match s.copyAnswer c with
  | none => go c s
  | some (.byte _ c s) => go c s
  | some r => r

/-- A source address of a gather that could not be checked at issue (16/R258): the exact address that `va` is in the copy's run. -/
def State.strayed (s : State) (c : Copy) (va : Word) : Bool :=
  c.kind == .cpg && match c.run with
    | none => false
    | some (_, a) =>
      let b : Nat := (va - BitVec.ofInt 64 a).toNat
      let x := a + b
      b < c.runBytes && (x < 0 || (if c.spSrc then !s.copyInTeam c x.toNat else 2 ^ 52 ≤ x))

/-- An unrecoverable fault of a copy (14/R225, R227). Where a gather's computed address breaks a watermark, a report carries it
(16/R258; log 60). -/
def State.breakCopy (s : State) (core id : Nat) (c : Copy) (va : Word) : State :=
  let s := if c.wm.isSome && s.strayed c va then s.notify c.part 0x44 va { c.ident with tlm := 0x40 } else s
  let s := s.markCopy c 0 3
  let s := match c.batch with
    | some k => s.modBatch c.gid k fun b => { b with failed := b.failed.or (some va) }
    | none => s
  s.endCopy core id c

/-- A replayable fault of a copy: it freezes, with a fault-buffer entry if one is free (14/R225, 08/R146). -/
def State.freezeCopy (s : State) (core id : Nat) (c : Copy) (va : Word) (entry : Option Nat) : State :=
  let used := (s.core core).fbuf
  let e := (entry.or ((List.range 64).find? fun e => (used.get? e).isNone)).getD 64
  let s := if e < 64 then s.modCore core fun k => { k with fbuf := k.fbuf.set e (.copy id, va) } else s
  let landed := if c.kind = .cpm then c.lowest else c.landed
  let s := (s.putCopy core id { c with frozen := some e }).markCopy c landed 2
  s.notify c.part 0x44 va { c.ident with tlm := e }

/-- Some byte of a copy has landed. -/
def Copy.begun (c : Copy) : Bool := 0 < c.landed || !c.fronts.isEmpty

/-- The copies of a core begin landing in the order in which they issued (14/R220). -/
def State.mayLand (s : State) (core : Nat) (c : Copy) : Bool :=
  c.begun || (s.core core).copies.all fun x => c.order ≤ x.2.order || x.2.begun

/-- Up to n bytes of a copy land; the first argument bounds the number of units. -/
def State.landN (core id : Nat) : Nat → Nat → Copy → State → State
  | 0, _, c, s => s.putCopy core id c
  | k + 1, n, c, s =>
    if c.total ≤ c.landed then s.endCopy core id c
    else if n < c.unit then s.putCopy core id c
    else match s.landNext core c with
      | .done m c s =>
        let c := { c with landed := c.landed + m }
        let s := s.markCopy c c.landed (if c.total ≤ c.landed then 4 else 1)
        if c.total ≤ c.landed then s.endCopy core id c else State.landN core id k (n - m) c s
      | .byte _ c s | .wait c s => s.putCopy core id c
      | .replay va c s => s.freezeCopy core id c va none
      | .bad va c s => s.breakCopy core id c va

/-- A copy frozen without an entry tries again once one is free (08/R146). -/
def State.thawed (s : State) (core : Nat) (c : Copy) : Bool :=
  match c.frozen with
  | none => true
  | some e => 64 ≤ e && (s.core core).fbuf.length < 64

/-- Up to n bytes of copy `id` of a core land (14/R221, R222). -/
def execCopyLand (c id n : Nat) (s : State) : Host.Outcome State Fault Refusal :=
  .next (match (s.core c).copies.get? id with
    | some x =>
      if x.kind = .cpm || !s.thawed c x || !s.mayLand c x then s
      else State.landN c id n n { x with frozen := none } (if x.frozen.isSome then s.markCopy x x.landed 1 else s)
    | none => s)

/-- A line of 128 B whose last byte has landed (14/R230). -/
def State.setLine (s : State) (c : Copy) (pos : Nat) (t : Nat) : State :=
  if (t + 1) % 128 ≠ 0 then s
  else
    let s := s.modCohort c.cohort fun k => { k with lines := k.lines.set pos (t / 128 :: k.lines.get pos []) }
    match (s.cohort c.cohort).teams.get? pos with
    | some u => if (s.teams.get? u).isSome then s.followLines u else s
    | none => s

/-- Up to n bytes of a multicast land at a position (14/R229). The source is read once. -/
def State.castN (core id pos : Nat) (c : Copy) : Nat → State → State
  | 0, s => s.putCopy core id c
  | n + 1, s =>
    let k := c.fronts.get pos 0
    let t := c.dstAt k
    if c.total ≤ k then s.putCopy core id c
    else if s.landBlocked core c pos t then s.putCopy core id c
    else
      let go (c : Copy) (s : State) : State :=
        match s.copyByte core c k with
        | .byte b c s =>
          let c := { c with fronts := c.fronts.set pos (k + 1), data := if k < c.data.length then c.data else c.data ++ [b] }
          let s := (s.landScratch c pos k t.toNat b).setLine c pos t.toNat
          let s := s.markCopy c c.lowest (if c.total ≤ c.lowest then 4 else 1)
          if c.total ≤ c.lowest then s.endCopy core id c else State.castN core id pos c n s
        | .done _ c s | .wait c s => s.putCopy core id c
        | .replay va c s => s.freezeCopy core id c va none
        | .bad va c s => s.breakCopy core id c va
      match s.copyAnswer c with
      | none => go c s
      | some (.byte _ c s) => go c s
      | some (.bad va c s) => s.breakCopy core id c va
      | some _ => s.putCopy core id c

/-- Up to n bytes of multicast `id` land at a masked position. -/
def execMulticastLand (c id pos n : Nat) (s : State) : Host.Outcome State Fault Refusal :=
  .next (match (s.core c).copies.get? id with
    | some x =>
      if x.kind ≠ .cpm || !x.mask.getLsbD pos || !s.thawed c x || !s.mayLand c x then s
      else State.castN c id pos { x with frozen := none } n (if x.frozen.isSome then s.markCopy x x.lowest 1 else s)
    | none => s)

/-! ### Watermarks (16/R263, R264) -/

/-- A field of a watermark read. -/
def wmRead (i : Instr) (s : State) (field : Watermark → Nat) : Host.Outcome State Fault Refusal :=
  run i s fun _ f => .ok (s.setScalar f.d (BitVec.ofNat 64 (field (s.myTeam.wm f.a.toNat))))

/-- `wmrd.mark` (16/R263). -/
def execWmrdMark (f : Form) (s : State) : Host.Outcome State Fault Refusal := wmRead (.wmrdMark f) s (·.mark)
/-- `wmrd.state` (14/R222, 16/R263). -/
def execWmrdState (f : Form) (s : State) : Host.Outcome State Fault Refusal :=
  wmRead (.wmrdState f) s fun w => w.st + 128 * w.listen.toNat
/-- `wmrd.base` (16/R263). -/
def execWmrdBase (f : Form) (s : State) : Host.Outcome State Fault Refusal := wmRead (.wmrdBase f) s (·.base)
/-- `wmrd.limit` (16/R263). -/
def execWmrdLimit (f : Form) (s : State) : Host.Outcome State Fault Refusal := wmRead (.wmrdLimit f) s (·.limit)

/-- `wmcfg` (14/R230, 16/R264). A listening watermark ranks among those that gate a byte by its `wmcfg` (14/R223; log 60). -/
def execWmcfg (f : Form) (s : State) : Host.Outcome State Fault Refusal :=
  run (.wmcfg f) s fun _ f =>
    let i := Instr.wmcfg f
    let x := (s.me.scalar f.a).toNat
    let y := (s.me.scalar f.b).toNat
    let n := f.d.toNat
    let busy := !(s.myTeam.wm n).free
    let put (w : Watermark) : State := s.modTeam s.me.team fun t => { t with wms := t.wms.set n w }
    if x = y then (if busy then .error (.wait .copyMark) else .ok (put {}))
    else if y < x then .error (illegal i s.me)
    else if x % 128 ≠ 0 then .error (misaligned i s.me (BitVec.ofNat 64 x))
    else if y % 128 ≠ 0 then .error (misaligned i s.me (BitVec.ofNat 64 y))
    else if !s.myTeam.inCohort x (y - x) then .error (badAddress i s.me (BitVec.ofNat 64 x))
    else if busy then .error (.wait .copyMark)
    else
      let s := put { base := x, limit := y, mark := x, st := 1, listen := true, order := s.order }
      .ok ({ s with order := s.order + 1 }.followLines s.me.team)

/-! ### The fault buffer (08/R146, 27/R398) -/

/-- The access writes. -/
def accessWrites (i : Instr) : Bool :=
  match i with
  | .ld _ | .lds _ | .nbld _ | .nbfma _ | .nbdot _ => false
  | _ => true

/-- The access of a parked group writes. -/
def Parked.writes (p : Parked) : Bool := p.ins.any accessWrites

/-- What an access finds at an address on its replay, with the translation that the access keeps. -/
def State.stillFaults (s : State) (core : Nat) (va : Word) (write : Bool) : Xlate × Option (Word × Home × Bool) × State :=
  match s.translate (corePart core) core va.toNat { va, source := 7 } write false with
  | (.ok h sc, s) => (.ok h sc, some (va, h, sc), s)
  | (x, s) => (x, none, s)

/-- The walk for an address waits for a bank that holds a table (26/R383). -/
def State.xlateWaits (s : State) (core : Nat) (va : Word) (write : Bool) : Bool :=
  (s.translate (corePart core) core va.toNat { va, source := 7 } write false).1 = .wait

/-- The replay of a fault-buffer entry waits for a walk. -/
def State.replayWaits (s : State) (core e : Nat) : Bool :=
  match (s.core core).fbuf.get? e with
  | none => false
  | some (o, va) => s.xlateWaits core va (match o with
    | .group g => (s.group g).parked.any Parked.writes
    | .copy _ => false)

/-- The meanings of the instructions whose access may park (08/R145). -/
def accessMeaning (i : Instr) : Option (State → Host.Outcome State Fault Refusal) :=
  match i with
  | .ld f => some (execLd f)
  | .st f => some (execSt f)
  | .lds f => some (execLds f)
  | .atomAdd f => some (execAtomAdd f)
  | .atomMin f => some (execAtomMin f)
  | .atomMax f => some (execAtomMax f)
  | .atomAnd f => some (execAtomAnd f)
  | .atomOr f => some (execAtomOr f)
  | .atomXor f => some (execAtomXor f)
  | .atomExch f => some (execAtomExch f)
  | .atomCas f => some (execAtomCas f)
  | .xsum f => some (execXsum f)
  | .xrd f => some (execXrd f)
  | .xrdClr f => some (execXrdClr f)
  | .nbld f => some (execNbld f)
  | .nbfma f => some (execNbfma f)
  | .nbdot f => some (execNbdot f)
  | .nbst f => some (execNbst f)
  | _ => none

/-- The group of the turn, parked, makes its access with the translation found; it is a window's instruction that has issued ahead of its
commit, or the next one of the group (08/R145, R146). Loads of the window behind it read again (log 1). An access that keeps the rules of
reduced service keeps them over its other parts (28/R414). -/
def State.finishAccess (s : State) (p : Parked) (found : Option (Word × Home × Bool)) : State :=
  let g := { s.me with status := .running, parked := none }
  if !g.win.isEmpty then
    { s with me := { g with win := g.win.zipIdx.map fun w =>
        if w.2 = p.pos then { w.1 with found }
        else if p.pos < w.2 && w.1.early.isSome then { w.1 with early := none, done := false } else w.1 } }
  else
    let s := { s with me := { g with granted := found } }
    match p.ins.bind accessMeaning with
    | none => s
    | some run => match s.asReduced p.reduced run with
      | .next s => { s with me := { s.me with parked := s.me.parked.map fun q => { q with reduced := p.reduced } } }
      | _ => s

/-- The access of a parked group completes, and the group enters the pending set (08/R146); it parks again where a further part
of the access faults. -/
def State.resumeAccess (s : State) (g : Nat) (p : Parked) (found : Option (Word × Home × Bool)) : State :=
  let core := (s.group g).core
  (s.asGroup g fun s => s.finishAccess p found).fill core

/-- A group with the pc of its parked access. -/
def Group.parkedAt (g : Group) (p : Parked) : Group := { g with pc := ((g.win[p.pos]?).map (·.pc)).getD g.pc }

/-- The trap of a parked access that the steward has declared unrecoverable, once every earlier instruction has committed
(08/R126, R146). -/
def State.condemned (s : State) (g : Nat) (p : Parked) : State :=
  if p.pos = 0 then
    let trap (s : State) : State :=
      let s : State := { s with me := { s.me.parkedAt p with parked := none, status := .running } }
      (if p.ins.isSome && (s.group g).win.isEmpty then s.counted else s).takeTrap s.meId p.trap
    (s.asGroup g trap).fill (s.group g).core
  else s.modGroup g fun x => { x with parked := some { p with entry := none, doomed := true } }

/-- Replay of an entry: it is kept, with a new report, where the fault persists. -/
def State.replayEntry (s : State) (core e : Nat) (o : FbOwner) (va : Word) : State :=
  match o with
  | .group g => match (s.group g).parked with
    | none => s.freeEntry core e
    | some p => match s.stillFaults core va p.writes with
      | (.replay, _, s) => s.reportPark ((s.group g).parkedAt p) p.trap va e
      | (x, found, s) =>
        let s := s.freeEntry core e
        if x.barFar p.reduced (corePart core) ≠ x then s.condemned g p else s.resumeAccess g p found
  | .copy id => match (s.core core).copies.get? id with
    | none => s.freeEntry core e
    | some c => match s.stillFaults core va false with
      | (.replay, _, s) => s.notify c.part 0x44 va { c.ident with tlm := e }
      | (_, _, s) =>
        let landed := if c.kind = .cpm then c.lowest else c.landed
        ((s.freeEntry core e).putCopy core id { c with frozen := none }).markCopy c landed 1

/-- An entry declared unrecoverable. -/
def State.condemnEntry (s : State) (core e : Nat) (o : FbOwner) (va : Word) : State :=
  let s := s.freeEntry core e
  match o with
  | .group g => match (s.group g).parked with
    | some p => s.condemned g p
    | none => s
  | .copy id => match (s.core core).copies.get? id with
    | some c => s.breakCopy core id c va
    | none => s

/-- `fbsvc` (27/R398). -/
def execFbsvc (f : Form) (s : State) : Host.Outcome State Fault Refusal :=
  let bad (f : Form) : Bool :=
    let v := (s.me.scalar f.a).toNat
    v / 2 ^ 22 ≠ 0 || 2 ≤ v / 2 ^ 20 % 4 || v / 2 ^ 6 % 4 ≠ 0
  runIf (.fbsvc f) s (fun _ f => bad f) fun _ f =>
    let v := (s.me.scalar f.a).toNat
    let core := v / 2 ^ 8 % 2 ^ 12
    let e := v % 64
    if v / 2 ^ 20 % 4 = 0 && coreCount > core && corePart core == s.myPart && s.replayWaits core e then .error (.wait .register)
    else (s.me.returned true).map fun _ =>
    let s := s.drainWc s.meId
    let r : Nat × State :=
      if coreCount ≤ core || corePart core ≠ s.myPart then (2, s)
      else match (s.core core).fbuf.get? e with
        | none => (1, s)
        | some (o, va) =>
          (0, if v / 2 ^ 20 % 4 = 0 then s.replayEntry core e o va else s.condemnEntry core e o va)
    (r.2.setScalar f.d (BitVec.ofNat 64 r.1))

/-- The group in `subject`, parked without an entry, makes its access again once an entry is free (08/R146). -/
def execAccessRestart (s : State) : Host.Outcome State Fault Refusal :=
  let g := s.subject
  let x := s.group g
  .next (match x.status, x.parked with
    | .parked, some p =>
      if p.entry.isSome || p.doomed then s
      else match (List.range 64).find? fun e => ((s.core x.core).fbuf.get? e).isNone with
      | none => s
      | some e =>
        let va := p.va
        if s.xlateWaits x.core va p.writes then s
        else match s.stillFaults x.core va p.writes with
        | (.replay, _, s) =>
          let s := (s.modCore x.core fun k => { k with fbuf := k.fbuf.set e (.group g, va) }).setGroup g
            { x with parked := some { p with entry := some e } }
          s.reportPark (x.parkedAt p) p.trap va e
        | (y, found, s) => if y.barFar p.reduced (corePart x.core) ≠ y then s.condemned g p else s.resumeAccess g p found
    | _, _ => s)

end Sys2Proof.Machine
end

