-- ==== Sys2Proof/Machine/Frames.lean ====
section
/-!
DEFINITION. Context frames (09/R152-R157, 10/R171, R173): their bytes, the steps `groupFrameWrite`, `teamSectionsWrite` and
`restorePlacement`, and the conditions of a placement (02/R25, 21/R334, 23/R353, R358) that a restore shares.
-/

namespace Sys2Proof.Machine

open Sys2Proof

/-! ### Bytes -/

/-- n bytes from fields (offset, size, value); bytes not listed are 0. -/
def fieldBytes (n : Nat) (fs : List (Nat × Nat × Nat)) : List Byte :=
  (List.range n).map fun k => match fs.find? fun f => f.1 ≤ k && k < f.1 + f.2.1 with
    | some f => BitVec.ofNat 8 (digit 8 f.2.2 (k - f.1))
    | none => 0

/-- A list filled with zero bytes up to n. -/
def padTo (n : Nat) (bs : List Byte) : List Byte := bs ++ List.replicate (n - bs.length) 0

/-- The 32 bytes of a reconvergence-stack entry (02/R19). -/
def REntry.bytes (e : REntry) : List Byte :=
  bytesOf (e.join.toNat / 4 * 2 ^ 206 + e.resume.toNat / 4 * 2 ^ 156 + e.pmask.toNat * 2 ^ 124 + e.emd.toNat * 2 ^ 92
    + e.fmc.toNat * 2 ^ 60 + e.ldep % 8 * 2 ^ 57 + e.phase.toNat * 2 ^ 56) 32

def REntry.ofBytes (bs : List Byte) : REntry :=
  let v := numOf (bs.take 32)
  { join := BitVec.ofNat 52 (v / 2 ^ 206 % 2 ^ 50 * 4), resume := BitVec.ofNat 52 (v / 2 ^ 156 % 2 ^ 50 * 4)
    pmask := BitVec.ofNat 32 (v / 2 ^ 124), emd := BitVec.ofNat 32 (v / 2 ^ 92), fmc := BitVec.ofNat 32 (v / 2 ^ 60)
    ldep := v / 2 ^ 57 % 8, phase := v.testBit 56 }

/-- The 16 bytes of a loop-stack entry (02/R21). -/
def LEntry.bytes (e : LEntry) : List Byte := bytesOf (e.head.toNat / 4 * 2 ^ 78 + e.count.toNat) 16

def LEntry.ofBytes (bs : List Byte) : LEntry :=
  let v := numOf (bs.take 16)
  { head := BitVec.ofNat 52 (v / 2 ^ 78 % 2 ^ 50 * 4), count := BitVec.ofNat 32 v }

/-- A stack of the state, top first, as a frame holds it, bottom first. -/
def rstackBytes (n : Nat) (es : List REntry) : List Byte := padTo (32 * n) (es.reverse.flatMap REntry.bytes)
def lstackBytes (n : Nat) (es : List LEntry) : List Byte := padTo (16 * n) (es.reverse.flatMap LEntry.bytes)

/-- The first n entries of w bytes each. -/
def entriesAt {α : Type} (w : Nat) (f : List Byte → α) (bs : List Byte) (n : Nat) : List α :=
  (List.range n).map fun k => f ((bs.drop (w * k)).take w)

/-- The next 64 B boundary. -/
def align64 (n : Nat) : Nat := (n + 63) / 64 * 64

/-- Sections laid out after the header in index order: (index, offset, length) and the bytes (09/R156). -/
def layout (secs : Map (List Byte)) : List (Nat × Nat × Nat) × List Byte :=
  secs.foldl (fun acc x =>
    let body := padTo (align64 acc.2.length) acc.2
    (acc.1 ++ [(x.1, 512 + body.length, x.2.length)], body ++ x.2)) ([], [])

/-- A frame from the fields of its header and its sections (09/R155). -/
def frameOf (fs : List (Nat × Nat × Nat)) (secs : Map (List Byte)) : List Byte :=
  let l := layout secs
  let dir := l.1.flatMap fun d => [(0xA0 + 8 * d.1, 4, d.2.1), (0xA4 + 8 * d.1, 4, d.2.2)]
  fieldBytes 512 ([(0, 4, 1), (0x20, 4, 512 + l.2.length)] ++ fs ++ dir) ++ l.2

/-- The address of a group's frame (10/R171). -/
def frameAddr (base i : Nat) : Nat := if i = 0 then base else base + 0x40_0000 + (i - 1) * 0x2_0000

/-! ### What a frame holds -/

/-- The stacks of the main code (08/R138). -/
def Group.mainStacks (g : Group) : List REntry × List LEntry := if g.depth then (g.setR, g.setL) else (g.rstack, g.lstack)

/-- A register at `ln` that is no queue register. -/
def Group.plain (g : Group) (n : Nat) : Bool := mapPlace (g.entry n) == 0 && mapQKind (g.entry n) == 0 && (g.localHead n).isNone

/-- The value of a register of block H, at its place (08/R139). -/
def State.savedReg (s : State) (g : Group) (r : Relief) (j : Nat) : VReg :=
  let e := r.map.getD j 0
  match mapPlace e with
  | 1 => s.slotReg g.team (mapSlot e)
  | 2 => s.bankReg (corePart g.core) (bankOf e).1 (bankOf e).2
  | _ => r.regs.getD j .fresh

/-- One queue end in the QUEUES section. -/
def queueBytes (n : Nat) (e : BitVec 32) (vs : List VReg) : List Byte :=
  ([n, mapQKind e, mapQNum e, mapQDepth e, vs.length, 0, 0, 0].map fun x => BitVec.ofNat 8 x) ++ vs.flatMap VReg.frameBytes

/-- The queue ends of a group with their contents in pop order (09/R154). Ends that hold nothing are written with COUNT 0, also
where all are empty (log 55). -/
def State.queueSection (s : State) (g : Group) : List Byte :=
  (List.range 128).flatMap fun n =>
    let e := g.entry n
    match mapQKind e with
    | 0 => []
    | 1 => queueBytes n e (g.lqueues.get n [])
    | _ => queueBytes n e (s.culvert (culvertOf g.core e)).entries

/-- The TRAP section. Without a block H its eight registers are free values. -/
def State.trapSection (s : State) (g : Group) (full : Bool) : List Byte :=
  let h := match g.relief with | some r => r.block | none => 0xFF
  let saved := match g.relief with
    | some r => ((List.range 8).flatMap fun j => (s.savedReg g r j).frameBytes)
        ++ (List.range 8).flatMap fun j => bytesOf (r.map.getD j 0).toNat 4
    | none => (List.range 1120).map fun k => Config.freeByte s.free k
  ([g.tvec, g.tcause, g.tepc, g.tval, g.tlm].flatMap fun x => bytesOf x.toNat 8) ++ [BitVec.ofNat 8 h]
    ++ List.replicate 7 0
    ++ (if g.depth then rstackBytes 8 g.rstack ++ lstackBytes 2 g.lstack ++ (if full then saved else []) else [])

/-- Registers of a group at a place. -/
def Group.numsAt (g : Group) (pl : Nat) : List Nat := (List.range 128).filter fun n => mapPlace (g.entry n) == pl

/-- Sections 0 to 9 of a group's frame (09/R156). -/
def State.groupSections (s : State) (g : Nat) (full : Bool) (live : BitVec 16) : Map (List Byte) :=
  let x := s.group g
  let t := s.turn g
  let st := x.mainStacks
  let places (pl : Nat) : List Byte := (x.numsAt pl).flatMap fun n => (t.vreg n).frameBytes
  let blocks : List Byte := ((List.range 128).filter fun n => live.getLsbD (n / 8)).flatMap fun n =>
    if x.plain n then (x.regs.get n .fresh).frameBytes else List.replicate 136 0
  let queues := s.queueSection x
  let base : Map (List Byte) :=
    [(0, (List.range 64).flatMap fun n => bytesOf (x.sregs.get n 0).toNat 8)
    , (1, (List.range 128).flatMap fun n => bytesOf (x.entry n).toNat 4)
    , (2, rstackBytes 32 st.1)
    , (3, lstackBytes 4 st.2)
    , (4, ((List.range 8).flatMap fun n => (x.ofile.get n .fresh).frameBytes) ++ x.lr.frameBytes)]
  let extra : Map (List Byte) := if full then [(5, blocks), (6, places 1), (7, places 2), (8, queues)] else []
  base ++ (extra.filter fun e => !e.2.isEmpty) ++ [(9, s.trapSection x full)]

/-- Bit k of a number of n bits. -/
def bitsNat (n : Nat) (f : Nat → Bool) : Nat := packNat 1 (fun k => (f k).toNat) n

/-- Header fields of a group's frame (09/R155). -/
def State.groupHeader (s : State) (x : Group) (full : Bool) : List (Nat × Nat × Nat) :=
  let t := s.team x.team
  let (cause, live) := x.stopAt.getD (0, x.held)
  let st := x.mainStacks
  [(0x04, 1, if full then 2 else 1), (0x05, 1, cause), (0x06, 1, x.index), (0x07, 1, x.depth.toNat), (0x08, 4, t.index)
  , (0x0C, 2, live.toNat), (0x0E, 2, x.held.toNat), (0x10, 8, x.pc.toNat), (0x18, 8, t.launch), (0x24, 1, st.1.length)
  , (0x25, 1, st.2.length), (0x26, 1, if x.depth then x.rstack.length else 0), (0x27, 1, if x.depth then x.lstack.length else 0)
  , (0x28, 4, x.em.toNat), (0x2C, 4, x.tem.toNat), (0x30, 4, x.fm.toNat), (0x34, 4, x.ff.toNat)
  , (0x38, 2, bitsNat 16 fun n => (x.sealedAs n).any fun b => b.2.incomplete), (0x3A, 1, roleCode x.role)
  , (0x3B, 1, x.nprt.toNat), (0x3D, 1, x.nextb % 16)]
  ++ ((List.range 8).map fun n => (0x40 + 4 * n, 4, (x.pred n).toNat))
  ++ ((List.range 16).map fun n => (0x60 + n, 1, (x.ctr n).count))
  ++ (List.range 16).map fun n => (0x80 + 2 * n, 2, (x.cb.get n 0).toNat)

/-- Header fields of the frame of a group that had exited: no others are written (log 54). -/
def exitedHeader (t : Team) (i : Nat) (full : Bool) : List (Nat × Nat × Nat) :=
  [(0x04, 1, if full then 2 else 1), (0x06, 1, i), (0x08, 4, t.index), (0x18, 8, t.launch), (0x3C, 1, 1)]

/-! ### Team sections (09/R156) -/

/-- The step count of an accumulator since its last promotion. -/
def Team.accStep (t : Team) (a : Nat) : Nat := (t.acc (t.accKey a)).n

/-- The 24 KiB of an accumulator; an FP64 pair's elements fill its two halves in order (log 25). -/
def Team.accSection (t : Team) (a : Nat) : List Byte :=
  let x := t.acc (t.accKey a)
  let w := if x.mode = 1 then 8 else 4
  let from_ := if x.mode = 1 && a % 2 = 1 then cellCount / 2 else 0
  (List.range (24576 / w)).flatMap fun j => bytesOf (cellAt x.cells (from_ + j) 0) w

def Team.countSection (t : Team) (j : Nat) : List Byte :=
  (List.range cellCount).flatMap fun i => bytesOf ((((t.count j).cells[i]?).map BitVec.toNat).getD 0) 4

/-- Chains E, then O, of an accumulator. -/
def Accum.chainSection (x : Accum) : List Byte :=
  let w := if x.mode = 1 then 8 else 4
  let z := chainZero (if x.mode = 1 then 2 else 0)
  [x.even, x.odd].flatMap fun c => (List.range cellCount).flatMap fun i => bytesOf (cellAt c i z) w

/-- Accumulators whose chains section 13 holds: those with a pending interval, a pair's FP64 once at its even half. -/
def Team.pendingChains (t : Team) : List Nat := (List.range 8).filter fun a => (t.acc a).valid && t.accKey a == a && 0 < (t.acc a).n

def Team.acValid (t : Team) : Nat := bitsNat 12 fun a => if a < 8 then (t.acc a).valid else (t.count (a - 8)).valid

/-- Members of a team barrier, as a mask. -/
def maskNat (n : Nat) (xs : List Nat) : Nat := bitsNat n xs.contains

/-- TEAMSTATE. -/
def Team.stateSection (t : Team) : List Byte :=
  fieldBytes 512 (((List.range 8).flatMap fun i =>
      let w := t.wm i
      [(32 * i, 8, w.base), (32 * i + 8, 8, w.limit), (32 * i + 16, 8, w.mark), (32 * i + 24, 1, w.st + 128 * w.listen.toNat)])
    ++ ((List.range 4).flatMap fun i => [(0x100 + 8 * i, 1, (t.ring i).slots), (0x101 + 8 * i, 1, (t.ring i).phase.toNat)])
    ++ [(0x120, 1, t.gn.length)] ++ (t.gn.zipIdx.map fun m => (0x121 + m.2, 1, m.1))
    ++ ((List.range 4).map fun i => (0x128 + 4 * i, 4, (t.ag.get i 0).toNat))
    ++ [(0x138, 4, maskNat 32 t.bar.arrived), (0x13C, 4, t.bar.gen), (0x140, 2, t.acValid)
      , (0x142, 2, packNat 2 (fun a => (t.acc a).mode) 8), (0x148, 8, packNat 8 t.accStep 8)])

/-- Sections 10 to 13 of group 0's frame at a full pre-emption. -/
def State.teamSections (s : State) (t : Nat) : Map (List Byte) :=
  let x := s.team t
  let accs := (((List.range 8).filter fun a => (x.acc a).valid).flatMap x.accSection)
    ++ ((List.range 4).filter fun j => (x.count j).valid).flatMap x.countSection
  let chains := x.pendingChains.flatMap fun a => (x.acc a).chainSection
  let all : Map (List Byte) := [(10, x.stateSection), (11, accs), (12, s.spReadN t 0 (65536 * x.n)), (13, chains)]
  all.filter fun e => !e.2.isEmpty

/-! ### Writing (09/R153, R154) -/

/-- The bytes of the frame of group i of a team, with the team sections once the team stands still (`still`). -/
def State.frameBytes (s : State) (t i : Nat) (full still : Bool) : List Byte :=
  let x := s.team t
  let own : Map (List Byte) := if full && still && i = 0 then s.teamSections t else []
  match s.groups.find? fun g => g.2.team == t && g.2.index == i && g.2.status != .absent with
  | some (g, y) => frameOf (s.groupHeader y full) (s.groupSections g full (y.stopAt.getD (0, y.held)).2 ++ own)
  | none => frameOf (exitedHeader x i full) own

/-- A team as the maker of an access of the hardware. -/
def State.teamWho (s : State) (t : Nat) : Who :=
  let x := s.team t
  { va := 0, source := 7, team := x.index, slot := x.slot, launch := x.launch }

/-- The frame of group i is written. -/
def State.writeFrame (s : State) (t i : Nat) (full still : Bool) (base : Nat) : Hw Unit :=
  s.hwWrite (s.team t).part (s.team t).core (s.teamWho t) (frameAddr base i) (s.frameBytes t i full still)

/-- A pre-emption fails (09/R153, 10/R173). -/
def State.failPreempt (s : State) (t va : Nat) : State :=
  let x := s.team t
  let gs := s.groups.filter fun g => g.2.team == t && g.2.status == .preempted
  let s := s.modTeam t fun x => { x with preempt := none }
  let s := gs.foldl (fun s g => s.modGroup g.1 fun y => { y with status := .running, sched := .pending, stopAt := none }) s
  (s.setAway.fill x.core).notify x.part 0x4F (BitVec.ofNat 64 va) { team := x.index, launch := x.launch }

/-- Everything of a queue of the group has arrived (09/R154). -/
def State.queuesStill (s : State) (g : Group) : Bool :=
  (List.range 128).all fun n =>
    let k := culvertOf g.core (g.entry n)
    mapQKind (g.entry n) < 2
      || ((s.culvert k).flying.isEmpty && (s.culvert k).returns.all fun t => t ≤ s.cycles (culvertEnd k true))

/-- The frame of the stopped group in `subject` is written once its loads have landed (19/R306). -/
def execGroupFrameWrite (s : State) : Host.Outcome State Fault Refusal :=
  let g := s.subject
  let x := s.group g
  .next (match x.status, (s.team x.team).preempt with
    | .preempted, some q =>
      if q.written.contains x.index || !x.splits.isEmpty || (q.full && !s.queuesStill x) then s
      else
        let s := { s.drainWc g with free := s.free + 1 }
        match s.writeFrame x.team x.index q.full false q.addr with
        | .ok _ s =>
          (s.hwAsked.modTeam x.team fun t => { t with preempt := some { q with written := q.written ++ [x.index] } }).setAway
        | .fail va s => s.hwAsked.failPreempt x.team va
        | .wait s => { s with free := s.free - 1 }
    | _, _ => s)

/-- Copies into scratchpad of a team and multicasts to its position have landed, and its engine is idle (09/R153). -/
def State.teamStill (s : State) (t : Nat) : Bool :=
  let x := s.team t
  (s.copies.all fun c => !(c.2.team == t && !c.2.global)
      && !(c.2.kind == .cpm && c.2.cohort == x.cohort && c.2.mask.getLsbD x.pos))
    && x.engine.isEmpty

/-- Frames are written, group 0's with the team sections. -/
def State.writeFrames (t : Nat) (full : Bool) (base : Nat) : List Nat → State → Hw Unit
  | [], s => .ok () s
  | i :: rest, s => match s.writeFrame t i full true base with
    | .ok _ s => State.writeFrames t full base rest s
    | r => r

/-- What stays of a group that is out (09/R152). -/
def Group.outOf (g : Group) (full : Bool) : Group :=
  if full then
    { Group.vacant with status := .out, team := g.team, index := g.index, core := g.core, role := g.role, held := g.held
                        batch := g.batch, sealed := g.sealed, nextb := g.nextb }
  else { g with status := .out, stopAt := none, sched := .pending }

/-- A team that leaves by a full pre-emption keeps its record and nothing of what its core held, but for what an open interval of
the engine has that the frame does not (09/R156; log 34). -/
def Team.outOf (t : Team) : Team :=
  { t with wms := t.wms.update fun _ w => { w with base := 0, limit := 0, mark := 0, st := 0, listen := false }
           rings := [], gn := [], ag := [], accs := t.accs.update fun _ x => { kind := x.kind }
           counts := t.counts.update fun _ x => { pend := x.pend }, bar := {}, sp := [], spScale := [], claims := false }

/-- A pre-emption ends: its resources are freed (09/R152, R153). The entries of an out end leave with the frame (log 68). -/
def State.leaveCore (s : State) (t : Nat) (q : Preempt) : State :=
  let x := s.team t
  let gs := s.groups.filter fun g => g.2.team == t && g.2.status == .preempted
  let mine (c : Culvert) : Bool := (c.inTeam == t && !c.inGone) || (c.outTeam == t && !c.outGone)
  let s : State := if !q.full then s else s.keepSources t
  let s : State := if !q.full then s
    else { s with culverts := s.culverts.update fun _ c => if mine c then { c with entries := [] } else c,
                    spDamage := (s.spDamage.erase t).erase (scaleKey t) }
  let s := gs.foldl (fun s g => ((if q.full then s.releaseGroup g.1 else s).modGroup g.1 fun _ => g.2.outOf q.full)) s
  let s := s.modTeam t fun x =>
    { (if q.full then x.outOf else x) with preempt := none, state := .out, light := !q.full, frame := q.addr }
  s.setAway.notify x.part 0x42 (BitVec.ofNat 64 q.addr) { team := x.index, launch := x.launch }

/-- The last frames of the pre-emption of the team in `subject` are written (09/R153): those of exited groups, group 0's with
the team sections, and the queue contents as they stand. -/
def execTeamSectionsWrite (s : State) : Host.Outcome State Fault Refusal :=
  let t := s.subject
  let x := s.team t
  .next (match x.preempt with
    | none => s
    | some q =>
      let all := (List.range x.ngroups).all fun i => x.exited.contains i || q.written.contains i
      if !all || q.written.isEmpty || (q.full && !s.teamStill t) then s
      else match State.writeFrames t q.full q.addr (List.range x.ngroups) { s with free := s.free + 1 } with
        | .ok _ s => s.hwAsked.leaveCore t q
        | .fail va s => s.hwAsked.failPreempt t va
        | .wait s => { s with free := s.free - 1 })

/-! ### The conditions of a placement -/

/-- The award of a tender in progress that a core has not turned down: the team's place in the order of binding (21/R334). -/
def State.awardOn (s : State) (c : Nat) : Option Nat :=
  (s.part (corePart c)).tender.bind fun t =>
    if t.award.any (·.core == c) && !t.answer.any (fun a => !a.1) then t.bound else none

/-- No team waits for the core before a team: an accepted award goes first (22/R347), then the order of binding, in which a tendered
team stands from its award on (21/R334). Dispatch pauses for a reconfiguration (26/R386). -/
def State.firstFor (s : State) (t : Nat) : Bool :=
  let x := s.team t
  !s.standsDown x.part
    && (x.state == .awarded || !(s.awardOn x.core).any (· < x.order)) && !s.teams.any fun u => u.1 != t && u.2.core == x.core
    && (if u.2.state == .awarded then x.state != .awarded || u.2.order < x.order
      else x.state != .awarded && u.2.order < x.order && (u.2.state == .bound || (u.2.state == .restoring && !u.2.partner)))

/-- Weir admits the team on a core (23/R353). -/
def State.weirAdmits (s : State) (x : Team) (c : Nat) : Bool :=
  let r := s.remaining (coreCluster c)
  x.energy ≤ r.1 && x.peak ≤ r.2

/-- The matrix engine of a core is neither claimed (13/R210) nor held for a tendered team (22/R347). -/
def State.engineFree (s : State) (x : Team) (c : Nat) : Bool :=
  !x.mrole || !((s.bidFor c).any (·.mrole.getD 0 false) || s.teams.any fun u => u.2.core == c && u.2.mrole
    && (u.2.state == .placed || u.2.state == .awarded || ((u.2.state == .out || u.2.state == .restoring) && u.2.light)))

/-- A core takes a team of so many blocks and groups; a team that comes back from a light pre-emption holds all but its
group slots (02/R25, 09/R152), and Weir has admitted one whose core has accepted it (22/R347, R348). -/
def State.takes (s : State) (x : Team) (c blocks groups : Nat) (accepted : Bool := false) : Bool :=
  let k := s.core c
  !k.inReset && !k.retired && groups ≤ s.slotsFree c
    && (x.light || (blocks ≤ s.blocksFree c && x.n ≤ s.scratchFree c && (accepted || s.weirAdmits x c) && s.engineFree x c))

/-! ### Restore (09/R157) -/

/-- A frame read back: the header's bytes and the whole. -/
structure Frame where
  index : Nat
  bytes : List Byte
deriving DecidableEq, Repr

def Frame.field (f : Frame) (o n : Nat) : Nat := fieldAt f.bytes o n

/-- Section k, n bytes of it at most. -/
def Frame.sec (f : Frame) (k n : Nat) : List Byte :=
  if f.field (0xA0 + 8 * k) 4 = 0 then []
  else ((f.bytes.drop (f.field (0xA0 + 8 * k) 4)).take (min n (f.field (0xA4 + 8 * k) 4)))

def Frame.exited (f : Frame) : Bool := f.field 0x3C 1 == 1

/-- The map entries of the frame. -/
def Frame.map (f : Frame) : List (BitVec 32) := entriesAt 4 (fun b => BitVec.ofNat 32 (numOf b)) (f.sec 1 512) 128

/-- Block H and its saved state; none at depth 0 or without one. -/
def Frame.relief (f : Frame) : Option Relief :=
  let t := f.sec 9 1456
  let h := fieldAt t 40 1
  if f.field 7 1 = 0 || 16 ≤ h then none
  else some { block := h, regs := entriesAt 136 VReg.ofFrame (t.drop 336) 8
              map := entriesAt 4 (fun b => BitVec.ofNat 32 (numOf b)) (t.drop 1424) 8 }

/-- How the read of the frames ends. -/
inductive Frames where
  | ok (fs : List Frame) (s : State)
  | refused (code : Nat) (s : State)
  | wait (s : State)
deriving DecidableEq, Repr

def State.readFrames (t : Nat) : List Nat → State → Frames
  | [], s => .ok [] s
  | i :: rest, s =>
    let x := s.team t
    let read (s : State) (n : Nat) : Hw (List Byte) := s.hwRead x.part x.core (s.teamWho t) (frameAddr x.frame i) n
    match read s 512 with
    | .wait s => .wait s
    | .fail _ s => .refused 3 s
    | .ok h s =>
      if fieldAt h 0 4 ≠ 1 || fieldAt h 0x18 8 ≠ x.launch || fieldAt h 8 4 ≠ x.index then .refused 2 s
      else match read s (max 512 (fieldAt h 0x20 4)) with
        | .wait s => .wait s
        | .fail _ s => .refused 3 s
        | .ok bs s => match State.readFrames t rest s with
          | .ok fs s => .ok ({ index := i, bytes := bs } :: fs) s
          | r => r

/-- The register numbers at `nb` of a frame, those of block H included, with their map entries. -/
def Frame.bankEntries (f : Frame) : List (Nat × BitVec 32) :=
  if f.exited then []
  else
    let own := f.map.zipIdx.filterMap fun e => if mapPlace e.1 = 2 then some (e.2, e.1) else none
    match f.relief with
    | none => own
    | some r => own ++ r.map.zipIdx.filterMap fun e => if mapPlace e.1 = 2 then some (8 * r.block + e.2 + 128, e.1) else none

/-- A bank register for an entry: the saved one if free, else the lowest free of the bank. -/
def State.bankFor (s : State) (p : Nat) (e : BitVec 32) : Option (BitVec 32) :=
  let (b, r) := bankOf e
  let isFree (r : Nat) : Bool := s.bankFree p (b, r)
  (if isFree r then some r else (List.range 32).find? isFree).map fun r =>
    BitVec.ofNat 32 (2 * 2 ^ 29 + b * 2 ^ 10 + r * 2 ^ 5)

/-- Bank registers for every register at `nb`, claimed in order; keys are group number, then register. -/
def State.claimBanks (p g : Nat) : List (Nat × BitVec 32) → State → Option (Map (BitVec 32) × State)
  | [], s => some ([], s)
  | (n, e) :: rest, s => match s.bankFor p e with
    | none => none
    | some e' =>
      match State.claimBanks p g rest (s.ownBank p (bankOf e').1 (bankOf e').2 (some (g, n % 128))) with
      | none => none
      | some (m, s) => some (m.set n e', s)

/-- The queue ends of a frame: register, kind, entries. -/
def parseQueues : Nat → List Byte → List (Nat × Nat × List VReg)
  | 0, _ => []
  | k + 1, bs =>
    if bs.length < 8 then []
    else
      let n := fieldAt bs 4 1
      (fieldAt bs 0 1, fieldAt bs 1 1, entriesAt 136 VReg.ofFrame (bs.drop 8) n) :: parseQueues k (bs.drop (8 + 136 * n))

def Frame.queues (f : Frame) : List (Nat × Nat × List VReg) := parseQueues 128 (f.sec 8 (128 * 8 + 64 * 136 * 128))

/-- ROLE of a frame. -/
def roleOf (n : Nat) : Role := match n with | 1 => .m | 2 => .c | _ => .v

/-- Registers of LNBLOCKS. -/
def Frame.lnRegs (f : Frame) (plain : Nat → Bool) : Map VReg :=
  let live := f.field 0x0C 2
  let blocks := (List.range 16).filter live.testBit
  (blocks.zipIdx).flatMap fun b => (List.range 8).filterMap fun j =>
    if plain (8 * b.1 + j) then
      some (8 * b.1 + j, VReg.ofFrame (((f.sec 5 (16 * 1088)).drop (136 * (8 * b.2 + j))).take 136))
    else none

/-- A group as its frame gives it; `old` is what the core kept, or the group's record. Damage that a counter had noted is gone (log 70). -/
def Frame.group (f : Frame) (old : Group) (t core time : Nat) (full : Bool) (banks : Map (BitVec 32)) : Group :=
  let num (o n : Nat) : Nat := f.field o n
  let deep := num 7 1 != 0
  let trap := f.sec 9 1456
  let main := ((entriesAt 32 REntry.ofBytes (f.sec 2 1024) (min 32 (num 0x24 1))).reverse,
    (entriesAt 16 LEntry.ofBytes (f.sec 3 64) (min 4 (num 0x25 1))).reverse)
  let hand := ((entriesAt 32 REntry.ofBytes (trap.drop 48) (min 8 (num 0x26 1))).reverse,
    (entriesAt 16 LEntry.ofBytes (trap.drop 304) (min 2 (num 0x27 1))).reverse)
  let word (k : Nat) : Word := BitVec.ofNat 64 (fieldAt trap (8 * k) 8)
  let pmap : Map (BitVec 32) := if full then
      f.map.zipIdx.filterMap fun e => if e.1 = 0 then none else some (e.2, (banks.get? e.2).getD e.1)
    else old.pmap
  let relief := if !deep then none else if full then f.relief.map fun r =>
      { r with map := r.map.zipIdx.map fun e => (banks.get? (8 * r.block + e.2 + 128)).getD e.1 }
    else old.relief
  let g : Group :=
    { status := .running, team := t, index := f.index, core, role := roleOf (num 0x3A 1), pc := BitVec.ofNat 52 (num 0x10 8)
      regs := old.regs, held := old.held, emg := old.emg, lqueues := old.lqueues, pmap, relief
      ofile := (List.range 8).map fun n => (n, VReg.ofFrame (((f.sec 4 1224).drop (136 * n)).take 136))
      lr := VReg.ofFrame ((f.sec 4 1224).drop 1088)
      sregs := (List.range 64).map fun n => (n, BitVec.ofNat 64 (fieldAt (f.sec 0 512) (8 * n) 8))
      preds := (List.range 8).map fun n => (n, BitVec.ofNat 32 (num (0x40 + 4 * n) 4))
      cb := (List.range 16).map fun n => (n, BitVec.ofNat 16 (num (0x80 + 2 * n) 2))
      ctrs := (List.range 16).filterMap fun n =>
        if num (0x60 + n) 1 % 64 = 0 then none else some (n, { count := num (0x60 + n) 1 % 64, damage := none })
      em := BitVec.ofNat 32 (num 0x28 4), tem := BitVec.ofNat 32 (num 0x2C 4), fm := BitVec.ofNat 32 (num 0x30 4)
      ff := BitVec.ofNat 32 (num 0x34 4), nprt := num 0x3B 1 != 0, depth := deep
      rstack := if deep then hand.1 else main.1, lstack := if deep then hand.2 else main.2
      setR := if deep then main.1 else [], setL := if deep then main.2 else []
      tvec := word 0, tcause := word 1, tepc := word 2, tval := word 3, tlm := word 4
      batch := old.batch, sealed := old.sealed, nextb := old.nextb / 16 * 16 + num 0x3D 1 % 16, age := time }
  if full then
    let g := { g with held := BitVec.ofNat 16 (num 0x0E 2), emg := false }
    { g with regs := f.lnRegs g.plain
             lqueues := f.queues.filterMap fun q => if q.2.1 = 1 then some (q.1, q.2.2) else none }
  else g

/-- A register's value put at its place by its map entry: SPREGS, NBREGS, and those of H at such places. -/
def State.putPlaced (s : State) (t p : Nat) (e : BitVec 32) (v : VReg) : State :=
  match mapPlace e with
  | 1 => s.writeSlot t (mapSlot e) v.whole
  | 2 => s.setBankReg p (bankOf e).1 (bankOf e).2 v
  | _ => s

/-- The registers that a frame holds for one place, put there. -/
def State.putSection (s : State) (t p : Nat) (g : Group) (f : Frame) (pl k : Nat) : State :=
  (g.numsAt pl).zipIdx.foldl (fun s n =>
    s.putPlaced t p (g.entry n.1) (VReg.ofFrame (((f.sec k (128 * 136)).drop (136 * n.2)).take 136))) s

/-- The entries of a group's culvert queues go back to their in ends, before what came there since (09/R154, R157). -/
def State.putQueues (s : State) (g : Group) (f : Frame) : State :=
  f.queues.foldl (fun s q =>
    if q.2.1 < 2 then s
    else s.modCulvert (culvertOf g.core (g.entry q.1)) fun c => { c with entries := q.2.2 ++ c.entries }) s

/-- The team sections of group 0's frame reloaded (09/R156, R157). The barrier's mask is that of its next arrival; an open interval
goes on with the rounding and the counts that it had (log 34). -/
def Team.reload (t : Team) (f : Frame) (seed : Nat) : Team :=
  let b := padTo 512 (f.sec 10 512)
  let at_ (o n : Nat) : Nat := fieldAt b o n
  let valid := at_ 0x140 2
  let mode (a : Nat) : Nat := digit 2 (at_ 0x142 2) a
  let accBytes := f.sec 11 (12 * 24576)
  let held (a : Nat) : Nat := ((List.range a).filter valid.testBit).length
  let block (a n : Nat) : List Byte := (accBytes.drop (24576 * held a)).take n
  let step (a : Nat) : Nat := at_ (0x148 + a) 1 % 16
  let keyed (a : Nat) : Bool := valid.testBit a && !(mode a = 1 && a % 2 = 1)
  let chainLen (a : Nat) : Nat := if step a = 0 || !keyed a then 0 else 2 * cellCount * (if mode a = 1 then 8 else 4)
  let chains := f.sec 13 (8 * 2 * cellCount * 8)
  let chainAt (a : Nat) : List Byte := chains.drop ((List.range a).foldl (fun n j => n + chainLen j) 0)
  let acc (a : Nat) : Accum :=
    let w := if mode a = 1 then 8 else 4
    let vals (bs : List Byte) : List (BitVec 64) := entriesAt w (fun x => BitVec.ofNat 64 (numOf x)) bs cellCount
    if mode a = 1 && a % 2 = 1 then freshAcc 1 2
    else
      { valid := true, mode := mode a, cells := vals (block a (if mode a = 1 then 49152 else 24576))
        even := if chainLen a = 0 then [] else vals (chainAt a)
        odd := if chainLen a = 0 then [] else vals ((chainAt a).drop (cellCount * w))
        n := step a, kind := if mode a = 1 then 2 else (t.acc a).kind }
  { t with
    wms := (List.range 8).map fun i => (i, { t.wm i with
      base := at_ (32 * i) 8, limit := at_ (32 * i + 8) 8, mark := at_ (32 * i + 16) 8, st := at_ (32 * i + 24) 1 % 8
      listen := (at_ (32 * i + 24) 1).testBit 7 })
    rings := (List.range 4).map fun i => (i, { slots := at_ (0x100 + 8 * i) 1, phase := BitVec.ofNat 8 (at_ (0x101 + 8 * i) 1) })
    gn := (List.range (min 6 (at_ 0x120 1))).map fun j => at_ (0x121 + j) 1
    ag := (List.range 4).map fun i => (i, BitVec.ofNat 32 (at_ (0x128 + 4 * i) 4))
    bar := { arrived := (List.range 32).filter (at_ 0x138 4).testBit, gen := at_ 0x13C 4, mask := 0 }
    accs := (List.range 8).filterMap fun a => if valid.testBit a then some (a, acc a) else none
    counts := (List.range 4).filterMap fun j => if valid.testBit (8 + j) then
      some (j, { valid := true, cells := entriesAt 4 (fun x => BitVec.ofNat 32 (numOf x)) (block (8 + j) 24576) cellCount
                 pend := if step (2 * j) = 0 then [] else (t.count j).pend })
      else none
    sp := (padTo (65536 * t.n) (f.sec 12 (65536 * t.n))).zipIdx.map fun x => (x.2, x.1)
    spScale := [], seed }

/-- A refused restore (10/R173). -/
def State.refuseRestore (s : State) (t code : Nat) : State :=
  let x := s.team t
  (s.modTeam t fun x => { x with state := .out, rcore := none, partner := false }).notify x.part 0x43 (BitVec.ofNat 64 code)
    { team := x.index, launch := x.launch }

/-- The bank of the first register at `nb` whose bank holds no compute-capable page of the address space. -/
def State.barrenBank (s : State) (p : Nat) (fs : List Frame) : Option Nat :=
  (fs.flatMap fun f => f.bankEntries.map fun e => (bankOf e.2).1).find? fun b => !s.bankComputes p b

/-- The number under which the group of a frame stands: its record's, or a new one. -/
def State.recordOf (s : State) (t i : Nat) : Nat × Group × State :=
  match s.groups.find? fun g => g.2.team == t && g.2.index == i && g.2.status == .out with
  | some (g, x) => (g, x, s)
  | none => (s.nextId, Group.vacant, { s with nextId := s.nextId + 1 })

/-- One group of a team comes back from its frame (09/R157); none while a bank has no free register. -/
def State.restoreGroup (s : State) (t : Nat) (f : Frame) (full : Bool) : Option State :=
  let x := s.team t
  if f.exited then
    match s.groups.find? fun g => g.2.team == t && g.2.index == f.index && g.2.status == .out with
    | some (g, _) => some (s.leaveGroup g)
    | none => some s
  else
    let (g, old, s) := s.recordOf t f.index
    match (if full then State.claimBanks x.part g f.bankEntries s else some ([], s)) with
    | none => none
    | some (banks, s) =>
      let y := f.group old t x.core s.time full banks
      let s := (s.setGroup g y).seat g
      let s := if old.nextb = y.nextb then s else { s with cores := s.cores.update fun _ (k : Core) => { k with
        copies := k.copies.update fun _ c => if c.gid = g && c.batch = some old.nextb then { c with batch := some y.nextb } else c } }
      if !full then some s
      else
        let s := s.modCore x.core fun k => { k with freeBlocks := k.freeBlocks - ((List.range 16).filter y.holds).length }
        let s := s.putQueues y f
        let s := (s.putSection t x.part y f 1 6).putSection t x.part y f 2 7
        some (match y.relief with
          | none => s
          | some r => (List.range 8).foldl (fun s j => s.putPlaced t x.part (r.map.getD j 0) (r.regs.getD j .fresh)) s)

def State.restoreGroups (t : Nat) (full : Bool) : List Frame → State → Option State
  | [], s => some s
  | f :: rest, s => match s.restoreGroup t f full with
    | none => none
    | some s => State.restoreGroups t full rest s

/-- The core of the last placement of a team, by dispatch, award or RESTORE (24/R366). -/
def State.notePlace (s : State) (t : Nat) : State :=
  let x := s.team t
  s.modPart x.part fun p => match p.slots.get? x.slot with
    | none => p
    | some l =>
      let old := l.awards.get x.index (0, 0, 0)
      { p with slots := p.slots.set x.slot { l with awards := l.awards.set x.index (x.core, old.2.1, old.2.2) } }

/-- One team comes back on its core: its sections, groups and report; none where it has to wait. Its listening watermarks count the
lines that have landed since (14/R230). -/
def State.restoreTeam (s : State) (t : Nat) (fs : List Frame) : Option State :=
  let x := s.team t
  let full := !x.light
  let live := fs.filter fun f => !f.exited
  let blocks := live.foldl (fun n f => n + ((List.range 16).filter (f.field 0x0E 2).testBit).length) 0
  let from_ := (s.queueCore t).getD x.core
  if !s.takes x x.core blocks live.length || !s.numbersFree t from_ x.core then none
  else
    let s := s.moveCulverts t from_ x.core
    let s := s.modTeam t fun x =>
      let x := if full then (match fs.head? with | some f => x.reload f s.order | none => x) else x
      { x with state := .placed, light := false, claims := true, rcore := none
               exited := (fs.filter Frame.exited).map (·.index) }
    match State.restoreGroups t full fs { s with order := s.order + 1 } with
    | none => none
    | some s =>
      let s := (s.notePlace t).modCore x.core fun k => { k with request := false, grantAt := none }
      some (((if full then s.followLines t else s).setAway.fill x.core).notify x.part 0x43 0 { team := x.index, launch := x.launch })

/-- The partner team that returns together with a team. -/
def State.jointTeam (s : State) (t : Nat) : Option Nat :=
  (s.culvertPartner t).filter fun u => (s.team u).state == .restoring && !(s.team u).partner

/-- A RESTORE held for a partner that is gone goes on alone (09/R157). -/
def State.unhold (s : State) (t : Nat) : State :=
  let x := s.team t
  match x.partner, s.culvertPartner t, s.pickCore t x.rcore with
  | true, none, some c => { s.modTeam t fun x => { x with partner := false, core := c, order := s.order } with order := s.order + 1 }
  | _, _, _ => s

/-- The frames of the teams of one restore; or the first team that is refused, with its code. -/
def State.framesOf : List Nat → State → Hw (List (Nat × List Frame) ⊕ Nat × Nat)
  | [], s => .ok (.inl []) s
  | t :: rest, s =>
    let x := s.team t
    match State.readFrames t (List.range x.ngroups) s with
    | .wait s => .wait s
    | .refused code s => .ok (.inr (t, code)) s
    | .ok fs s =>
      match (if x.light then none else s.barrenBank x.part fs) with
      | some b => .ok (.inr (t, 1 + 256 * b)) s
      | none => match State.framesOf rest s with
        | .ok (.inl more) s => .ok (.inl ((t, fs) :: more)) s
        | r => r

/-- Teams come back, each on its core; none where one has to wait. -/
def State.restoreTeams (s : State) : List (Nat × List Frame) → Option State
  | [] => some s
  | x :: rest => match s.restoreTeam x.1 x.2 with
    | none => none
    | some s => s.restoreTeams rest

/-- A RESTORE is held for the culvert partner (09/R157). -/
def State.holdRestore (s : State) (t : Nat) : State := s.modTeam t fun x => { x with partner := true }

/-- The teams of one restore, each on its core: placed together, or not at all; where one is refused, the other is held for it. -/
def State.restoreAll (s : State) (ts : List Nat) : Hw Unit :=
  match State.framesOf ts s with
  | .wait s => .wait s
  | .fail va s => .fail va s
  | .ok (.inr (t, code)) s => .ok () ((ts.filter (· ≠ t)).foldl State.holdRestore (s.refuseRestore t code))
  | .ok (.inl fs) s => match s.restoreTeams fs with
    | none => .wait s.hwAsked
    | some s => .ok () s

/-- The team that holds the partner ends of a team's culverts is out, and its RESTORE has not been accepted (09/R157). -/
def State.partnerOut (s : State) (t : Nat) : Bool :=
  !(s.team t).light && (s.culvertPartner t).any fun u => (s.team u).state == .out && !(s.team u).light

/-- The RESTORE of the team in `subject` takes its turn (09/R157): where everything it needs is free the team is placed, and an island
that is not on is woken for it first (23/R358). -/
def execRestorePlacement (s : State) : Host.Outcome State Fault Refusal :=
  let t := s.subject
  .next (if (s.team t).state ≠ .restoring then s
    else
      let s := s.unhold t
      let ts := t :: (s.jointTeam t).toList
      if (s.team t).partner || ts.any (fun u => !s.firstFor u) then s
      else if s.partnerOut t then s.holdRestore t
      else match s.restoreAll ts with
        | .ok _ v =>
          let dark := ts.filter fun u => (v.team u).state == .placed && (s.core (s.team u).core).power != .on
          if dark.isEmpty then v.hwAsked
          else dark.foldl (fun s u => s.wakeIsland (s.team u).core) (s.keepAsks v).hwAsked
        | .fail _ t | .wait t => s.keepAsks t)

end Sys2Proof.Machine
end

