-- ==== Sys2Proof/Machine/Launch.lean ====
section
/-!
DEFINITION. Launches (02/R16, R25, R34, 03/R43-R51, 04/R75-R77, 21/R330-R335, 24/R363): `lnch`, the binding of cohorts, the
placement of teams and the start of their groups, and the steps `cohortBind`, `teamPlacement`, `trapReportLanding`.
-/

namespace Sys2Proof.Machine

open Sys2Proof

/-! ### The team table (04/R75) -/

/-- A place entry: register and map entry, with its offset in the table. -/
structure PlaceRec where
  off : Nat
  reg : Nat
  map : BitVec 32
deriving DecidableEq, Repr

structure GroupRec where
  off    : Nat
  role   : Nat
  blocks : BitVec 16
  places : List PlaceRec
deriving DecidableEq, Repr

structure TeamRec where
  off    : Nat
  entry  : Int
  pos    : Nat
  n      : Nat
  m      : Nat
  groups : List GroupRec
deriving DecidableEq, Repr

/-- The group record with an index. -/
def groupRec (bs : List Byte) (base i : Nat) : GroupRec :=
  let o := base + 16 * i
  { off := o, role := fieldAt bs o 1, blocks := BitVec.ofNat 16 (fieldAt bs (o + 2) 2)
    places := (List.range (fieldAt bs (o + 1) 1)).map fun j =>
      let p := fieldAt bs (o + 4) 4 + 8 * j
      { off := p, reg := fieldAt bs p 1, map := BitVec.ofNat 32 (fieldAt bs (p + 4) 4) } }

/-- The table at address e; its bytes stand in `bs`. -/
def tableOfBytes (bs : List Byte) (e : Nat) : List TeamRec :=
  let t := fieldAt bs 2 1
  (List.range t).map fun i =>
    let o := 16 + 16 * i
    { off := o, entry := (e : Int) + signedOf 32 (fieldAt bs o 4), pos := fieldAt bs (o + 4) 1, n := fieldAt bs (o + 6) 1
      m := fieldAt bs (o + 7) 1
      groups := (List.range (fieldAt bs (o + 5) 1)).map fun j => groupRec bs (16 + 16 * t) (fieldAt bs (o + 8) 2 + j) }

def TeamRec.blockCount (t : TeamRec) : Nat :=
  t.groups.foldl (fun n g => n + ((List.range 16).filter g.blocks.getLsbD).length) 0

/-- The header, then the whole table; a table of another FORMAT is read no further (log 26). -/
def State.readTable (s : State) (p core : Nat) (w : Who) (e : Nat) : Hw (List Byte) :=
  match s.hwRead p core w e 16 with
  | .ok h s => if fieldAt h 0 2 ≠ 1 then .ok h s else s.hwRead p core w e (max 16 (fieldAt h 4 4))
  | r => r

/-- The least of some numbers. -/
def leastNat (xs : List Nat) : Option Nat := xs.foldl (fun b x => match b with
  | none => some x
  | some y => some (min x y)) none

/-- Offsets from a list of tests that fail. -/
def failures (ts : List (Nat × Bool)) : List Nat := ts.filterMap fun t => if t.2 then none else some t.1

/-- STATUS 2: the first offending byte of the table (04/R75, 21/R331). Beyond the causes listed, the model's choice (log 51): a SIZE
too small for the records counted in the header, and a FIRSTGRP that with GROUPS goes beyond NGROUPS, are such a fault at that field,
and so is a POS above 15. -/
def badTable (bs : List Byte) (e : Nat) : Option Nat :=
  let at_ (o n : Nat) : Nat := fieldAt bs o n
  let t := at_ 2 1
  let size := at_ 4 4
  let ng := at_ 8 2
  let zero (o n : Nat) : List (Nat × Bool) := (List.range n).map fun j => (o + j, at_ (o + j) 1 == 0)
  let ts := tableOfBytes bs e
  let gs := (List.range ng).map (groupRec bs (16 + 16 * t))
  leastNat (failures ([(0, at_ 0 2 == 1), (2, decide (1 ≤ t ∧ t ≤ 16))] ++ zero 3 1 ++ zero 0xA 6
      ++ [(4, decide (16 + 16 * t + 16 * ng ≤ size))])
    ++ (ts.zipIdx.flatMap fun x => failures ([
        (x.1.off, x.1.entry % 4 == 0 && !(decide ((e : Int) ≤ x.1.entry) && decide (x.1.entry < (e : Int) + (size : Int))))
      , (x.1.off + 4, decide (x.1.pos < 16) && !((ts.take x.2).any fun y => y.pos == x.1.pos))
      , (x.1.off + 5, decide (1 ≤ x.1.groups.length ∧ x.1.groups.length ≤ 32))
      , (x.1.off + 8, decide (at_ (x.1.off + 8) 2 + x.1.groups.length ≤ ng))] ++ zero (x.1.off + 0xA) 6))
    ++ (gs.flatMap fun g => failures ([(g.off, decide (g.role ≤ 2))
        , (g.off + 4, g.places.isEmpty || decide (at_ (g.off + 4) 4 + 8 * g.places.length ≤ size))] ++ zero (g.off + 8) 8))
    ++ (gs.flatMap fun g => g.places.flatMap fun p =>
        failures ([(p.off, decide (p.reg < 128)), (p.off + 6, p.map.toNat / 2 ^ 16 % 8 == 0)] ++ zero (p.off + 1) 3)))

/-! ### Places and queues of a template (03/R43, R46, R50, R51) -/

/-- A declared culvert end: position, direction (0 up, 1 down), number, whether it is the out end, depth. -/
structure EndRec where
  off   : Nat
  team  : Nat
  group : Nat
  pos   : Nat
  dir   : Nat
  num   : Nat
  out   : Bool
  depth : Nat
deriving DecidableEq, Repr

def endsOf (ts : List TeamRec) : List EndRec :=
  ts.zipIdx.flatMap fun t => t.1.groups.zipIdx.flatMap fun g => g.1.places.filterMap fun p =>
    if mapQKind p.map < 2 then none
    else some { off := p.off, team := t.2, group := g.2, pos := t.1.pos, num := mapQNum p.map, depth := mapQDepth p.map
                out := mapQKind p.map == 2, dir := if (mapQKind p.map == 2) == decide (t.1.pos < 8) then 0 else 1 }

/-- The same queue of a facing pair. -/
def EndRec.same (a b : EndRec) : Bool := a.pos % 8 == b.pos % 8 && a.dir == b.dir && a.num == b.num

/-- The `nb` slots that a template team declares. -/
def TeamRec.banks (t : TeamRec) : List (Nat × Nat) :=
  t.groups.flatMap fun g => g.places.filterMap fun p => if mapPlace p.map = 2 then some (bankOf p.map) else none

/-- A place entry of a group breaks no rule (03/R43, R44, R46): one that names an inner register of a local queue is itself the entry
at fault (cause 9). -/
def State.placeOk (s : State) (part : Nat) (t : TeamRec) (g : GroupRec) (p : PlaceRec) : Bool :=
  let pl := mapPlace p.map
  let q := mapQKind p.map
  let slot := mapSlot p.map
  let d := mapQDepth p.map
  let inner (r : PlaceRec) : Bool := mapQKind r.map == 1 && r.reg < p.reg && p.reg < r.reg + mapQDepth r.map
  pl < 4 && g.blocks.getLsbD (p.reg / 8) && !(g.places.any inner)
    && (match q with
      | 0 => pl != 3 && d == 1 && mapQNum p.map == 0
      | 1 => pl == 0 && mapQNum p.map == 0 && d ≤ 8 && (p.reg + d - 1) / 8 == p.reg / 8
      | _ => pl == 3)
    && (match pl with
      | 1 => slot < 512 * t.n
      | 2 => slot % 32 == 0 && s.bankComputes part (slot / 2 ^ 10)
      | _ => slot == 0)

/-- STATUS 3: the offset of the first place entry at fault (21/R331). -/
def State.badPlaces (s : State) (part : Nat) (ts : List TeamRec) : Option Nat :=
  let slots : List (Nat × Nat × Nat × Nat) := ts.zipIdx.flatMap fun t => t.1.groups.flatMap fun g => g.places.filterMap fun p =>
    match mapPlace p.map with
    | 1 => some (p.off, 1, t.2, mapSlot p.map)
    | 2 => some (p.off, 2, 0, mapSlot p.map)
    | _ => none
  let twice := slots.zipIdx.filterMap fun x => if (slots.take x.2).any (fun y => y.2 == x.1.2) then some x.1.1 else none
  let ends := endsOf ts
  let loose := ends.filterMap fun a =>
    let fam := ends.filter a.same
    if (fam.filter (·.out)).length = 1 && (fam.filter fun b => !b.out).length = 1 && fam.all (fun b => b.depth == a.depth) then none
    else some a.off
  let alone := ts.flatMap fun t => t.groups.flatMap fun g => g.places.filterMap fun p =>
    if s.placeOk part t g p then none else some p.off
  leastNat (alone ++ twice ++ loose)

/-- STATUS 4: the offset of the first team, or queue entry, that does not fit (21/R331, 03/R51). -/
def badFit (ts : List TeamRec) : Option Nat :=
  let outs := (endsOf ts).filter (·.out)
  let beyond := outs.filterMap fun a =>
    if 64 < (outs.filter fun b => b.pos % 8 == a.pos % 8 && b.dir == a.dir).foldl (fun n b => n + b.depth) 0 then some a.off
    else none
  leastNat ((ts.filterMap fun t => if 255 < t.blockCount || 48 < t.n + t.m then some t.off else none) ++ beyond)

/-! ### The launch record (04/R77, 21/R330) -/

/-- STATUS 1: the offset of the first field that breaks R330, in a template of t teams. -/
def badRecord (rb : List Byte) (t : Nat) : Option Nat :=
  let grid := fieldAt rb 0x18 4
  leastNat (failures ([(0, fieldAt rb 0 8 % 64 == 0), (0x10, fieldAt rb 0x10 8 % 8 == 0)
      , (0x18, decide (1 ≤ grid ∧ grid * max 1 t ≤ 65536)), (0x1C, decide (fieldAt rb 0x1C 1 ≤ 1))]
    ++ ([0x1D, 0x1E, 0x1F, 0x26, 0x27] ++ (List.range 24).map (0x28 + ·)).map fun o => (o, fieldAt rb o 1 == 0)))

/-- What the checks of a record find: STATUS with the address of the first offending byte, or the table. -/
inductive Checked where
  | bad (status va : Nat) (s : State)
  | wait (s : State)
  | ok (rb : List Byte) (ts : List TeamRec) (s : State)
deriving DecidableEq, Repr

/-- The checks of 21/R331 in their order; `tendered` whether CLASS 1 is admitted. -/
def State.checkRecord (s : State) (p core : Nat) (w : Who) (x : Nat) : Checked :=
  match s.hwRead p core w x 64 with
  | .wait s => .wait s
  | .fail va s => .bad 6 va s
  | .ok rb s =>
    let e := fieldAt rb 0 8
    match s.readTable p core w e with
    | .wait s => .wait s
    | .fail va s => .bad 6 va s
    | .ok tb s =>
      let ts := tableOfBytes tb e
      match badRecord rb (fieldAt tb 2 1) with
      | some o => .bad 1 (x + o) s
      | none => match badTable tb e with
        | some o => .bad 2 (e + o) s
        | none => match s.badPlaces p ts with
          | some o => .bad 3 (e + o) s
          | none => match badFit ts with
            | some o => .bad 4 (e + o) s
            | none =>
              if fieldAt rb 0x1C 1 = 1 && (ts.length != 1 || ts.any (fun t => t.m != 0
                  || t.groups.any fun g => g.places.any fun q => mapQKind q.map != 0)) then .bad 7 (x + 0x1C) s
              else .ok rb ts s

/-- The slot's copy of a started launch (21/R332). -/
def newLaunch (rb : List Byte) (ts : List TeamRec) (x order : Nat) : Launch :=
  { addr := x, entry := fieldAt rb 0 8, params := BitVec.ofNat 64 (fieldAt rb 8 8), done := BitVec.ofNat 64 (fieldAt rb 0x10 8)
    grid := fieldAt rb 0x18 4, cls := fieldAt rb 0x1C 1, energy := fieldAt rb 0x20 4, peak := fieldAt rb 0x24 2
    teams := ts.length, groups := ts.map (·.groups.length), blocks := ts.map TeamRec.blockCount, units := ts.map (·.n)
    mrole := ts.map fun t => t.groups.any fun g => g.role == 1
    banks := ((ts.head?).map TeamRec.banks).getD [], order }

/-- `lnch` at an address: the status word, none while it reads ring bytes that have not landed or waits for another module, and the
state (24/R363). -/
def State.launch (s : State) (x : Nat) : Option Nat × State :=
  let p := s.myPart
  match s.checkRecord p s.me.core { s.who s.me (BitVec.ofNat 64 x) 0 with own := true } x with
  | .wait t => (none, s.keepAsks t)
  | .bad st va s => (some st, s.hwAsked.notify p 0x48 (BitVec.ofNat 64 va))
  | .ok rb ts s =>
    let s := s.hwAsked
    match (List.range 64).find? fun k => ((s.part p).slots.get? k).isNone with
    | none => (some 5, s)
    | some slot =>
      let l := newLaunch rb ts x s.order
      (some (slot * 2 ^ 16), { s.modPart p fun q => { q with slots := q.slots.set slot l } with order := s.order + 1 })

/-- Whether `lnch` at an address waits for inbound ring bytes that have not landed, in the record or the table (21/R329). -/
def State.launchGated (s : State) (x : Nat) : Bool :=
  let p := s.myPart
  let c := s.me.core
  let w := { s.who s.me (BitVec.ofNat 64 x) 0 with own := true }
  s.gatedRead p c w x 64 || (match s.hwRead p c w x 64 with
    | .ok rb s =>
      let e := fieldAt rb 0 8
      s.gatedRead p c w e 16 || (match s.hwRead p c w e 16 with
        | .ok h s => s.gatedRead p c w e (max 16 (fieldAt h 4 4))
        | _ => false)
    | _ => false)

/-- `lnch` (20/R319, 24/R363). A wait for inbound ring bytes is a long-latency condition; one for another module or for a bank under
refresh is not (21/R340). -/
def execLnch (f : Form) (s : State) : Host.Outcome State Fault Refusal :=
  run (.lnch f) s fun _ f =>
    let x := (s.me.scalar f.a).toNat
    if x % 64 ≠ 0 then .error (misaligned (.lnch f) s.me (BitVec.ofNat 64 x))
    else match s.launch x with
      | (none, t) => .error (.held (if s.launchGated x then .inbound else .answer) t)
      | (some st, s) => .ok (s.setScalar f.d (BitVec.ofNat 64 st))

/-! ### Binding (21/R333, 14/R228, 03/R50) -/

/-- The queues of a template on facing pair k: keys with depth, and the template teams of the two ends. -/
def queuesOn (p k : Nat) (ts : List TeamRec) : List (Nat × EndRec × EndRec) :=
  let ends := endsOf ts
  (ends.filter (·.out)).filterMap fun a => (ends.find? fun b => a.same b && !b.out).map fun b =>
    (culvertKey (lowerCore (pairCore p k a.pos)) a.dir a.num, a, b)

/-- The queue numbers are free and their direction has room (03/R50, R51). -/
def State.queuesFit (s : State) (qs : List (Nat × EndRec × EndRec)) : Bool :=
  let held := s.culverts.filter fun c => c.2.isHeld
  qs.all fun q => !(held.any (·.1 == q.1))
    && (held.filter (fun c => c.1 / 8 == q.1 / 8)).foldl (fun n c => n + c.2.depth) 0
      + (qs.filter (fun r => r.1 / 8 == q.1 / 8)).foldl (fun n r => n + r.2.1.depth) 0 ≤ 64

/-- The teams of the template that no command has ended before their cohort binds (10/R172). -/
def Launch.alive (l : Launch) (c : Nat) (i : Nat) : Bool := (l.ended.get? (c * l.teams + i)).isNone

/-- A facing cluster pair can reserve what a cohort needs. -/
def State.pairFits (s : State) (p k : Nat) (ts : List TeamRec) (alive : Nat → Bool) : Bool :=
  (ts.zipIdx.all fun t => !alive t.2 || (t.1.m ≤ s.scratchFree (pairCore p k t.1.pos) && !(s.core (pairCore p k t.1.pos)).retired))
    && s.queuesFit ((queuesOn p k ts).filter fun q => alive q.2.1.team || alive q.2.2.team)

/-- Whether the next cohort of a launch may be bound: not now; a wait for another module that holds the table; or the pair that it
takes, with the template. -/
inductive Binding where
  | no
  | wait (s : State)
  | yes (k : Nat) (ts : List TeamRec) (s : State)
deriving DecidableEq, Repr

def State.bindable (s : State) (p : Nat) (l : Launch) : Binding :=
  let c := l.next
  if s.standsDown p || l.cls ≠ 0 || l.grid ≤ c || l.oldest + 256 < (c + 1) * l.teams then .no
  else match s.readTable p noCore { va := BitVec.ofNat 64 l.entry, source := 7 } l.entry with
    | .ok tb s =>
      let ts := (tableOfBytes tb l.entry).take l.teams
      let from_ := match l.last with | some k => k + 1 | none => 0
      match ((List.range 4).map fun j => (from_ + j) % 4).find? fun k => s.pairFits p k ts (l.alive c) with
      | some k => .yes k ts s
      | none => .no
    | .wait s => .wait s
    | .fail .. => .no

/-- A team of a launch before its placement. -/
def Launch.bound (l : Launch) (p slot c cohort core order : Nat) (i : Nat) (t : TeamRec) : Team :=
  { part := p, slot, index := c * l.teams + i, cohort, pos := t.pos, core, launch := l.addr, params := l.params
    n := t.n, m := t.m, ngroups := t.groups.length, blocks := t.blockCount, order
    mrole := t.groups.any fun g => g.role == 1, energy := l.energy, peak := l.peak }

/-- A queue reserved: its ends belong to teams; the end of a team that is not there counts as exited. -/
def culvertFor (team : Nat → Option Nat) (a b : EndRec) : Culvert :=
  { depth := a.depth, outTeam := (team a.team).getD 0, inTeam := (team b.team).getD 0, outGone := (team a.team).isNone
    inGone := (team b.team).isNone }

/-- A cohort is bound to pair k: reservations made, landed bits cleared, its teams wait for their cores (21/R333, R334). -/
def State.bindCohort (s : State) (p slot : Nat) (l : Launch) (k : Nat) (ts : List TeamRec) : State :=
  let c := l.next
  let cid := s.nextId
  let id (i : Nat) : Nat := cid + 1 + i
  let live := ts.zipIdx.filter fun t => l.alive c t.2
  let team (i : Nat) : Option Nat := if l.alive c i then some (id i) else none
  let cohort : Cohort :=
    { part := p, slot, index := c, pair := k, total := l.teams, ended := l.teams - live.length
      teams := ts.zipIdx.foldl (fun m t => m.set t.1.pos (id t.2)) []
      m := live.foldl (fun m t => m.set t.1.pos t.1.m) [], seed := s.order }
  let s : State := { s with nextId := cid + 17, order := s.order + 17, cohorts := s.cohorts.set cid cohort }
  let s := live.foldl (fun s t =>
    s.setTeam (id t.2) (l.bound p slot c cid (pairCore p k t.1.pos) (s.order - 17 + 1 + t.2) t.2 t.1)) s
  let qs := (queuesOn p k ts).filter fun (q : Nat × EndRec × EndRec) => l.alive c q.2.1.team || l.alive c q.2.2.team
  let s : State := { s with culverts := qs.foldl (fun m q => s.culvertSet m q.1 (culvertFor team q.2.1 q.2.2)) s.culverts }
  s.modPart p fun x => { x with slots := x.slots.set slot { l with next := c + 1, last := some k } }

/-- The next cohort of a launch binds; launches started earlier go first (21/R333). -/
def execCohortBind (p slot : Nat) (s : State) : Host.Outcome State Fault Refusal :=
  .next (match (s.part p).slots.get? slot with
    | none => s
    | some l =>
      if (s.part p).slots.any (fun o => o.2.order < l.order && s.bindable p o.2 != .no) then s
      else match s.bindable p l with
        | .no => s
        | .wait t => s.keepAsks t
        | .yes k ts s => s.hwAsked.bindCohort p slot l k ts)

/-! ### Placement (02/R15, R16, R25, 03/R44) -/

/-- The claims of one group's declared places at its start: the registers read data 0 and scale bytes 0x7F (02/R15). -/
def State.claimPlaces (s : State) (t p g : Nat) (ps : List PlaceRec) : State :=
  ps.foldl (fun s r =>
    match mapPlace r.map with
    | 1 => s.putPlaced t p r.map .fresh
    | 2 => (s.ownBank p (bankOf r.map).1 (bankOf r.map).2 (some (g, r.reg))).putPlaced t p r.map .fresh
    | _ => s) s

/-- A group at its start (02/R15, R16). Where two place entries name one register, the model lets the later one stand in the map, but
for one at `ln` without a queue, and `State.claimPlaces` claims the slots of both (log 50: the spec is silent). -/
def Team.newGroup (t : Team) (tid index time cohortIndex : Nat) (r : GroupRec) : Group :=
  { status := .running, team := tid, index, core := t.core, role := roleOf r.role, pc := t.entry, held := r.blocks
    sregs := [(0, t.params), (1, BitVec.ofNat 64 cohortIndex), (2, BitVec.ofNat 64 t.index)]
    pmap := r.places.foldl (fun m p => if p.map = 0 then m else m.set p.reg p.map) []
    age := time }

/-- The groups of a team start in one cycle (02/R25). -/
def State.startGroups (s : State) (tid cohortIndex : Nat) : List (Nat × GroupRec) → State
  | [] => s
  | (i, r) :: rest =>
    let t := s.team tid
    let g := s.nextId
    let x := t.newGroup tid i s.time cohortIndex r
    let s := { s with nextId := g + 1 }
    let s : State := if s.me.status = .absent then { s with me := x, meId := g } else { s with others := s.others.set g x }
    let s := (s.seat g).claimPlaces tid t.part g r.places
    let mine (c : Culvert) (out : Bool) : Bool := if out then c.outTeam == tid else c.inTeam == tid
    let ends := r.places.filter fun p => 2 ≤ mapQKind p.map
    let s := ends.foldl (fun s p => s.modCulvert (culvertOf t.core p.map) fun c =>
      if mapQKind p.map = 2 then (if mine c true then { c with outEnd := g } else c)
      else if mine c false then { c with inEnd := g } else c) s
    s.startGroups tid cohortIndex rest

/-- A team is placed on its core with the template as it reads now (21/R332); none while it has to wait. -/
def State.placeTeam (s : State) (t : Nat) (r : TeamRec) (cohortIndex : Nat) : Option State :=
  let x := s.team t
  let y := { x with state := .bound, n := r.n, ngroups := r.groups.length, blocks := r.blockCount
                    mrole := r.groups.any fun g => g.role == 1 }
  let s := s.setTeam t y
  if !s.takes y x.core r.blockCount r.groups.length (x.state = .awarded) || !r.banks.all (s.bankFree x.part) then none
  else
    let s := s.setTeam t { y with
      state := .placed, claims := true, entry := BitVec.ofInt 52 r.entry, seed := s.order
      rings := (List.range 4).map fun k => (k, {}) }
    let s := { s.modCore x.core fun k => { k with freeBlocks := k.freeBlocks - r.blockCount, request := false, grantAt := none } with
      order := s.order + 1 }
    some (s.startGroups t cohortIndex (r.groups.zipIdx.map fun g => (g.2, g.1)))

/-- The template that a waiting team is placed from: its launch's table, or that of the steward's record (28/R409). -/
def State.templateOf (s : State) (t : Nat) : Hw TeamRec :=
  let x := s.team t
  let w : Who := { va := 0, source := 7 }
  let rec_ (e i : Nat) (s : State) : Hw TeamRec := match s.readTable x.part noCore w e with
    | .ok tb s => match (tableOfBytes tb e)[i]? with
      | some r => .ok r s
      | none => .fail e s
    | .fail a s => .fail a s
    | .wait s => .wait s
  if x.steward then
    match s.hwRead x.part noCore w (s.part x.part).stewrec 64 with
    | .ok rb s => rec_ (fieldAt rb 0 8) 0 s
    | .fail a s => .fail a s
    | .wait s => .wait s
  else match (s.part x.part).slots.get? x.slot with
    | none => .fail 0 s
    | some l => rec_ l.entry (x.index % max 1 l.teams) s

/-- A placed team is noted in its launch; a placed steward team makes its partition run (28/R409). -/
def State.placed (s : State) (t : Nat) : State :=
  if (s.team t).steward then s.modPart (s.team t).part fun p => { p with state := 2 } else s.notePlace t

/-- A team that waits for its core tries to be placed: where everything it needs is free it starts, and an island that is not on is
woken for it first (21/R334, 23/R353, R358). No refresh delays one that its core has accepted (22/R347; log 37). -/
def State.tryPlace (s : State) (t : Nat) : State :=
  let x := s.team t
  if !(x.state = .bound || x.state = .awarded) || !s.firstFor t then s
  else match (if x.state = .awarded then s.idly (·.templateOf t) else s.templateOf t) with
    | .wait u => s.keepAsks u
    | .fail _ u => (s.keepAsks u).hwAsked
    | .ok r u =>
      let l := (s.part x.part).slots.get x.slot {}
      match u.placeTeam t r (if x.steward then 0 else x.index / max 1 l.teams) with
      | none => (s.keepAsks u).hwAsked
      | some v => if (s.core x.core).power = .on then v.hwAsked.placed t else (s.keepAsks u).hwAsked.wakeIsland x.core

/-- The team in `subject` is placed if its turn has come. -/
def execTeamPlacement (s : State) : Host.Outcome State Fault Refusal := .next (s.tryPlace s.subject)

/-! ### The trap report ring (08/R137, 10/R170) -/

/-- The 64 bytes of a report. -/
def Report.bytes (r : Report) : List Byte :=
  fieldBytes 64 [(0, 4, r.team), (4, 1, r.group), (5, 1, r.depth), (8, 8, r.tcause.toNat), (0x10, 8, r.tepc.toNat)
    , (0x18, 8, r.tval.toNat), (0x20, 4, r.tlm), (0x28, 8, r.launch)]

/-- The next report of a partition lands in its ring; with the report of a team's end that team is complete (21/R335). -/
def State.landReport (s : State) (p : Nat) : State :=
  let x := s.part p
  match x.reports with
  | [] => s
  | r :: rest =>
    if x.trbase = 0 || x.trsize ≤ x.trmark - x.trtail then s
    else
      let a := x.trbase + 64 * (x.trmark % x.trsize)
      match s.hwWrite p noCore { va := 0, source := 7 } a r.bytes with
      | .ok _ s =>
        let s := s.hwAsked.modPart p fun q => { q with reports := rest, trmark := q.trmark + 1, notice := false }
        match r.ends with
        | some slot => s.teamReported p slot
        | none => s
      | .fail _ t =>
        if x.notice then (s.keepAsks t).hwAsked
        else t.hwAsked.modPart p fun q => { q with
          notice := true, strap := { tcause := 0x4E, tval := BitVec.ofNat 64 a }, msi := q.msi ++ [0] }
      | .wait s => s

/-- A pending report of the partition in `subject` lands (08/R137, 10/R170). -/
def execTrapReportLanding (s : State) : Host.Outcome State Fault Refusal := .next (s.landReport s.subject)

end Sys2Proof.Machine
end

