-- ==== Sys2Proof/Machine/Sched.lean ====
section
/-!
DEFINITION. Swaps of the active set (21/R337, R341, R342) and the steps `longWaitSwap`, `yieldSwap`, `promotion`,
`swapComplete`. Vacancies are filled by `State.fill` (Ops.lean). Cycles are those of the core (00/R3).
-/

namespace Sys2Proof.Machine

open Sys2Proof

/-- A ready pending group of a core exists. -/
def State.readyPending (s : State) (c : Nat) : Bool := (s.pendings c).any fun x => x.2.ready.isSome

/-- An active group goes out and the first in the order of 21/R342 comes in; neither issues until so many cycles have passed. -/
def State.swapOut (s : State) (g : Nat) (cycles : Nat := 2) : State :=
  let c := (s.group g).core
  match s.nextPending c with
  | none => s
  | some (h, _) =>
    (s.modGroup g fun x => { x with sched := .leaving, stay := s.cycles c + cycles, yielded := false }).enter h cycles

/-- A group that issues now may be swapped: it runs in the active set. -/
def Group.seated (g : Group) : Bool := g.status == .running && g.sched == .active

/-- Cycles of a core since a time. -/
def State.cyclesSince (s : State) (c t : Nat) : Nat := s.cycleOf c s.time - s.cycleOf c t

/-- The group in `subject` waits on a long-latency condition in its 33rd cycle or a later one (21/R341): the swap takes this cycle and
the next. -/
def execLongWaitSwap (s : State) : Host.Outcome State Fault Refusal :=
  let g := s.subject
  let x := s.group g
  .next (if x.seated && s.stalledNow g && 32 ≤ s.cyclesSince x.core x.waited && s.readyPending x.core then s.swapOut g else s)

/-- The group in `subject` has issued an instruction with `=> yield` in this cycle (21/R341): the swap takes the two that follow. -/
def execYieldSwap (s : State) : Host.Outcome State Fault Refusal :=
  let g := s.subject
  let x := s.group g
  .next (if x.seated && x.yielded && s.readyPending x.core then s.swapOut g 3 else s)

/-- A pending group is to be promoted: it has been ready in 512 cycles on end (21/R342). -/
def State.ripe (s : State) (x : Group) : Bool := x.ready.any fun t => 511 ≤ s.cyclesSince x.core t

/-- A promotion has begun on a core in this cycle. -/
def State.promotedNow (s : State) (c : Nat) : Bool := (s.core c).promoted.any fun t => s.cyclesSince c t == 0

/-- The pending group in `subject` is promoted, the oldest such group of its core and one in a cycle; it displaces the active group
whose stay is the longest (21/R342). -/
def execPromotion (s : State) : Host.Outcome State Fault Refusal :=
  let g := s.subject
  let x := s.group g
  let ripe := (s.pendings x.core).filter fun y => s.ripe y.2
  let active := (s.residents x.core).filter fun y => y.2.seated
  .next (if (leastGroup s.ageKey ripe).map (·.1) ≠ some g || s.promotedNow x.core then s
    else match leastGroup (fun y => y.stay :: s.ageKey y) active with
      | some (h, _) =>
        ((s.modGroup g fun y => { y with promo := some s.time }).modCore x.core fun k => { k with promoted := some s.time }).swapOut h
      | none => s)

/-- The swap of the group in `subject` is over (21/R342); the one that has left may fill a vacancy that arose meanwhile (R341). -/
def execSwapComplete (s : State) : Host.Outcome State Fault Refusal :=
  let x := s.group s.subject
  .next (if s.cycles x.core < x.stay then s
    else match x.sched with
      | .entering => s.modGroup s.subject fun y => { y with sched := .active, stay := s.cycles x.core }
      | .leaving => (s.modGroup s.subject fun y => { y with sched := .pending }).fill x.core
      | _ => s)

end Sys2Proof.Machine
end

