-- ==== Sys2Proof/Machine/Tender.lean ====
section
/-!
DEFINITION. Tenders (20/R317-R322, 22/R343-R352, 24/R364-R366): `bidf`, `tndr`, `tacc` and the steps of a round.
-/

namespace Sys2Proof.Machine

open Sys2Proof

/-! ### The bid formula (20/R318) -/

/-- A source code that names something. -/
def sourceCode (x : Nat) : Bool := x ≤ 8 || (16 ≤ x && x ≤ 23)

/-- An operation word: opcode, destination, sources A, B, C; none where a field breaks the layout. -/
def formulaOp (w : Nat) : Option (Nat × Nat × Nat × Nat × Nat) :=
  let op := w % 16
  let sa := w / 2 ^ 8 % 32
  let sb := w / 2 ^ 13 % 32
  let sc := w / 2 ^ 18 % 32
  if w / 2 ^ 23 ≠ 0 || w.testBit 7 || 6 < op || !sourceCode sa || !sourceCode sb
      || (if op = 6 then !sourceCode sc else sc != 0) then none
  else some (op, w / 2 ^ 4 % 8, sa, sb, sc)

/-- The formula of a 64 B image; none where it breaks R318. -/
def formulaOf (bs : List Byte) : Option Formula :=
  let n := fieldAt bs 8 1
  let word (k : Nat) : Nat := fieldAt bs (0x10 + 4 * k) 4
  let ops := (List.range n).filterMap fun k => formulaOp (word k)
  if n < 1 || 8 < n || fieldAt bs 9 7 ≠ 0 || fieldAt bs 0x30 16 ≠ 0 || ops.length ≠ n
      || (List.range 8).any (fun k => n ≤ k && word k != 0) then none
  else some { consts := (List.range 4).map fun k => fieldAt bs (2 * k) 2, ops }

/-- The inputs that a candidate measures (22/R346). -/
structure Inputs where
  r : Nat
  q : Nat
  d : Nat
  e : Nat
  t : Nat
deriving DecidableEq, Repr

/-- The value of a source code. -/
def Formula.source (f : Formula) (x : Inputs) (temps : Map Nat) (code : Nat) : Nat :=
  match code with
  | 0 => x.r | 1 => x.q | 2 => x.d | 3 => x.e | 4 => x.t
  | c => if c ≤ 8 then f.consts.getD (c - 5) 0 else temps.get (c - 16) 0

/-- One operation on unsigned 16-bit values. -/
def formulaStep (op a b c : Nat) : Nat :=
  match op with
  | 0 => min (a + b) 0xFFFF
  | 1 => a - b
  | 2 => min (a * b) 0xFFFF
  | 3 => a / 2 ^ (b % 16)
  | 4 => min a b
  | 5 => max a b
  | _ => if a = 0 then b else c

/-- The bid: t0 after the last operation. -/
def Formula.eval (f : Formula) (x : Inputs) : Nat :=
  let sat (y : Nat) : Nat := min y 0xFFFF
  let x := { r := sat x.r, q := sat x.q, d := sat x.d, e := sat x.e, t := sat x.t : Inputs }
  (f.ops.foldl (fun (m : Map Nat) o =>
    m.set o.2.1 (formulaStep o.1 (f.source x m o.2.2.1) (f.source x m o.2.2.2.1) (f.source x m o.2.2.2.2))) []).get 0 0

/-- `bidf` (20/R317, 22/R350, 24/R365): its waits for a bank, for another module, for an outstanding `lds` and for inbound bytes of its
image go on as waits to install the formula. -/
def execBidf (f : Form) (s : State) : Host.Outcome State Fault Refusal :=
  run (.bidf f) s fun _ f =>
    let i := Instr.bidf f
    let x := s.me.scalar f.a + f.imm
    if x.toNat % 64 ≠ 0 then .error (misaligned i s.me x)
    else if 2 ^ 52 ≤ x.toNat then .error (badAddress i s.me x)
    else if (s.part s.myPart).tender.isSome || s.me.splits.any (·.acq) then .error (.wait .formula)
    else match loadBytes i s x 64 (List.range 64) false with
      | .error (.wait .inbound) => .error (.wait .image)
      | .error (.wait _) => .error (.wait .formula)
      | .error (.held _ s) => .error (.held .formula s)
      | .error h => .error h
      | .ok (bs, s') => match formulaOf bs with
        | none => .error (illegal i s.me)
        | some fm => .ok (s'.modPart s.myPart fun p => { p with formula := some fm })

/-! ### `tndr` (20/R320, R322, 22/R350) -/

/-- The team that value(A) names. -/
def taskOf (v : Nat) : Nat × Nat := (v / 2 ^ 16 % 64, v % 2 ^ 16)

/-- A team of a slot is under tender or queued. -/
def Partition.tendering (x : Partition) (slot team : Nat) : Option Tender :=
  (x.tender.toList ++ x.waiting).find? fun t => t.slot == slot && t.team == team

/-- A team of a slot exists: it has been placed or awarded. -/
def State.teamIn (s : State) (p slot team : Nat) : Option (Nat × Team) :=
  s.teams.find? fun t => t.2.part == p && t.2.slot == slot && t.2.index == team && !t.2.steward

/-- A `tndr` of the team is refused with STATUS 3. -/
def State.badTask (s : State) (p slot team : Nat) : Bool :=
  match (s.part p).slots.get? slot with
  | none => true
  | some l => l.cls ≠ 1 || l.grid * l.teams ≤ team || team < l.oldest || (l.ended.get? team).isSome
      || (s.teamIn p slot team).isSome || ((s.part p).tendering slot team).isSome

/-- The queue of tenders with one more, in the order of issue cycles, then of group indices (22/R350). -/
def queueTender (t : Tender) (q : List Tender) : List Tender :=
  let ahead (u : Tender) : Bool := !lexLess [t.since.1, t.since.2] [u.since.1, u.since.2]
  q.filter ahead ++ t :: q.filter fun u => !ahead u

/-- `tndr` (20/R320-R322, 22/R344, R350). One that the reorder window has held back has the issue cycle in which its wait began. -/
def execTndr (f : Form) (s : State) : Host.Outcome State Fault Refusal :=
  runIf (.tndr f) s (fun _ f => (s.me.scalar f.a).toNat / 2 ^ 22 ≠ 0) fun _ f =>
    let i := Instr.tndr f
    let p := s.myPart
    let x := s.part p
    let (slot, team) := taskOf (s.me.scalar f.a).toNat
    let done (s : State) (w : Word) : Except Halt State :=
      let status := w.toNat % 256
      if f.imm2.getLsbD 16 && (status = 1 || status = 2) then .error (.fail { trapOf i s.me 20 w with tlm := 0 } s)
      else .ok (s.setScalar f.d w)
    match s.me.tres with
    | some w => done { s with me := { s.me with tres := none } } w
    | none =>
      if (x.tender.toList ++ x.waiting).any (·.gid == s.meId) then .error (.wait .tender)
      else if s.badTask p slot team then done s 3
      else if (x.slots.get slot {}).oldest + 255 < team then .error (.wait .reorder)
      else if f.imm = 0 then done s 1
      else if 16 ≤ x.waiting.length then .error (.wait .tender)
      else
        let since := if s.me.wait = some .reorder then s.me.waited else s.time
        let t : Tender := { gid := s.meId, since := (since, s.me.index), slot, team, mask := f.imm, win := f.imm2.toNat % 0x2000 }
        .error (.held .tender (s.modPart p fun x => { x with waiting := queueTender t x.waiting }))

/-- A `bidf` of the partition waits to install its formula (22/R350). -/
def State.formulaWaits (s : State) (p : Nat) : Bool :=
  s.groups.any fun g => corePart g.2.core == p && g.2.status == .running && (g.2.wait == some .formula || g.2.wait == some .image)

/-- The round of the partition in `subject` is announced: the next tender of the queue takes the Flume, once no `bidf` waits
(22/R344, R350). -/
def execTenderAnnounce (s : State) : Host.Outcome State Fault Refusal :=
  let p := s.subject
  let x := s.part p
  .next (match x.tender, x.waiting with
    | none, t :: rest =>
      if s.formulaWaits p then s
      else s.modPart p fun x => { x with tender := some { t with round := some s.time }, waiting := rest, reconf := false }
    | _, _ => s)

/-! ### Bids (20/R321, 22/R346, R347) -/

/-- Free resources of a core hold a tendered team (02/R25). -/
def State.holdsTask (s : State) (l : Launch) (c : Nat) : Bool :=
  l.groups.getD 0 0 ≤ s.slotsFree c && l.blocks.getD 0 0 ≤ s.blocksFree c && l.units.getD 0 0 ≤ s.scratchFree c
    && s.engineFree { mrole := l.mrole.getD 0 false } c && l.banks.all (s.bankFree (corePart c))

/-- A launch's ENERGY and PEAK fit what remains of a cluster's budget. -/
def State.weirFits (s : State) (l : Launch) (c : Nat) : Bool := s.weirAdmits { energy := l.energy, peak := l.peak } c

/-- The address at which the footprint window of a task begins (22/R346). -/
def footprint (l : Launch) (team : Nat) : Nat := (l.params + BitVec.ofNat 64 (16384 * team)).toNat

/-- The homes of a range in a partition's address space; none for a piece that does not translate. A refresh of a bank with tables hides
none. -/
def State.homesOf (s : State) (p va n : Nat) : List (Nat × Option Home) :=
  let s := s.idleBanks
  (piecesOf va n).map fun x =>
    (x.2, if 2 ^ 52 < x.1 + x.2 then none
      else match (s.translate p noCore x.1 { va := BitVec.ofNat 64 x.1, source := 7 } false false).1 with
        | .ok h _ => some h
        | _ => none)

/-- The spanning tree in force has the number of the cores retired (28/R400, R401). -/
def State.treeNow (s : State) : Nat := (s.cores.filter fun k => k.2.retired).length

/-- D of a candidate (22/R346): 255 for a home on another module, or where the first granule does not translate; else the hops, 32 more
on another terrace. `seen` is the distance that the event gives; without one it is `Config.hops` (log 43). -/
def State.distance (s : State) (l : Launch) (team c : Nat) (seen : Option Nat) : Nat :=
  match (s.homesOf (corePart c) (footprint l team) 64).head? with
  | some (_, some (.ram la)) =>
    match s.bankAt la with
    | some (q, b) =>
      seen.getD (Config.hops s.treeNow (coreCluster c) (4 * q + b / 16)) % 32 + (if q / 4 = corePart c / 4 then 0 else 32)
    | none => 255
  | _ => 255

/-- R of a candidate (22/R346): at most the granules that translate; how many of them the cache holds is free where the event does not
say (log 43). -/
def State.present (s : State) (l : Launch) (team c : Nat) (seen : Option Nat) : Nat :=
  let most := min 255 ((s.homesOf (corePart c) (footprint l team) 16384).foldl (fun n x => if x.2.isSome then n + (x.1 + 63) / 64 else n) 0)
  min most (seen.getD ((Config.freeWord s.free c).toNat % (most + 1)))

/-- The inputs that the state decides; R and D are measurements. -/
def State.inputs (s : State) (l : Launch) (c r d : Nat) : Inputs :=
  { r := min r 255, q := (s.residents c).length + (s.reservedOn c).1, d
    e := if s.weirFits l c then s.energyClass (coreCluster c) else 0, t := min (s.cluster (coreCluster c)).cls 2 }

/-- A candidate's bid, if it sends one. -/
def State.bidOf (s : State) (fm : Formula) (l : Launch) (c r d : Nat) : Option Bid :=
  let k := s.core c
  let x := s.inputs l c r d
  let b := fm.eval x
  if k.benched.isSome || k.inReset || k.retired || !(k.power == .on || k.power == .waking) || !s.holdsTask l c
      || (s.cluster (coreCluster c)).cls == 3 || b == 0xFFFF then none
  else some { core := c, bid := b, q := x.q, at_ := k.wasReset }

/-- The bids of the candidates of a tender; `rd` holds R and D by core, as far as the event gives them (22/R346). -/
def State.sample (s : State) (p : Nat) (t : Tender) (l : Launch) (fm : Formula) (rd : List (Nat × Nat × Nat)) : List Bid :=
  ((List.range 64).filter fun i => t.mask.getLsbD i).filterMap fun i =>
    let c := partCore p i
    let m := (rd.find? fun z => z.1 == c).map (·.2)
    s.bidOf fm l c (s.present l t.team c (m.map (·.1))) (s.distance l t.team c (m.map (·.2)))

/-- Six cycles after the announcement every candidate samples its inputs, bids and reserves (22/R344, R347). -/
def execBidSample (p : Nat) (rd : List (Nat × Nat × Nat)) (s : State) : Host.Outcome State Fault Refusal :=
  let x := s.part p
  .next (match x.tender with
    | none => s
    | some t => match t.round, x.slots.get? t.slot with
      | some a, some l =>
        if t.sampled || s.time < a + 6 then s
        else
          let bids : List Bid := match x.formula with
            | none => []
            | some fm => s.sample p t l fm rd
          let s := bids.foldl (fun (s : State) b => s.modCore b.core fun k => { k with reserved := some t.slot })
            { s with free := s.free + 1 }
          s.modPart p fun x => { x with tender := some { t with sampled := true, bids } }
      | _, _ => s)

/-- The better of two bids: lower value, then lower Q. -/
def Bid.beats (a b : Bid) : Bool := a.bid < b.bid || (a.bid == b.bid && a.q < b.q)

/-- The bids that no other beats. -/
def bestBids (bs : List Bid) : List Bid := bs.filter fun b => !bs.any fun a => a.beats b

/-- The winner under the pointer p, and whether the pointer decided (20/R321). -/
def winner (bs : List Bid) (p : Nat) : Option (Bid × Bool) :=
  let best := bestBids bs
  let lowest (xs : List Bid) : Option Bid := xs.foldl (fun b x => match b with
    | none => some x
    | some y => some (if x.core < y.core then x else y)) none
  ((lowest (best.filter fun b => p ≤ b.core)).or (lowest best)).map fun b => (b, 1 < best.length)

/-- The window closes WIN cycles after the announcement: the award goes out, or no bid came (20/R321, 22/R344). -/
def execTenderWindowClose (s : State) : Host.Outcome State Fault Refusal :=
  let p := s.subject
  let x := s.part p
  .next (match x.tender with
    | none => s
    | some t => match t.round with
      | none => s
      | some a =>
        if !t.sampled || t.award.isSome || s.time < a + t.win then s
        else match winner t.bids x.pointer with
          | none => s.endTender p t 1 0 0
          | some (b, tie) =>
            { (s.unreserve p (some b.core)).modPart p fun x => { x with
                tender := some { t with award := some b, bound := some s.order }, pointer := if tie then b.core + 1 else x.pointer } with
              order := s.order + 1 })

/-! ### The winner's answer (22/R348, R349) -/

/-- 1,100,000 cycles of benching (22/R349). -/
def benchCycles : Nat := 1_100_000

/-- A withdrawal remembered; the fourth within the limit benches the core (22/R349). -/
def State.withdrew (s : State) (c : Nat) : State :=
  let k := s.core c
  let last := (k.withdrew ++ [s.time]).drop (k.withdrew.length + 1 - 4)
  if last.length = 4 && s.time ≤ last.headD 0 + benchCycles then
    (s.modCore c fun k => { k with withdrew := [], benched := some s.time }).notify (corePart c) 0x49 (BitVec.ofNat 64 c)
  else s.modCore c fun k => { k with withdrew := last }

/-- A condition makes the winner withdraw. -/
def State.mustWithdraw (s : State) (p : Nat) (l : Launch) (b : Bid) : Bool :=
  let k := s.core b.core
  k.inReset || k.wasReset != b.at_ || (s.part p).reconf || s.standsDown p || !(k.power == .on || k.power == .waking) || !s.weirFits l b.core

/-- The award reaches the winner three cycles after the window (22/R344, R348). -/
def execAwardArrival (s : State) : Host.Outcome State Fault Refusal :=
  let p := s.subject
  let x := s.part p
  .next (match x.tender with
    | none => s
    | some t => match t.round, t.award, t.answer, x.slots.get? t.slot with
      | some a, some b, none, some l =>
        if s.time < a + t.win + 3 then s
        else
          let out := s.mustWithdraw p l b
          let mute := (s.core b.core).inReset
          let s := s.modPart p fun x => { x with tender := some { t with answer := some (!out, s.time), mute } }
          if out && !mute then (s.unreserve p none).withdrew b.core else s
      | _, _, _, _ => s)

/-- Benching of the core in `subject` ends (22/R349). -/
def execBenchExpiry (s : State) : Host.Outcome State Fault Refusal :=
  .next (match (s.core s.subject).benched with
    | some t => if t + benchCycles ≤ s.time then s.modCore s.subject fun k => { k with benched := none } else s
    | none => s)

/-- A withdrawal reaches the arbiter (20/R321, 22/R344): its report, then a new round without the core, or the end. A winner that is held
in reset and cannot answer has withdrawn in this cycle. -/
def execWithdrawalArrival (s : State) : Host.Outcome State Fault Refusal :=
  let p := s.subject
  .next (match (s.part p).tender with
    | none => s
    | some t => match t.award, t.answer with
      | some b, some (false, at_) =>
        if s.time < at_ + 3 then s
        else
          let s := if t.mute then (s.unreserve p none).withdrew b.core else s
          let s := s.notify p 0x46 (BitVec.ofNat 64 b.core) { team := t.team }
          let mask := BitVec.ofNat 64 (bitsNat 64 fun i => t.mask.getLsbD i && partCore p i != b.core)
          let t := { t with wdraws := t.wdraws + 1, wdcore := b.core, mask, bids := [], sampled := false, award := none
                            answer := none, mute := false, bound := none, round := some s.time }
          if t.wdraws < 3 then s.modPart p fun x => { x with tender := some t, reconf := false } else s.endTender p t 2 0 0
      | _, _ => s)

/-- An acceptance reaches the arbiter (22/R344, R347): the reservation becomes the team's placement and the `tndr` completes. -/
def execAcceptanceArrival (s : State) : Host.Outcome State Fault Refusal :=
  let p := s.subject
  .next (match (s.part p).tender with
    | none => s
    | some t => match t.award, t.answer, (s.part p).slots.get? t.slot with
      | some b, some (true, at_), some l =>
        if s.time < at_ + 7 then s
        else
          let id := s.nextId
          let team : Team :=
            { part := p, slot := t.slot, index := t.team, cohort := id + 1, pos := b.core / 128 % 2 * 8 + b.core % 8, core := b.core
              state := .awarded, launch := l.addr, params := l.params, n := l.units.getD 0 0, ngroups := l.groups.getD 0 0
              blocks := l.blocks.getD 0 0, mrole := l.mrole.getD 0 false, energy := l.energy, peak := l.peak
              order := t.bound.getD s.order }
          let cohort : Cohort :=
            { part := p, slot := t.slot, index := t.team, pair := b.core / 8 % 4, total := 1, teams := [(team.pos, id)]
              m := [], seed := s.order }
          let s := { (s.endTender p t 0 b.bid b.core).setTeam id team with nextId := id + 2, order := s.order + 1 }
          ({ s with cohorts := s.cohorts.set (id + 1) cohort } : State).tryPlace id
      | _, _, _ => s)

/-! ### `tacc` (24/R366) -/

/-- The record of a team. -/
def State.taccWord (s : State) (p slot team : Nat) : Word :=
  match (s.part p).slots.get? slot with
  | none => 0
  | some l =>
    if l.grid * l.teams ≤ team then 0
    else
      let aw := l.awards.get team (0, 0, 0)
      let wd := match (s.part p).tendering slot team with | some t => t.wdraws | none => aw.2.2
      let found := s.teamIn p slot team
      let out := found.any fun t => (t.2.state == .out || t.2.state == .restoring) && !t.2.light
      let st := match l.ended.get? team with
        | some e => e
        | none =>
          if ((s.part p).tendering slot team).isSome then 2
          else match found with
            | some t => if t.2.state == .bound then 1 else 3
            | none => 1
      fieldsWord [(st, 0), (wd, 8), (out.toNat, 10), (if 3 ≤ st then aw.1 else 0, 16), (if 3 ≤ st then aw.2.1 else 0, 48)]

/-- `tacc` (24/R366). -/
def execTacc (f : Form) (s : State) : Host.Outcome State Fault Refusal :=
  runIf (.tacc f) s (fun _ f => (s.me.scalar f.a).toNat / 2 ^ 22 ≠ 0) fun _ f =>
    let (slot, team) := taskOf (s.me.scalar f.a).toNat
    .ok (s.setScalar f.d (s.taccWord s.myPart slot team))

end Sys2Proof.Machine
end

