-- ==== Sys2Proof/Machine/Dram.lean ====
section
/-!
DEFINITION. What module firmware and the memory layer do by themselves (26/R383-R390): refresh, activation alerts, scrubs,
bus retries and line tests, page exchange and the remap step.
-/

namespace Sys2Proof.Machine

open Sys2Proof

/-! ### Refresh and activation alerts (26/R383) -/

/-- The 180 ns of an alert, in the same cycles. -/
def alertCycles : Nat := 198

def State.modBank (s : State) (p b : Nat) (f : Bank → Bank) : State :=
  s.modPart p fun x => { x with banks := x.banks.set b (f (s.bank p b)) }

/-- A refresh is due: the slice postpones it, which it may do up to 8 times, or carries it out. -/
def execBankRefresh (p b : Nat) (s : State) : Host.Outcome State Fault Refusal :=
  let k := s.bank p b
  .next (if s.time < k.due + refreshPeriod then s
    else
      let later := k.postponed < 8 && (Config.freeWord s.free 0).getLsbD 0
      let s : State := { s with free := s.free + 1 }
      s.modBank p b fun k =>
        let k := { k with due := s.time }
        if later then { k with postponed := k.postponed + 1 } else { k with busy := max k.busy s.time + refreshCycles })

/-- A bank is available again. -/
def execRefreshComplete (p b : Nat) (s : State) : Host.Outcome State Fault Refusal :=
  .next (if (s.bank p b).busy ≤ s.time then s.modBank p b fun k => { k with busy := 0, alert := false } else s)

/-- A postponed refresh is carried out. -/
def execPostponedRefresh (p b : Nat) (s : State) : Host.Outcome State Fault Refusal :=
  let k := s.bank p b
  .next (if 0 < k.postponed && k.busy ≤ s.time then
    s.modBank p b fun k => { k with postponed := k.postponed - 1, busy := s.time + refreshCycles } else s)

/-- An activation-count alert: one more refresh management at the end of a block, or a block of its own. -/
def execActivationAlert (p b : Nat) (s : State) : Host.Outcome State Fault Refusal :=
  .next (s.modBank p b fun k =>
    if k.alert && s.time < k.busy then { k with busy := k.busy + refreshCycles }
    else if k.postponed = 8 then
      { k with alert := true, postponed := 0, busy := max (s.time + alertCycles) k.busy + 9 * refreshCycles }
    else { k with alert := true, busy := max (s.time + alertCycles) k.busy + refreshCycles })

/-! ### Scrubs (26/R387, R388, R390) -/

/-- Damage of a column: what the schedule adds never lessens it. -/
def State.damageColumn (s : State) (la syms : Nat) : State :=
  if syms = 0 then s
  else { s with damaged := s.damaged.set (la / 64) (max syms (s.damaged.get (la / 64) 0)) }

/-- The patrol reads every column of a partition once in 12 hours. -/
def patrolPeriod : Nat := 12 * 3600 * 1_100_000_000

/-- The last column of a partition's windows: the patrol's pass ends behind it. -/
def patrolEnd (p : Nat) : Nat := (p + 1) * partWindow - 64

/-- A patrol's pass has read the column of a local address. -/
def State.patrolled (s : State) (p la : Nat) : State :=
  s.modPart p fun x =>
    if patrolEnd p ≤ la then { x with patrolAt := s.time, patrolCol := 0 } else { x with patrolCol := max x.patrolCol (la / 64 + 1) }

/-- A patrol scrub reads one column of a partition, which has `syms` symbols in error: it corrects them, or logs and
reports that it cannot. -/
def execPatrolScrub (p la syms : Nat) (s : State) : Host.Outcome State Fault Refusal :=
  let w : Who := { va := 0, source := 5 }
  .next (match s.bankAt la with
    | none => if la / partWindow = p then s.patrolled p la else s
    | some (q, b) =>
      if q ≠ p || s.bankBusy la then s
      else
        let s := (s.damageColumn la syms).patrolled p la
        match s.meetBeat la w with
        | some s => s
        | none => match s.damaged.get? (la / 64) with
          | none => s
          | some n => if n ≤ 3 then s.correct p b (la / 64) n w else s.logArray p (64 * (la / 64)) 3 b n w)

/-- What the patrol of a partition reads before its pass ends, where 12 hours have passed: the next damaged column, then the end. -/
def State.patrolNext (s : State) (p : Nat) : Option Nat :=
  let x := s.part p
  if s.time < x.patrolAt + patrolPeriod then none
  else
    let left := s.damaged.keys.filter fun c => 64 * c / partWindow == p && x.patrolCol ≤ c
    some (left.foldl (fun m c => min m (64 * c)) (patrolEnd p))

/-- A scrub of the SRAM beside a core meets a word with `bits` bits in error: one is corrected and counted; two stay, for
the access that meets them. -/
def execSramScrub (c _off bits : Nat) (s : State) : Host.Outcome State Fault Refusal :=
  .next (if bits = 1 then s.modPart (corePart c) fun x => { x with sramcorr := x.sramcorr + 1 } else s)

/-! ### Bus beats (26/R389) -/

def State.bus (s : State) (p b : Nat) : Bus := (s.part p).buses.get b {}

def State.modBus (s : State) (p b : Nat) (f : Bus → Bus) : State :=
  s.modPart p fun x => { x with buses := x.buses.set b (f (x.buses.get b {})) }

/-- The maker of an access, from what a report names. -/
def Who.ofReport (r : Option Report) : Who :=
  match r with
  | some r => { va := 0, source := 0, team := r.team, group := r.group, launch := r.launch }
  | none => { va := 0, source := 0 }

/-- A retry of a beat: whether it succeeds is a free bit. Its success is logged where no other of the bus has come within 1 ms (26/R392);
the third failure stops the bus for its line test. -/
def State.retryBeat (s : State) (p bus : Nat) (e : Beat) (owner : Option Report) : State :=
  let beat := { e with retries := e.retries + 1 }
  let good := (Config.freeWord s.free 0).getLsbD 0
  let s : State := { s with free := s.free + 1 }
  if good then
    let quiet := (s.bus p bus).last.any fun t => s.time < t + msCycles
    (if quiet then s else s.logTransfer p bus 0 beat (Who.ofReport owner)).modBus p bus fun b =>
      { b with resend := none, last := some s.time }
  else if beat.retries < 3 then s.modBus p bus fun b => { b with resend := some (s.time + 2, beat, owner) }
  else s.modBus p bus fun b => { b with resend := none, testing := some (s.time, beat, owner) }

/-- A beat fails parity, of an access of the group in `subject`, where there is one, and is sent again 2 cycles later; then each of its
up to three retries, 2 cycles apart. -/
def execBeatParityFail (p bus grp la : Nat) (s : State) : Host.Outcome State Fault Refusal :=
  let b := s.bus p bus
  .next (if b.testing.isSome then s
    else match b.resend with
    | none =>
      let owner := (s.group? s.subject).map s.groupReport
      s.modBus p bus fun b => { b with resend := some (s.time + 2, { col := la / 64, group := grp, retries := 0 }, owner) }
    | some (t, e, owner) => if t ≤ s.time then s.retryBeat p bus e owner else s)

/-- 2 µs after the third failure the bus has tested its lines: `line` is the single failing one of the parity group, if there is one; it
is replaced, and the beat is sent once more, which fails where `again` says so. A beat that fails waits for the access that meets it. -/
def execBusLineTest (p bus : Nat) (line : Option Nat) (again : Bool) (s : State) : Host.Outcome State Fault Refusal :=
  let b := s.bus p bus
  .next (match b.testing with
    | none => s
    | some (t, beat, owner) =>
      if s.time < t + 2 * usCycles then s
      else
        let fail (b : Bus) (e : Beat) : Bus := { b with testing := none, failed := b.failed ++ [e] }
        match line.filter fun n => n / 32 = beat.group && 0 < b.spares with
        | none => s.modBus p bus fun b => fail b beat
        | some n =>
          let beat := { beat with line := n, spare := 8 - b.spares }
          let s := s.modBus p bus fun b => { b with testing := none, spares := b.spares - 1 }
          if again then s.modBus p bus fun b => fail b beat else s.logTransfer p bus 1 beat (Who.ofReport owner))

/-! ### Page exchange (26/R384) -/

/-- The address of the entry of a leaf in the tree: level 2 for a large page, level 3 for a small one. -/
def State.leafSpot (s : State) (p va : Nat) (large : Bool) : Option Nat :=
  (s.entrySpot p va).bind fun a =>
    if large then some a
    else
      let e := Memory.num s.mem (s.located a) 8
      if e % 4 = 3 then some (e % 2 ^ 40 / 2 ^ 8 * 2 ^ 8 + 8 * (va / 2 ^ 16 % 2 ^ 5)) else none

/-- An exchange starts where the page is a Normal page of the module that is not pinned, and the new place is a page of the
partition's interleaved window apart from the old one, below what firmware keeps in reserve (26/R385). -/
def State.startExchange (s : State) (p va la : Nat) : State :=
  match s.treeWalk p va { va := 0, source := 8 } with
  | (.leaf l, s) =>
    let size := pageSize l.large
    let old := leafAddr l.entry
    let fits := la % size == 0 && la / partWindow == p && la % partWindow + size ≤ (s.part p).interSize
      && la % partWindow + size ≤ (64 - (s.part p).rsv) * (bankBytes - (s.part p).spool) && (la + size ≤ old || old + size ≤ la)
    if s.leafOk l && !leafPin l.entry && !leafC l.entry && leafMt l.entry ≤ 1 && leafModule l.entry == s.module
        && old / partWindow == p && fits then
      s.modPart p fun x => { x with exch := some { va := l.base, old, new := la, size, done := 0 } }
    else s
  | (_, s) => s

/-- The firmware's exchange as the maker of an access. -/
def exchWho (va : Nat) : Who := { va := BitVec.ofNat 64 va, source := 8 }

/-- A granule is copied under its block's size code, which moves with the first of its granules; one that the block does not store has no
column to read or to write (26/R379). Damage that cannot be corrected goes with the column; an error that the copy meets is logged with
SOURCE 8. -/
def State.moveGranule (s : State) (e : Exchange) : State :=
  let src := e.old + 64 * e.done
  let dst := e.new + 64 * e.done
  let code := s.codeOf src
  let reads := code != 3 && storedAt code src == src
  let s := if reads then (s.readColumn src (exchWho (e.va + 64 * e.done))).2 else s
  let bad := if reads then s.damaged.get? (src / 64) else none
  { s with
    codes := if e.done % 4 ≠ 0 then s.codes else if code = 0 then s.codes.erase (dst / 256) else s.codes.set (dst / 256) code
    mem := Memory.writeN s.mem dst (Memory.readN s.mem src 64)
    damaged := match bad with
      | some n => (s.damaged.erase (src / 64)).set (dst / 64) n
      | none => if reads || e.done % 4 = 0 then s.damaged.erase (dst / 64) else s.damaged }

/-- An access that a bank or the link holds touches some of n bytes at la: the exchange waits for it. -/
def State.waitedFor (s : State) (p la n : Nat) : Bool :=
  let meet (a k : Nat) : Bool := a < la + n && la < a + k
  s.inbox.any (fun r => meet r.la (homeSpan r.op)) || s.hostQs.any fun q => q.2.any fun r => r.1 == p && match r.2 with
    | .write off bytes => meet (p * partWindow + off) bytes.length
    | .read off k => meet (p * partWindow + off) k
    | .atomic off _ wide _ _ => meet (p * partWindow + off) (if wide then 8 else 4)
    | _ => false

/-- A home at the old place of a page that has been exchanged. -/
def Home.moved (e : Exchange) (h : Home) : Home :=
  match h with
  | .ram la => .ram (if e.old ≤ la && la < e.old + e.size then la - e.old + e.new else la)
  | h => h

/-- Translations that the groups of a module keep for accesses still to be made name the new place of an exchanged page. -/
def Group.moved (e : Exchange) (g : Group) : Group :=
  let go (t : Word × Home × Bool) : Word × Home × Bool := (t.1, t.2.1.moved e, t.2.2)
  { g with granted := g.granted.map go, win := g.win.map fun w => { w with found := w.found.map go } }

/-- The place of the leaf of a page under exchange. -/
def State.exchSpot (s : State) (p : Nat) (e : Exchange) : Option Nat := s.leafSpot p e.va (e.size == pageSize true)

/-- The end of an exchange: LADDR is replaced where the leaf still names the old place, and the buffers drop it; the old place is free,
and accesses translated before it are made at the new one. -/
def State.endExchange (s : State) (p : Nat) (e : Exchange) : State :=
  let s' := match s.exchSpot p e with
    | none => s
    | some a =>
      let x := BitVec.ofNat 64 (Memory.num s.mem (s.located a) 8)
      if leafAddr x = e.old then s.writeRuns a (exchWho e.va) [(0, bytesOf (x.toNat - e.old + e.new) 8)] else s
  let s := (s'.modPart p fun x => { x with exch := none }).invalidatePart p e.va e.size
  { s with me := s.me.moved e, others := s.others.update fun _ g => g.moved e }

/-- A step of an exchange waits: for accesses to the old place that have reached it, or for a bank (26/R383, R384). -/
def State.exchWaits (s : State) (p : Nat) (e : Exchange) : Bool :=
  if e.size ≤ 64 * e.done then s.waitedFor p e.old e.size || (s.exchSpot p e).any s.bankBusy
  else
    let o := 64 * e.done
    s.waitedFor p (e.old + o) 64 || s.bankBusy (e.old + o) || s.bankBusy (e.new + o)

/-- Firmware exchanges the page at va into the place at la: the first event starts, each of the next moves a granule, and
the last replaces the leaf. -/
def execPageExchange (p va la : Nat) (s : State) : Host.Outcome State Fault Refusal :=
  .next (match (s.part p).exch with
    | none => s.startExchange p va la
    | some e =>
      if s.exchWaits p e then s
      else if e.size ≤ 64 * e.done then s.endExchange p e
      else (s.moveGranule e).modPart p fun x => { x with exch := some { e with done := e.done + 1 } })

/-! ### Reconfigurations (26/R386 steps 1 and 5, 03/R55, 22/R348) -/

/-- The steward team lost to a fault (28/R401, R411): its end is reported in STRAP, STATE becomes 3, vector 0 is raised. -/
def State.loseSteward (s : State) (t : Nat) : State :=
  let x := s.team t
  (s.endTeam t 1).modPart x.part fun p => { p with
    state := 3, msi := p.msi ++ [0]
    strap := { team := x.index, tcause := 0x45, tval := 1, launch := x.launch } }

/-- A team ended by the hardware as by ENDTEAM, with TVAL 1. -/
def State.loseTeam (s : State) (t : Nat) : State := if (s.team t).steward then s.loseSteward t else s.endTeam t 1

/-- A change of a partition's banks or routes is over: buffers are invalid, held gating requests are cancelled. -/
def State.reconfigured (s : State) (p : Nat) : State :=
  let s := s.invalidatePart p 0 (2 ^ 52)
  let cancel (c : Nat) (k : Core) : Core := if corePart c = p then { k with request := false, grantAt := none } else k
  { s with cores := s.cores.update cancel }

/-- Whether a partition stands still for a remap step: windows drained but for those of parked groups, matrix steps and copies at their
end. -/
def State.drained (s : State) (p : Nat) : Bool :=
  s.groups.all (fun g => corePart g.2.core != p || g.2.win.isEmpty || g.2.parked.isSome)
    && s.teams.all (fun t => t.2.part != p || t.2.engine.isEmpty)
    && s.cores.all (fun c => corePart c.1 != p || c.2.copies.all fun y => y.2.frozen.isSome)

/-- Bits of a map. -/
def onBits (m : Word) : Nat := ((List.range 64).filter m.getLsbD).length

/-- The compute-capable pages of half h of a partition, in every address space, lose their contents (26/R386 step 3). -/
def State.loseHalf (s : State) (p h : Nat) : State :=
  let lost := s.parts.keys.flatMap fun q => ((s.computeLeaves q).filter fun l =>
    leafAddr l.entry / partWindow == p && leafHalf l == h).map fun l => (q, l)
  let s := lost.foldl (fun s x =>
    let off := leafAddr x.2.entry % partWindow - directBase
    (s.writeLeaf x.1 x.2.base lostLeaf (exchWho x.2.base)).markStripe p h (off % 2 ^ 26 / 65536) false) s
  lost.foldl (fun s x => s.invalidatePart x.1 x.2.base (2 ^ 21)) s

/-- Teams with a register in a bank. -/
def State.bankTeams (s : State) (p b : Nat) : List Nat :=
  ((s.bank p b).owner.values.filterMap fun o => (s.group? o.1).map (·.team)).eraseDups

/-- The remap step to a new map (26/R386). Leaves keep their addresses, so the relayout changes no byte that an address
reads; a tender in progress sees it (log 37). -/
def State.remap (s : State) (p : Nat) (map : Word) : State :=
  let x := s.part p
  let gone := (List.range 64).filter fun b => x.bankmap.getLsbD b && !map.getLsbD b
  let halves := (gone.map (· / 32)).eraseDups
  let teams := (gone.flatMap (s.bankTeams p)).eraseDups
  let s := halves.foldl (fun s h => s.loseHalf p h) s
  let s := teams.foldl State.loseTeam s
  let s := gone.foldl (fun s b => s.modBank p b fun k => { k with regs := [], owner := [] }) s
  let s := s.modPart p fun x => { x with bankmap := map, remaps := x.remaps + 1, remapTo := none, reconf := x.tender.isSome }
  (s.reconfigured p).notify p 0x4C map

/-- A remap step, where firmware may make it: once the partition stands still, for which its groups stop (step 1). -/
def execRemapStep (p : Nat) (map : Word) (s : State) : Host.Outcome State Fault Refusal :=
  .next (if onBits map < 64 - (s.part p).rsv then s
    else if s.drained p then s.remap p map
    else s.modPart p fun x => { x with remapTo := some map })

end Sys2Proof.Machine
end

