-- ==== Sys2Proof/Machine/Host.lean ====
section
/-!
DEFINITION. The host's side of a partition (21/R327, R328, 18/R302, 28/R405-R411): the inbound window, the memory window,
the control page, START, STOP, RESTART, the signal page; and the join check as a step of its own (02/R18).
-/

namespace Sys2Proof.Machine

open Sys2Proof

/-- The group whose turn it is stands at its top join: the second path starts, or the entry pops; unequal loop depths are an
illegal instruction of the fetch there (02/R18, 08/R131). -/
def State.joinCheck (s : State) : State :=
  match s.me.join with
  | none => s
  | some (.ok g) => { s with me := g }
  | some (.error _) => s.takeTrap s.meId (fetchTrap 6 4 (s.me.pc.zeroExtend 64) s.me)

/-- The join check of the group whose turn it is. -/
def execJoinArrival (s : State) : Host.Outcome State Fault Refusal := .next s.joinCheck

/-! ### The inbound window (21/R327, R328) -/

/-- MARK passes the bytes that have landed in an unbroken run. -/
def Inbound.passLanded (q : Inbound) : Nat → Inbound
  | 0 => q
  | n + 1 =>
    if q.mark < q.cons + q.size && q.landed.contains (q.mark % q.size) then { q with mark := q.mark + 1 }.passLanded n else q

/-- A host byte for ring offset o of a queue that is on lands, or is refused. -/
def Inbound.land (q : Inbound) (o : Nat) : Option Inbound :=
  if q.cons + q.size ≤ congruentFrom q.mark o q.size then none
  else some ({ q with landed := if q.landed.contains o then q.landed else o :: q.landed }.passLanded q.size)

/-- The bytes of one host write, in ascending order; the first refused one with its queue. -/
def State.ringBytes (p : Nat) : State → Nat → Option (Nat × Nat) → List Byte → Option (Nat × Nat) × State
  | s, _, r, [] => (r, s)
  | s, off, r, b :: bs =>
    let put (s : State) : State := s.modPart p fun x => { x with ring := x.ring.set off b }
    if off < 0x1000 || 0x1_0000 ≤ off then State.ringBytes p s (off + 1) r bs
    else match (s.part p).ringAt off with
      | none => State.ringBytes p (put s) (off + 1) r bs
      | some (n, q) => match q.land (off - q.base) with
        | some q => State.ringBytes p ((put s).modQueue p n fun _ => q) (off + 1) r bs
        | none =>
          State.ringBytes p (s.modQueue p n fun q => { q with drop := q.drop + 1, ovf := true }) (off + 1)
            (r.or (some (off, n))) bs

/-- The bytes of a host write land in the inbound window, or are refused with a report. -/
def State.landRing (s : State) (p off : Nat) (bytes : List Byte) : State :=
  match State.ringBytes p s off none bytes with
  | (none, s) => s
  | (some (o, n), s) => s.notify p 0x47 (BitVec.ofNat 64 o) { team := n }

/-- The store at descriptor offset 0x08 (21/R327). -/
def execDescriptorControlStore (p q : Nat) (x : Word) (s : State) : Host.Outcome State Fault Refusal :=
  .next (s.controlStore p q x)

/-- A write of CONS (21/R327, R328). -/
def execConsWrite (p q : Nat) (x : Word) (s : State) : Host.Outcome State Fault Refusal := .next (s.consStore p q x)

/-- A store to another descriptor field (21/R327). -/
def execDescriptorWrite (p q off : Nat) (x : Word) (s : State) : Host.Outcome State Fault Refusal :=
  .next (s.fieldStore p q off x)

/-! ### The memory window (18/R302, 28/R406) -/

/-- The host as the maker of an access. -/
def hostWho : Who := { va := 0, source := 4 }

/-- Whether a host access lies in DRAM of the window. -/
def State.windowOk (s : State) (p off n : Nat) : Bool :=
  off + n ≤ partWindow && (List.range n).all fun j => (s.bankAt (p * partWindow + off + j)).isSome

/-- A bank that a range lies in is refreshing. -/
def State.rangeBusy (s : State) (la n : Nat) : Bool := (List.range n).any fun j => s.bankBusy (la + j)

/-- A host request waits: its bank is refreshing, it is held at the link for a reconfiguration (26/R386), or it would land in the inbound
window before a CONS write of the same cycle (21/R327). Reads of the control page are not held. -/
def State.hostWaits (s : State) (p : Nat) (r : HostReq) : Bool :=
  match r with
  | .write off bytes => s.standsDown p || s.rangeBusy (p * partWindow + off) bytes.length
  | .read off n => s.standsDown p || s.rangeBusy (p * partWindow + off) n
  | .atomic off _ wide .. => s.standsDown p || s.rangeBusy (p * partWindow + off) (if wide then 8 else 4)
  | .ring _ _ since => s.standsDown p || s.time ≤ since
  | .page bar _ _ => bar != 4 && s.standsDown p

/-- A byte of the MSI-X table that the host has not written, and a byte of the pending-bit array: PCI Express lays them out, the spec does
not (28/R406; log 63). A message is sent at once, so that no bit is pending. -/
def msixTable (o : Nat) : Bool := 0x800 ≤ o && o < 0x880

/-- A byte of the control page as the host reads it: CMD reads 0, and so does every byte not listed (00/R5). -/
def Partition.controlByte (x : Partition) (p o : Nat) : Byte :=
  if msixTable o then (x.msix.get? o).getD (Config.freeByte p o)
  else if 0x40 ≤ o && o < 0x80 then (x.strap.bytes[o - 0x40]?).getD 0
  else ((fieldBytes 0x40 [(0x00, 8, x.stewrec), (0x08, 8, x.root), (0x14, 1, x.state), (0x15, 1, x.service), (0x18, 8, x.winva)
    , (0x20, 8, x.logva), (0x28, 8, x.sigva), (0x30, 4, x.cto)])[o]?).getD 0

/-- A host request is applied: a write that meets unused space is not applied; a read there completes with an error, and so does an
AtomicOp there or at an address that is no multiple of its size. -/
def State.hostApply (s : State) (p : Nat) (r : HostReq) : State :=
  let reply (s : State) (off : Nat) (x : HostStatus) (bs : List Byte) : State :=
    { s with outbox := s.outbox ++ [.hostData p off x bs] }
  match r with
  | .write off bytes => if s.windowOk p off bytes.length then s.writeRuns (p * partWindow + off) hostWho [(0, bytes)] else s
  | .read off n =>
    if !s.windowOk p off n then reply s off .unsupported []
    else match s.readOffs (p * partWindow + off) hostWho (List.range n) with
      | .ok (bs, s) => reply s off .success bs
      | .error (_, s) => reply s off .aborted []
  | .atomic off fn wide c e =>
    let n := if wide then 8 else 4
    if !s.windowOk p off n || off % n ≠ 0 || !(fn = 0 || fn = 6 || fn = 7) then reply s off .unsupported []
    else match s.applyHome (p * partWindow + off) hostWho (.atoms fn (if wide then .u64 else .u32) [(0, c, e)]) with
      | .ok (bs, s) => reply s off .success bs
      | .error (_, s) => reply s off .aborted []
  | .ring off bytes _ => s.landRing p off bytes
  | .page bar off n =>
    let byte (o : Nat) : Byte := if bar ≠ 4 then (s.part p).windowByte o else (s.part p).controlByte p o
    { s with outbox := s.outbox ++ [.hostPage p bar off .success ((List.range n).map fun j => byte (off + j))] }

/-- The virtual functions of a link's physical function (28/R405). -/
def totalVFs : Nat := 24

/-- The link of a partition's virtual function (28/R405). -/
def linkOfPart (p : Nat) : Nat := p / totalVFs

/-- Host requests are applied in the order in which one link delivers them (18/R302), those of its other virtual functions and windows
among them; one that waits holds those behind it. -/
def State.hostRun (k : Nat) : List (Nat × HostReq) → State → State
  | [], s => s
  | (p, r) :: rest, s =>
    if s.hostWaits p r then { s with hostQs := s.hostQs.set k ((p, r) :: rest) } else State.hostRun k rest (s.hostApply p r)

/-- The requests of a link that wait, and those of a list after them. -/
def State.hostDrain (s : State) (k : Nat) (rs : List (Nat × HostReq)) : State :=
  State.hostRun k (s.hostQs.get k [] ++ rs) { s with hostQs := s.hostQs.erase k }

/-- A host request to the virtual function of a partition, which one link alone reaches (28/R405). -/
def State.hostSend (s : State) (p : Nat) (r : HostReq) : State := s.hostDrain (linkOfPart p) [(p, r)]

/-- The partition of a virtual function of a link (28/R405). -/
def partOfVF (link vf : Nat) : Option Nat :=
  if link < 2 && 1 ≤ vf && vf ≤ totalVFs then some (totalVFs * link + vf - 1) else none

/-- A host request to a virtual function of a link; one that does not exist answers nothing. -/
def State.hostTo (s : State) (link vf : Nat) (r : HostReq) : State :=
  match partOfVF link vf with
  | some p => s.hostSend p r
  | none => s

/-- A host write to the inbound window of a partition: it lands after the CONS writes of its cycle (21/R327). -/
def execHostRingWrite (p off : Nat) (bytes : List Byte) (s : State) : Host.Outcome State Fault Refusal :=
  .next (s.hostSend p (.ring off bytes s.time))

/-- A host write through BAR 2. -/
def execHostWindowWrite (p off : Nat) (bytes : List Byte) (s : State) : Host.Outcome State Fault Refusal :=
  .next (s.hostSend p (.write off bytes))

/-- A host read through BAR 2: its completion carries the bytes, or an error. -/
def execHostWindowRead (p off n : Nat) (s : State) : Host.Outcome State Fault Refusal :=
  .next (s.hostSend p (.read off n))

/-! ### The control page (28/R408) -/

/-- A host write of 8 bytes at a multiple of 8, or of 4 at another multiple of 4, to the MSI-X table (28/R406; log 63). -/
def State.msixWrite (s : State) (p off : Nat) (x : Word) : State :=
  let n := if off % 8 = 0 then 8 else 4
  if off % 4 ≠ 0 || !msixTable off then s
  else s.modPart p fun y => { y with msix := (bytesOf x.toNat n).zipIdx.foldl (fun m b => m.set (off + b.2) b.1) y.msix }

/-- A host write to a field of the control page other than CMD, or to the MSI-X table. -/
def execControlPageWrite (p off : Nat) (x : Word) (s : State) : Host.Outcome State Fault Refusal :=
  let y := s.part p
  let v := x.toNat
  let free := y.state == 0 || y.state == 4
  let cto := v % 2 ^ 32
  .next (match off with
    | 0x00 => if free then s.modPart p fun y => { y with stewrec := v } else s
    | 0x08 => if free then s.modPart p fun y => { y with root := v } else s
    | 0x18 => if free then s.modPart p fun y => { y with winva := v } else s
    | 0x20 => if free then s.modPart p fun y => { y with logva := v } else s
    | 0x28 => if free then s.modPart p fun y => { y with sigva := v } else s
    | 0x30 => if 1 ≤ cto && cto ≤ 100 then s.modPart p fun y => { y with cto } else s
    | _ => s.msixWrite p off x)

/-! ### The end of a partition's work (28/R411) -/

/-- A core of the partition without teams. -/
def Core.idle (k : Core) : Core :=
  { k with
    freeBlocks := 255, emergency := true, fbuf := [], copies := [], request := false, grantAt := none, withdrew := [], benched := none
    reserved := none }

/-- What a partition keeps when its work ends: the host's fields, the logs, the hardware's condition. -/
def Partition.ended (x : Partition) : Partition :=
  { x with
    state := 0, service := 0, trbase := 0, trsize := 64, trmark := 0, trtail := 0, notice := false, reports := [], cmds := []
    queues := x.queues.update fun _ q => { q with on := false }
    slots := [], formula := none, pointer := 0, tender := none, waiting := [], cap := 7, reconf := false, remapTo := none
    banks := x.banks.update fun _ k => { k with regs := [], owner := [] } }

/-- A pending host request that asks for a completion gets Unsupported Request (28/R411). -/
def HostReq.unsupported (p : Nat) (r : HostReq) : Option Outgoing :=
  match r with
  | .read off _ | .atomic off .. => some (.hostData p off .unsupported [])
  | .page bar off _ => some (.hostPage p bar off .unsupported [])
  | .ring .. | .write .. => none

/-- Every launch and team of a partition ends without a report. -/
def State.quit (s : State) (p : Nat) : State :=
  let mine := s.groups.filter fun g => corePart g.2.core == p
  let s := mine.foldl (fun s g => s.drainWc g.1) s
  let teams := s.teams.filter fun t => t.2.part == p
  let s : State := { s with
    others := s.others.filter fun g => corePart g.2.core != p
    teams := s.teams.filter fun t => t.2.part != p
    cohorts := s.cohorts.filter fun k => k.2.part != p
    culverts := s.culverts.filter fun c => corePart (c.1 / 16) != p
    cores := s.cores.update fun c k => if corePart c = p then k.idle else k
    spDamage := s.spDamage.filter fun d => !(teams.any (·.1 == d.1) || mine.any fun g => saveSlotKey g.1 == d.1) }
  let s : State := if s.me.status ≠ .absent && corePart s.me.core = p then { s with me := Group.vacant, meId := 0 } else s
  s.modPart p Partition.ended

/-- The host's requests to a partition's function that are still pending are over (28/R411). -/
def State.dropPending (s : State) (p : Nat) : State :=
  { s with
    outbox := s.outbox ++ (s.hostQs.get (linkOfPart p) []).filterMap fun r => if r.1 = p then r.2.unsupported p else none
    hostQs := s.hostQs.update fun _ q => q.filter (·.1 != p) }

/-- A partition's work ends, and with it what the host has asked of its function. -/
def State.halt (s : State) (p : Nat) : State := (s.quit p).dropPending p

/-- STOP (28/R408): as a Function Level Reset of the partition in `subject`. -/
def execStop (s : State) : Host.Outcome State Fault Refusal := .next (s.halt s.subject)

/-- A Function Level Reset of the virtual function of the partition in `subject` (28/R411). -/
def execFunctionLevelReset (s : State) : Host.Outcome State Fault Refusal := .next (s.halt s.subject)

/-! ### Starting (28/R409) -/

/-- A start fails: STATE 4, and the first offending address in STRAP. -/
def State.startFails (s : State) (p va : Nat) : State :=
  s.modPart p fun x => { x with state := 4, service := 0, cap := 7, strap := { tcause := 0x48, tval := BitVec.ofNat 64 va } }

/-- An address that START does not take: not a multiple of n, or beyond 52 bits. -/
def badStart (a n : Nat) : Bool := a % n != 0 || 2 ^ 52 ≤ a

/-- Some byte of the 64 KiB at an address is mapped by the partition's tree, or by a page installed before it. -/
def State.startMapped (s : State) (p a : Nat) (before : List Nat) : Bool :=
  before.contains a || (match (s.treeWalk p a { va := 0, source := 7 }).1 with | .invalid => false | _ => true)

/-- A table that START reads for those checks lies in a bank that is refreshing (26/R383). -/
def State.startBusy (s : State) (p : Nat) : Bool :=
  let x := s.part p
  [x.winva, x.logva, x.sigva].any fun a => (s.treeWalk p a { va := 0, source := 7 }).1 == .busy

/-- The first address of the control page that keeps a partition from starting. -/
def State.startAddress (s : State) (p : Nat) : Option Nat :=
  let x := s.part p
  let own := match s.bankAt x.root with | some (q, _) => q == p | none => false
  ([(x.stewrec, badStart x.stewrec 64), (x.root, x.root % 65536 != 0), (x.winva, badStart x.winva 65536)
    , (x.logva, badStart x.logva 65536), (x.sigva, badStart x.sigva 65536), (x.root, !own)
    , (x.winva, s.startMapped p x.winva []), (x.logva, s.startMapped p x.logva [x.winva])
    , (x.sigva, s.startMapped p x.sigva [x.winva, x.logva])].find? (·.2)).map (·.1)

/-- The cores of a partition that are live, by index. -/
def State.liveCores (s : State) (p : Nat) : List Nat := (List.range 64).filter fun i => !(s.core (partCore p i)).retired

/-- The 64 bytes of the partition block. -/
def State.partitionBlock (s : State) (p : Nat) : List Byte :=
  let x := s.part p
  fieldBytes 64 [(0, 8, x.winva), (8, 8, x.logva), (0x10, 8, x.sigva), (0x18, 2, p), (0x1A, 1, x.service)
    , (0x1C, 4, s.module), (0x20, 8, bitsNat 64 fun i => (s.liveCores p).contains i)]

/-- The steward team of a checked record, before its placement on the lowest live core (21/R326). -/
def State.bindSteward (s : State) (p : Nat) (rb : List Byte) (t : TeamRec) : State :=
  let x := s.part p
  let c := partCore p ((s.liveCores p).headD 0)
  let id := s.nextId
  let l := newLaunch rb [t] x.stewrec s.order
  let pos := c / 128 % 2 * 8 + c % 8
  let team : Team := { l.bound p 0 0 (id + 1) c s.order 0 t with index := 0, pos, steward := true }
  let cohort : Cohort :=
    { part := p, pair := c / 8 % 4, total := 1, teams := [(pos, id)], m := [(pos, t.m)], seed := s.order }
  (({ s with nextId := id + 2, order := s.order + 1, cohorts := s.cohorts.set (id + 1) cohort } : State).setTeam id team).tryPlace id

/-- The record of a steward that is no plain launch of one team: the address of the first such field. -/
def stewardOnly (stewrec : Nat) (rb : List Byte) (ts : List TeamRec) : Option Nat :=
  if fieldAt rb 0x18 4 ≠ 1 then some (stewrec + 0x18)
  else if fieldAt rb 0x1C 1 ≠ 0 then some (stewrec + 0x1C)
  else if ts.length ≠ 1 then some (fieldAt rb 0 8 + 2)
  else none

/-- The checks of the record, the partition block and the placement, with the three pages in place. While another module that the
addresses name has not answered, STATE stays 1. -/
def State.startRecord (s : State) (p : Nat) : State :=
  let x := s.part p
  let w : Who := { va := BitVec.ofNat 64 x.stewrec, source := 7 }
  match s.checkRecord p noCore w x.stewrec with
  | .wait t => s.keepAsks t
  | .bad _ va s => s.hwAsked.startFails p va
  | .ok rb ts t =>
    match stewardOnly x.stewrec rb ts, ts with
    | some va, _ => t.hwAsked.startFails p va
    | none, [] => t.hwAsked.startFails p x.stewrec
    | none, r :: _ =>
      let image := match t.readTable p noCore w (fieldAt rb 0 8) with | .ok tb _ => tb | _ => []
      match t.hwWrite p noCore w (fieldAt rb 8 8 + 64) (t.partitionBlock p) with
      | .fail va t => t.hwAsked.startFails p va
      | .wait t => s.keepAsks t
      | .ok _ t =>
        ({ t.hwAsked with measured := t.measured.set (16 + p) (sha384 (rb ++ image)) } : State).bindSteward p rb r

/-- A start goes on: the checks of its addresses, once, then those of the record. While a bank that they read is refreshing, STATE stays 1. -/
def State.startSteward (s : State) (p : Nat) : State :=
  if (s.part p).begun then s.startRecord p
  else if s.startBusy p then s
  else match s.startAddress p with
    | some va => s.startFails p va
    | none => (s.modPart p fun x => { x with begun := true }).startRecord p

/-- A start that waits for a bank or for another module: no steward team stands yet. -/
def State.starting (s : State) (p : Nat) : Bool :=
  (s.part p).state == 1 && !s.teams.any fun t => t.2.part == p && t.2.steward

/-- SERVICE at a start: reduced until the calibration has ended (28/R414). -/
def State.serviceNow (s : State) (p : Nat) : Nat := if s.calib.get (p / 4) false then 2 else 1

/-- The cap that goes with a service: level 2 while it is reduced (28/R414). -/
def serviceCap (service : Nat) : Nat := if service = 1 then 2 else 7

/-- START (28/R409); one that waits goes on. What the link has delivered and a bank still holds is applied in its turn (18/R302). -/
def State.start (s : State) (p : Nat) : State :=
  if s.starting p then s.startSteward p
  else if !((s.part p).state = 0 || (s.part p).state = 4) then s
  else
    let s := (s.quit p).invalidatePart p 0 (2 ^ 52)
    (s.modPart p fun x => { x with
      state := 1, begun := false, service := s.serviceNow p, cap := serviceCap (s.serviceNow p), remaps := 0, cpages := []
      banks := x.banks.update fun _ k => { k with slots := [] } }).startSteward p

/-- START of the partition in `subject`. -/
def execStart (s : State) : Host.Outcome State Fault Refusal := .next (s.start s.subject)

/-- RESTART (28/R408): the steward team ends as by ENDTEAM, the other teams run on, and the steward starts again. -/
def State.restart (s : State) (p : Nat) : State :=
  if !((s.part p).state = 2 || (s.part p).state = 3) then s
  else
    let old := s.teams.filter fun t => t.2.part == p && t.2.steward
    let s := old.foldl (fun s t => s.endTeam t.1 1) s
    (s.modPart p fun x => { x with state := 1, begun := true, cmds := [] }).startSteward p

/-- RESTART of the partition in `subject`. -/
def execRestart (s : State) : Host.Outcome State Fault Refusal := .next (s.restart s.subject)

/-! ### The signal page (28/R410) -/

/-- A store to the signal page: bits 2:0 name a vector; vector 0 belongs to the hardware. -/
def execSignalPageStore (p : Nat) (x : Word) (s : State) : Host.Outcome State Fault Refusal :=
  let v := x.toNat % 8
  .next (if v = 0 then s else s.modPart p fun y => { y with msi := y.msi ++ [v] })

end Sys2Proof.Machine
end

