-- ==== Sys2Proof/Machine/Fabric.lean ====
section
/-!
DEFINITION. The module as a whole: flits (28/R403, R404), cluster reset (28/R401, R402), the end of calibration (28/R414),
module reset (28/R413) and the messages of the DOE mailboxes (28/R413).
-/

namespace Sys2Proof.Machine

open Sys2Proof

/-! ### Flits (28/R403) -/

def State.modPort (s : State) (k : Nat) (f : Port → Port) : State := { s with ports := s.ports.set k (f (s.ports.get k {})) }

/-- The receiver's acknowledgment, or its request to send again. -/
def State.ackFlit (s : State) (k seq : Nat) (good : Bool) : State := { s with outbox := s.outbox ++ [.flitAck k seq good] }

/-- What a flit carries reaches its place: a request its home, a reply the group that waits for it. -/
def State.deliver (s : State) (x : Payload) : State :=
  match x with
  | .idle => s
  | .request r => s.arrive r
  | .reply g seq ok bytes => s.answer g seq ok bytes

/-- The ports that the route table names for the module to which a message goes; none for one that leaves by a link (28/R403). -/
def State.routeOf (s : State) (message : Nat) : List Nat :=
  match s.outbox[message]? with
  | some (.remote _ _ _ m _ _) | some (.reply m ..) => s.portsTo m
  | _ => []

/-- A message is in a flit already. -/
def State.inFlit (s : State) (message : Nat) : Bool :=
  s.outbox.any fun o => match o with | .flit _ _ n => n == message | _ => false

/-- A port sends a flit with a message: it keeps it in its retry buffer of 4,096 flits until it has been acknowledged. -/
def State.emitFlit (s : State) (k message : Nat) : State :=
  let x := s.ports.get k {}
  { s.modPort k fun x => { x with next := (x.next + 1) % 2 ^ 32, buffer := x.buffer ++ [(x.next, message)] } with
    outbox := s.outbox ++ [.flit k x.next message] }

/-- A message stands in the retry buffer of a port that has gone down. -/
def State.stranded (s : State) (message : Nat) : Bool := s.ports.any fun k => !k.2.up && k.2.buffer.any (·.2 == message)

/-- A message leaves the retry buffers of the ports that are down. -/
def State.unstrand (s : State) (message : Nat) : State :=
  { s with ports := s.ports.update fun _ k => if k.up then k else { k with buffer := k.buffer.filter (·.2 != message) } }

/-- A message that leaves the module goes out by a port that is up and that the route table names for its module; one flit carries it
(log 41). One that a port has kept at its going down goes out by another. -/
def State.sendFlit (s : State) (k message : Nat) : State :=
  if (s.routeOf message).contains k && (s.ports.get k {}).buffer.length < 4096 && (!s.inFlit message || s.stranded message) then
    (s.unstrand message).emitFlit k message
  else s

/-- The traffic of a port that has gone down moves to the other ports that the route table names; what none of them has room for stays
until one has. -/
def State.moveTraffic (s : State) (messages : List Nat) : State :=
  messages.foldl (fun s m => match (s.routeOf m).find? fun k => (s.ports.get k {}).buffer.length < 4096 with
    | some k => s.sendFlit k m
    | none => s) s

/-- A port goes down with the flits that it has not seen acknowledged. -/
def State.portDown (s : State) (k : Nat) (left : List (Nat × Nat)) : State :=
  (s.modPort k fun x => { x with up := false, buffer := left, fails := 0 }).moveTraffic (left.map (·.2))

/-- A flit at an ingress port: delivered in order; a bad or missing one is asked for again; after the eighth failed resend
the port goes down. -/
def execFlitReceive (f : Flit) (s : State) : Host.Outcome State Fault Refusal :=
  let k := s.ports.get f.port {}
  .next (if !k.up then s
    else if f.crcGood && f.seq == k.expect then
      ((s.modPort f.port fun k => { k with expect := (k.expect + 1) % 2 ^ 32, resent := 0 }).ackFlit f.port f.seq true).deliver f.load
    else if f.crcGood && (f.seq + 2 ^ 32 - k.expect) % 2 ^ 32 ≥ 2 ^ 31 then s.ackFlit f.port f.seq true
    else if 8 ≤ k.resent then s.portDown f.port k.buffer
    else (s.modPort f.port fun k => { k with resent := k.resent + 1 }).ackFlit f.port k.expect false)

/-- The port at the other end acknowledges a flit, with every one before it, or asks for it again: it and those after it are resent; after
8 failed resends of one flit the port goes down. -/
def State.flitHeard (s : State) (k seq : Nat) (good : Bool) : State :=
  let x := s.ports.get k {}
  let left := x.buffer.dropWhile (·.1 != seq)
  if !x.up || left.isEmpty then s
  else if good then s.modPort k fun x => { x with buffer := left.drop 1, fails := 0 }
  else
    let fails := if left.length = x.buffer.length then x.fails else 0
    if 8 ≤ fails then s.portDown k left
    else { s.modPort k fun x => { x with buffer := left, fails := fails + 1 } with
      outbox := s.outbox ++ left.map fun f => .flit k f.1 f.2 }

/-! ### Cluster reset (28/R401, R402) -/

/-- The copies in progress with their cores and numbers. -/
def State.allCopies (s : State) : List (Nat × Nat × Copy) :=
  s.cores.flatMap fun k => k.2.copies.map fun c => (k.1, c.1, c.2)

/-- A team with a group on a core of a cluster: placed there, or out by a light pre-emption. -/
def State.teamsOn (s : State) (cl : Nat) : List Nat :=
  (s.teams.filter fun t => coreCluster t.2.core == cl && (t.2.state == .placed
    || ((t.2.state == .out || t.2.state == .restoring) && t.2.light))).map (·.1)

/-- A bid of a core of the cluster, still in the tree, is dropped (22/R351): it reaches the arbiter 12 + NOPS cycles after the
announcement (22/R344). -/
def Partition.dropBids (x : Partition) (cl time : Nat) : Partition :=
  let nops := ((x.formula.map fun f => f.ops.length).getD 0)
  { x with tender := x.tender.map fun t =>
      if t.round.any fun a => time < a + 12 + nops then { t with bids := t.bids.filter fun b => coreCluster b.core != cl } else t }

/-- A cluster reset begins. -/
def State.resetCluster (s : State) (cl : Nat) (retire : Bool) : State :=
  let p := corePart (8 * cl)
  let s := (s.teamsOn cl).foldl State.loseTeam s
  let s := (s.allCopies.filter fun c => coreCluster c.1 == cl).foldl (fun s c =>
    (c.2.2.frozen.elim s (s.freeEntry c.1)).breakCopy c.1 c.2.1 c.2.2 (BitVec.ofInt 64 (c.2.2.dstAt c.2.2.landed))) s
  let s := s.allCopies.foldl (fun s c => s.skipCast (fun k => coreCluster k == cl) c.1 c.2.1 c.2.2) s
  let s := (List.range 8).foldl (fun s j => s.modCore (8 * cl + j) fun k =>
    { k with inReset := true, wasReset := k.wasReset + 1, tlb := [], reserved := none }) s
  let s := s.modPart p fun x => x.dropBids cl s.time
  s.modCluster cl fun k => { k with reset := some s.time, retiring := retire, tlb := [] }

/-- A cluster is reset; firmware may retire it. One that is in reset already stays so. -/
def execClusterReset (cl : Nat) (retire : Bool) (s : State) : Host.Outcome State Fault Refusal :=
  .next (if (s.cluster cl).reset.isSome || 384 ≤ cl then s else s.resetCluster cl retire)

/-- The routes are computed again for a retired cluster (28/R400): a reconfiguration, once the partition stands still (26/R386). -/
def State.recompute (s : State) (cl : Nat) : State :=
  let p := corePart (8 * cl)
  let k := s.cluster cl
  if k.reset.isNone && k.retiring && s.drained p then (s.modCluster cl fun k => { k with retiring := false }).reconfigured p else s

/-- The reset of the cluster in `subject` is done: the cores run again or are retired, and the report lands; then the routes are computed
again for a retired one. -/
def execClusterResetDone (s : State) : Host.Outcome State Fault Refusal :=
  let cl := s.subject
  let p := corePart (8 * cl)
  let k := s.cluster cl
  .next (if k.reset.isNone then s.recompute cl
    else
      let s := (List.range 8).foldl (fun s j => s.modCore (8 * cl + j) fun x =>
        { x with inReset := false, retired := x.retired || k.retiring }) s
      let s := s.modCluster cl fun k => { k with reset := none }
      (s.notify p 0x4D (BitVec.ofNat 64 (cl + k.retiring.toNat * 2 ^ 16))).recompute cl)

/-! ### Calibration (28/R414) -/

/-- Accesses that parked, instructions that issued before them or behind them, and copies that froze, under reduced service keep its rules
(28/R414). -/
def State.keepReduced (s : State) (p : Nat) : State :=
  let keep (g : Group) : Group :=
    if corePart g.core = p then { g with
      parked := g.parked.map fun x => { x with reduced := true }, win := g.win.map fun w => { w with reduced := true } } else g
  { s with
    me := keep s.me, others := s.others.update fun _ g => keep g
    cores := s.cores.update fun _ k => { k with copies := k.copies.update fun _ c => { c with reduced := c.reduced || c.part == p } } }

/-- Calibration of the terrace in `subject` has ended: its partitions that run with reduced service pass to full service, each once it
stands still (26/R386 step 1). -/
def execCalibrationEnd (s : State) : Host.Outcome State Fault Refusal :=
  let t := s.subject
  let ps := (List.range 4).map (4 * t + ·)
  let s : State := { s with calib := s.calib.set t true }
  .next ((ps.filter fun p => (s.part p).service == 1 && s.drained p).foldl (fun s p =>
    (((s.keepReduced p).modPart p fun x => { x with service := 2, cap := 7 }).reconfigured p).notify p 0x4D 0x2_0000) s)

/-! ### Module reset (28/R413) -/

/-- The measurements of a measured boot: a stage that fails its check is not run, and the previous image keeps its place. -/
def bootMeasures (b : Boot) (old : Map Nat) : Map Nat :=
  let put (m : Map Nat) (k : Nat) : Map Nat := match old.get? k with | some v => m.set k v | none => m
  let m : Map Nat := if b.loaderGood then [(1, b.loader)] else put [] 1
  let m := if b.loaderGood && b.firmGood then m.set 2 b.firmware else put m 2
  m.set 3 b.config

/-- What a partition keeps over a module reset: the condition of its banks and of its islands (26/R385, 28/R415). -/
def Partition.rebooted (x : Partition) : Partition := { bankmap := x.bankmap, rsv := x.rsv, aged := x.aged }

/-- A module reset: the state after reset, with DRAM, its damage and what has left the module kept. -/
def State.reboot (s : State) (b : Boot) : State :=
  { State.reset with
    parts := s.parts.update fun _ x => x.rebooted
    mem := s.mem, damaged := s.damaged, codes := s.codes, outbox := s.outbox, doe := s.doe, module := s.module
    measured := bootMeasures b s.measured, agenda := s.agenda, subject := s.subject, free := s.free, order := s.order
    nextId := s.nextId }

/-- Measured boot at a module reset. -/
def execModuleReset (boot : Boot) (s : State) : Host.Outcome State Fault Refusal := .next (s.reboot boot)

/-! ### The DOE mailboxes (28/R413); functions 0 to 47 are the virtual functions, others the physical ones -/

def State.doeReply (s : State) (m : Spdm) : State := { s with doe := s.doe ++ [m] }

/-- GET_VERSION to the function in `subject`: SPDM 1.3. -/
def execGetVersion (s : State) : Host.Outcome State Fault Refusal := .next (s.doeReply (.version s.subject 1 3))

/-- The messages that a mailbox answers, numbered in the order of R413. -/
def spdmMessages : List Nat := List.range 7

/-- GET_CAPABILITIES to the function in `subject`. -/
def execGetCapabilities (s : State) : Host.Outcome State Fault Refusal :=
  .next (s.doeReply (.capabilities s.subject spdmMessages))

/-- The one suite offered, ECDSA on brainpoolP384r1 with SHA-384, numbered 0. -/
def spdmSuite : Nat := 0

/-- NEGOTIATE_ALGORITHMS: the suites that the requester offers. -/
def execNegotiateAlgorithms (fn : Nat) (offer : List Nat) (s : State) : Host.Outcome State Fault Refusal :=
  .next (s.doeReply (.algorithms fn (offer.contains spdmSuite)))

/-- GET_DIGESTS to the function in `subject`: slot 0 alone holds a chain. -/
def execGetDigests (s : State) : Host.Outcome State Fault Refusal :=
  .next (s.doeReply (.digests s.subject [0] (sha384 (Config.identityChain 0))))

/-- GET_CERTIFICATE. -/
def execGetCertificate (fn slot : Nat) (s : State) : Host.Outcome State Fault Refusal :=
  .next (s.doeReply (if slot = 0 then .certificate fn slot (Config.identityChain 0) else .error fn))

/-- CHALLENGE: the identity key signs. -/
def execChallenge (fn slot : Nat) (nonce : List Byte) (s : State) : Host.Outcome State Fault Refusal :=
  .next (s.doeReply (if slot = 0 then .challenge fn slot nonce (Config.identitySign slot nonce) else .error fn))

/-- The measurements that a function reports. -/
def State.reported (s : State) (fn : Nat) : Map Nat :=
  s.measured.filter fun m => m.1 ≤ 3 || 48 ≤ fn || m.1 == 16 + fn

/-- GET_MEASUREMENTS: one index, or all of them by 0xFF. -/
def execGetMeasurements (fn index : Nat) (s : State) : Host.Outcome State Fault Refusal :=
  let ms := (s.reported fn).filter fun m => index == 0xFF || m.1 == index
  .next (s.doeReply (if ms.isEmpty then .error fn else .measurements fn ms))

end Sys2Proof.Machine
end

