-- ==== Sys2Proof/Machine/VectorFunc.lean ====
section
/-!
DEFINITION. Meanings: `vexp2`, `vlog2`, `vsin`, `vcos` (15/R238). A value that is no dyadic number is computed in fixed
point with `fixBits` fraction bits and rounded once; that this decides every rounding of a 32-bit argument is PRESUMED
(log 14).
-/

namespace Sys2Proof.Machine

open Sys2Proof

/-- Fraction bits of the fixed-point values. -/
def fixBits : Nat := 448

def fixOne : Nat := 2 ^ fixBits

/-- A product of fixed-point values. -/
def fixMul (a b : Nat) : Nat := a * b / fixOne

/-- t/k + t/(x (k+2)) + ... : a sum of `n` terms of the series of atanh(1/√x), the signs alternating for atan. -/
def arcSeries (alternate : Bool) (x : Nat) : Nat → Nat → Nat → Int
  | 0, _, _ => 0
  | n + 1, k, t =>
    let rest := arcSeries alternate x n (k + 2) (t / x)
    (t / k : Nat) + (if alternate then -rest else rest)

/-- ln 2 = 2 atanh(1/3). -/
def ln2Fix : Nat := (2 * arcSeries false 9 150 1 (fixOne / 3)).toNat

/-- π = 16 atan(1/5) - 4 atan(1/239). -/
def piFix : Nat := (16 * arcSeries true 25 100 1 (fixOne / 5) - 4 * arcSeries true (239 * 239) 32 1 (fixOne / 239)).toNat

/-- Terms t, t·x/k, ... of the exponential series. -/
def expSeries (x : Nat) : Nat → Nat → Nat → Nat
  | 0, _, _ => 0
  | n + 1, k, t => t + expSeries x n (k + 1) (fixMul t x / k)

/-- Terms t, -t·z/((k+1)(k+2)), ... with z the square of the argument: cosine from k = 0 and t = 1, sine from k = 1 and t
the argument. -/
def circSeries (z : Nat) : Nat → Nat → Nat → Int
  | 0, _, _ => 0
  | n + 1, k, t => t - circSeries z n (k + 2) (fixMul t z / ((k + 1) * (k + 2)))

/-- The sum z + z³/3 + ... of atanh. -/
def atanhSeries (z2 : Nat) : Nat → Nat → Nat → Nat
  | 0, _, _ => 0
  | n + 1, k, t => t / k + atanhSeries z2 n (k + 2) (fixMul t z2)

/-- An irrational value given in fixed point: its last bit stands for what was cut. -/
def irrational (neg : Bool) (x : Nat) : FpNum := .fin neg (2 * x + 1) (-fixBits - 1)

/-- |a| = m · 2^e split: the integer part, and the fraction in fixed point (exact: FP32 has no bit below 2^-149). -/
def splitFix (m : Nat) (e : Int) : Nat × Nat :=
  if 0 ≤ e then (m * 2 ^ e.toNat, 0)
  else
    let d := 2 ^ (-e).toNat
    (m / d, m % d * (fixOne / d))

/-- 2^a of a finite a ≠ 0 (15/R238). An exponent beyond the format's reach by far is cut off there. -/
def exp2Num (neg : Bool) (m : Nat) (e : Int) : FpNum :=
  if 16 ≤ topExp m e then .fin false 1 (if neg then -400 else 400)
  else
    let (n, x) := splitFix m e
    let (n, x) : Int × Nat := if neg then (if x = 0 then (-(n : Int), 0) else (-(n : Int) - 1, fixOne - x)) else (n, x)
    if x = 0 then .fin false 1 n
    else match irrational false (expSeries (fixMul x ln2Fix) 100 1 fixOne) with
      | .fin s m e => .fin s m (e + n)
      | v => v

/-- log2 (m · 2^e) (15/R238). -/
def log2Num (m : Nat) (e : Int) : FpNum :=
  let top := topExp m e
  if m = 2 ^ Nat.log2 m then intNum top
  else
    let y := m * (fixOne / 2 ^ Nat.log2 m)
    let z := (y - fixOne) * fixOne / (y + fixOne)
    let ln := 2 * atanhSeries (fixMul z z) 150 1 z
    let v : Int := top * fixOne + (ln * fixOne / ln2Fix : Nat)
    irrational (v < 0) v.natAbs

/-- The sine or cosine of x turns, 0 < x < 1 in fixed point, no multiple of an eighth of a turn's whole quarter: from the
first eighth. -/
def turnNum (cosine neg : Bool) (x : Nat) : FpNum :=
  let o := 8 * x / fixOne
  let r := 8 * x % fixOne
  let y := (if o % 2 = 0 then r else fixOne - r) / 8
  let th := fixMul (2 * y) piFix
  let useSin := (o == 0 || o == 3 || o == 4 || o == 7) != cosine
  let minus := if cosine then 2 ≤ o && o ≤ 5 else 4 ≤ o
  let v := if useSin then circSeries (fixMul th th) 70 1 th else circSeries (fixMul th th) 70 0 fixOne
  irrational (minus != neg) v.toNat

/-- The sine of a finite a (15/R238). -/
def sinNum (neg : Bool) (m : Nat) (e : Int) : FpNum :=
  let x := (splitFix m e).2
  if x = 0 || 2 * x = fixOne then .fin neg 0 0
  else if 4 * x = fixOne then .fin neg 1 0
  else if 4 * x = 3 * fixOne then .fin (!neg) 1 0
  else turnNum false neg x

/-- The cosine of a finite a (15/R238). -/
def cosNum (m : Nat) (e : Int) : FpNum :=
  let x := (splitFix m e).2
  if x = 0 then .fin false 1 0
  else if 2 * x = fixOne then .fin true 1 0
  else if 4 * x = fixOne || 4 * x = 3 * fixOne then .fin false 0 0
  else turnNum true false x

/-- `vexp2` (15/R238). -/
def execVexp2 (f : Form) (s : State) : Host.Outcome State Fault Refusal :=
  fpElem (.vexp2 f) s false fun fm a _ _ =>
    match fm.read s.me.ftz a with
    | .nan sig => fm.write .arith .rne false (.nan sig)
    | .inf neg => plain (if neg then 0 else fm.infBits)
    | .fin neg m e => fm.write .arith .rne s.me.ftz (if m = 0 then .fin false 1 0 else exp2Num neg m e)

/-- `vlog2` (15/R238). -/
def execVlog2 (f : Form) (s : State) : Host.Outcome State Fault Refusal :=
  fpElem (.vlog2 f) s false fun fm a _ _ =>
    match fm.read s.me.ftz a with
    | .nan sig => fm.write .arith .rne false (.nan sig)
    | .inf neg => if neg then nanInvalid fm else plain fm.infBits
    | .fin neg m e => if m = 0 then { bits := signBit fm true + fm.infBits, flags := flDZ }
      else if neg then nanInvalid fm
      else fm.write .arith .rne s.me.ftz (log2Num m e)

/-- `vsin` (15/R238). -/
def execVsin (f : Form) (s : State) : Host.Outcome State Fault Refusal :=
  fpElem (.vsin f) s false fun fm a _ _ =>
    match fm.read s.me.ftz a with
    | .nan sig => fm.write .arith .rne false (.nan sig)
    | .inf _ => nanInvalid fm
    | .fin neg m e => fm.write .arith .rne s.me.ftz (sinNum neg m e)

/-- `vcos` (15/R238). -/
def execVcos (f : Form) (s : State) : Host.Outcome State Fault Refusal :=
  fpElem (.vcos f) s false fun fm a _ _ =>
    match fm.read s.me.ftz a with
    | .nan sig => fm.write .arith .rne false (.nan sig)
    | .inf _ => nanInvalid fm
    | .fin _ m e => fm.write .arith .rne s.me.ftz (cosNum m e)

end Sys2Proof.Machine
end

