-- ==== Sys2Proof/Machine/VectorConvert.lean ====
section
/-!
DEFINITION. Meanings: conversion (`vcvt`, 12/R201, R202, 15/R241-R243), the stochastic generator (`vseed`, 12/R198,
15/R244), `fm` and `ff` (15/R246, R247), scale bytes and the codebook (15/R248, R249).
-/

namespace Sys2Proof.Machine

open Sys2Proof Sys2Proof.Opcode

/-! ### What a conversion reads -/

/-- The value of the vector register that a specifier names. -/
def State.specReg (s : State) (x : Spec) : VReg :=
  match x with
  | .vec n => s.vreg n
  | .opf n => s.me.ofile.get n .fresh
  | .lr => s.me.lr
  | _ => .fresh

/-- The bits of lane l of unit u of a range from a register; an FP64 unit is a pair (15/R242). -/
def State.unitLane (s : State) (x : Spec) (t : Ty) (u l : Nat) : Nat :=
  if t = .f64 then (s.specReg (Spec.next x (2 * u))).lane l + (s.specReg (Spec.next x (2 * u + 1))).lane l * 2 ^ 32
  else (s.specReg (Spec.next x u)).lane l

/-- 2^(S - 127) · v for the scale byte of a block; `0xFF` reads as NaN (12/R191). -/
def scaled (sb : Nat) (v : FpNum) : FpNum :=
  if sb = 0xFF then .nan false
  else match v with
    | .fin n m e => .fin n m (e + sb - 127)
    | v => v

/-- The value of an element pattern of a source type (12/R190, R193, R195). -/
def Group.readElem (g : Group) (t : Ty) (x : Nat) : FpNum :=
  if Ty.isInt t then intNum (if Ty.signed t then signedOf (Ty.width t) x else x)
  else match t with
    | .e8m0 => scaleNum x
    | t => g.elem t x

/-- Element e of lane l of the source (15/R242, R243). -/
def State.cvtElem (s : State) (x : Spec) (t : Ty) (l e : Nat) : FpNum :=
  let u := e / perLane t
  let v := s.me.readElem t (digit (elemWidth t) (s.unitLane x t u l) (e % perLane t))
  if Ty.isMx t then scaled (dotScale t (s.specReg (Spec.next x u)) l) v else v

/-! ### What a conversion writes -/

/-- Float to E8M0 (12/R201). -/
def toE8m0 (sat : Bool) (x : FpNum) : FRes :=
  match x with
  | .nan sig => { bits := 0xFF, flags := if sig then flNV else 0 }
  | .inf _ => { bits := 0xFF, flags := flNV }
  | .fin _ m e =>
    if m = 0 then { bits := 0, flags := flNX }
    else
      let k := topExp m e + 127
      if k < 0 then { bits := 0, flags := flUF + flNX }
      else if 0xFE < k then { bits := 0xFE, flags := (if sat then flSATC else flOF) + flNX }
      else { bits := k.toNat, flags := if m = 2 ^ Nat.log2 m then 0 else flNX }

/-- Conversion into a floating-point format (12/R200, R201). -/
def toFloat (fm : Fmt) (mode : Mode) (sat ftz : Bool) (x : FpNum) : FRes :=
  match x, fm.sp with
  | .nan _, .none => { bits := 0, flags := flNV }
  | .inf neg, .none => { bits := signBit fm neg + fm.maxFin, flags := flNV }
  | .inf neg, .nanOnly =>
    if sat then { bits := signBit fm neg + fm.maxFin, flags := flSATC } else { bits := fm.qnan, flags := flNV }
  | x, _ => fm.write (if sat then .saturate else .convert) mode ftz x

/-- The conversion of one element (12/R201). -/
def Group.convert (g : Group) (t : Ty) (mode : Mode) (x : FpNum) : FRes :=
  if Ty.isInt t then toInteger mode (Ty.width t) (Ty.signed t) x
  else match t with
    | .e8m0 => toE8m0 (fmSat g.fm) x
    | .cb4 => cbNearest ((List.range 16).map fun i => fmtBf16.read false (g.cbEntry i)) x
    | t => toFloat ((fmtOf t).getD fmtF32) mode (fmSat g.fm) g.ftz x

/-- Destination types that round stochastically (12/R197, 15/R241). -/
def drawsFor (t : Ty) : Bool := [Ty.bf16, .e5m2, .e4m3, .e2m1, .mxe5m2, .mxe4m3, .mxe2m1].contains t

/-- The conversion draws on the generator (12/R198). -/
def draws (g : Group) (t : Ty) : Bool := fmRnd g.fm == 4 && drawsFor t

/-- The states of a generator after each of n steps (12/R198). -/
def srStates : Nat → Nat → List Nat
  | 0, _ => []
  | n + 1, x => srStep x :: srStates n (srStep x)

/-- The modes of n elements of a lane in ascending order. -/
def laneModes (g : Group) (t : Ty) (n seed : Nat) : List Mode :=
  if draws g t then (srStates n seed).map fun x => .stochastic (srDraw x) else List.replicate n g.mode

/-- emax of an MX element format (12/R202). -/
def mxEmax (t : Ty) : Int :=
  match t with
  | .mxe4m3 => 8 | .mxe5m2 => 15 | _ => 2

/-- What the 32 source elements of a block decide (12/R202). -/
inductive BlockKind where
  | nan (sig : Bool)
  | zero
  | scale (e : Int)
deriving DecidableEq, Repr

def blockKind (t : Ty) (xs : List FpNum) : BlockKind :=
  if xs.any fun x => match x with | .fin _ _ _ => false | _ => true then .nan (xs.any FpNum.isSig)
  else
    let tops := xs.filterMap fun x => match x with
      | .fin _ m e => if m = 0 then none else some (topExp m e)
      | _ => none
    match tops with
    | [] => .zero
    | k :: ks => .scale (max (-127) (min 127 (ks.foldl max k - mxEmax t)))

def BlockKind.byte : BlockKind → Nat
  | .nan _ => 0xFF
  | .zero => 0x7F
  | .scale e => (e + 127).toNat

/-- One element of a quantized block (12/R202). -/
def BlockKind.elem (b : BlockKind) (fm : Fmt) (mode : Mode) (ftz : Bool) (x : FpNum) : FRes :=
  match b, x with
  | .nan sig, _ => { bits := 0, flags := if sig then flNV else 0 }
  | .zero, x => plain (signBit fm x.neg)
  | .scale k, .fin n m e => fm.write .saturate mode ftz (.fin n m (e - k))
  | .scale _, x => fm.write .saturate mode ftz x

/-- Lanes of one block of an MX type (12/R191). -/
def blockLanes (t : Ty) : Nat := if t = .mxe2m1 then 4 else 8

/-- The lanes of the blocks that hold an active lane (15/R243). -/
def blockMask (t : Ty) (m : BitVec 32) : BitVec 32 :=
  let n := blockLanes t
  maskOf fun l => (List.range n).any fun j => laneOn m (l / n * n + j)

/-- Results by lane and element, with the scale bytes that destination unit u writes. -/
structure CvtOut where
  elems  : List (List FRes)
  scales : Nat → Nat → Nat

/-- The results of a conversion into a type that is not MX (15/R242). -/
def State.cvtPlain (s : State) (x : Spec) (src dst : Ty) (n : Nat) : CvtOut :=
  { elems := (List.range 32).map fun l =>
      ((laneModes s.me dst n ((s.me.ofile.get 7 .fresh).lane l)).zipIdx).map fun p =>
        s.me.convert dst p.1 (s.cvtElem x src l p.2)
    scales := fun _ _ => 0x7F }

/-- The results of a conversion into an MX type, block by block (12/R202, 15/R243). -/
def State.cvtBlocks (s : State) (x : Spec) (src dst : Ty) (n : Nat) : CvtOut :=
  let per := perLane dst
  let lanes := blockLanes dst
  let fm := (fmtOf dst).getD fmtF32
  let nums := (List.range 32).map fun l => (List.range n).map fun e => s.cvtElem x src l e
  let kinds := (List.range (n / per)).map fun u => (List.range (32 / lanes)).map fun p =>
    blockKind dst ((List.range lanes).flatMap fun j => ((nums.getD (p * lanes + j) []).drop (u * per)).take per)
  let kind (u l : Nat) : BlockKind := (kinds.getD u []).getD (l / lanes) .zero
  { elems := (List.range 32).map fun l =>
      ((laneModes s.me dst n ((s.me.ofile.get 7 .fresh).lane l)).zipIdx).map fun p =>
        (kind (p.2 / per) l).elem fm p.1 s.me.ftz ((nums.getD l []).getD p.2 (.fin false 0 0))
    scales := fun u q => if lanes = 8 && q % 2 = 1 then 0x7F else (kind u (4 * q)).byte }

/-- FP6 widened exactly (12/R189, 15/R243), also under FTZ (log 10): packed element 4l + j into element j of lane l. -/
def State.cvtFp6 (s : State) (x : Spec) (src dst : Ty) : CvtOut :=
  let v := s.specReg x
  let sf := (fmtOf src).getD fmtF32
  let df := (fmtOf dst).getD fmtF32
  { elems := (List.range 32).map fun l => (List.range 4).map fun j =>
      df.write .convert .rne false (sf.read false (digit 6 v.data.toNat (4 * l + j)))
    scales := fun _ q => if Ty.isMx src && q % 2 = 0 then v.scaleByte (q / 2) else 0x7F }

/-- The elements one lane converts: E of 15/R242. -/
def cvtCount (src dst : Ty) : Nat := max (perLane src) (perLane dst)

/-- `fm` makes a conversion illegal: a reserved RND where it rounds under RND, a reserved CBS where it uses the table. -/
def cvtBad (g : Group) (src dst : Ty) : Bool :=
  (dst != .cb4 && dst != .e8m0 && !Ty.isFp6 src && (arithMode g.fm).isNone)
    || ((src == .cb4 || dst == .cb4) && fmCbs g.fm == 3)

/-- The write of destination unit u (15/R242, R243): the lanes and scale bytes of whole blocks for an MX destination. -/
def cvtWrites (dst : Ty) (m : BitVec 32) (blocks : Bool) (out : CvtOut) (u : Nat) : List VWrite :=
  let per := perLane dst
  let bits (l : Nat) : Nat :=
    packNat (elemWidth dst) (fun j => ((out.elems.getD l []).getD (u * per + j) ⟨0, 0⟩).bits) per
  let quads (q : Nat) : Bool := if Ty.isMx dst then quadOn (blockMask dst m) q else quadOn m q
  let w (k : Nat) : VWrite :=
    { lanes := fun l => digit 32 (bits l) k, mask := if blocks then blockMask dst m else m
      scales := some (out.scales u), quads }
  if dst = .f64 then [w 0, w 1] else [w 0]

/-- The generator's new states in the lanes written (12/R198). -/
def State.stepSeeds (s : State) (m : BitVec 32) (n : Nat) : State :=
  let old := s.me.ofile.get 7 .fresh
  let v := VReg.ofLanes (fun l => if laneOn m l then (srStates n (old.lane l)).getLastD (old.lane l) else old.lane l)
    old.scaleByte
  { s with me := { s.me with ofile := s.me.ofile.set 7 v } }

/-- `vcvt` (15/R241-R243). -/
def execVcvt (f : Form) (s : State) : Host.Outcome State Fault Refusal :=
  let src := (cvtSource f).getD .f32
  let dst := f.type .f32
  runIf (.vcvt f) s (fun _ _ => cvtBad s.me src dst) fun info f =>
    match readSources (.vcvt f) info f false s with
    | .error h => .error h
    | .ok s1 => match destReady (.vcvt f) info f s1 with
      | .error h => .error h
      | .ok _ =>
        let n := if Ty.isFp6 src then 4 else cvtCount src dst
        let x := Spec.of f.a
        let m := s.me.active f
        let blocks := Ty.isMx dst
        let out := if Ty.isFp6 src then s.cvtFp6 x src dst
          else if blocks then s.cvtBlocks x src dst n else s.cvtPlain x src dst n
        let res := out.elems.map fun es =>
          ({ bits := packNat (elemWidth dst) (fun j => (es.getD j ⟨0, 0⟩).bits) (perLane dst)
             flags := es.foldl (fun a e => a ||| e.flags) 0 } : FRes)
        if draws s.me dst && s.me.loading (.opf 7) then .error (.wait .register)
        else match fpTrap (.vcvt f) info f s.me res with
        | some t => .error (.trap t)
        | none =>
          let s2 := s1.raise (activeFlags m res)
          let s2 := if draws s.me dst then s2.stepSeeds (if blocks then blockMask dst m else m) n else s2
          writeRange (.vcvt f) s2 (Spec.of f.d) 0
            ((List.range (n / perLane dst)).flatMap fun u => cvtWrites dst m blocks out u)

/-- `vseed` (15/R244): it waits while a split-phase load into `o7` is outstanding (19/R306). The scale bytes of `o7` and `lr` stay as they
are (log 10). -/
def execVseed (f : Form) (s : State) : Host.Outcome State Fault Refusal :=
  run (.vseed f) s fun info f =>
    if s.me.loading (.opf 7) then .error (.wait .register)
    else match readSources (.vseed f) info f false s with
    | .error h => .error h
    | .ok s1 =>
      let a := s.source f.a .u32
      let m := s.me.active f
      let v := (laneWrite m fun l => srSeed (a.lane l) l).onto (s.me.ofile.get 7 .fresh)
      .ok { s1 with me := { s1.me with ofile := s1.me.ofile.set 7 v } }

/-! ### The format register and the flags (15/R246, R247) -/

/-- A field of `fm`: `w` bits at `lo` take the low bits of x. -/
def fmField (fm : BitVec 32) (lo w : Nat) (x : Word) : BitVec 32 :=
  let mask := BitVec.ofNat 32 ((2 ^ w - 1) * 2 ^ lo)
  (fm &&& ~~~mask) ||| (BitVec.ofNat 32 (x.toNat % 2 ^ w * 2 ^ lo))

def fmOp (i : Instr) (s : State) (new : BitVec 32 → Word → BitVec 32) : Host.Outcome State Fault Refusal :=
  run i s fun _ f => .ok { s with me := { s.me with fm := new s.me.fm (s.me.scalar f.a + f.imm) } }

/-- `fmt` (15/R246): bits 31:20 and 9:8 read 0. -/
def execFmt (f : Form) (s : State) : Host.Outcome State Fault Refusal :=
  fmOp (.fmt f) s fun _ x => x.truncate 32 &&& 0x000F_FCFF

/-- `fmtRnd` (15/R246). -/
def execFmtRnd (f : Form) (s : State) : Host.Outcome State Fault Refusal :=
  fmOp (.fmtRnd f) s fun fm x => fmField fm 5 3 x

/-- `fmtAb` (15/R246): AFMT from bits 2:0, BFMT from bits 5:3. -/
def execFmtAb (f : Form) (s : State) : Host.Outcome State Fault Refusal :=
  fmOp (.fmtAb f) s fun fm x => fmField fm 14 6 x

/-- `fmtFtz` (15/R246): FTZ from bit 0, SAT from bit 1. -/
def execFmtFtz (f : Form) (s : State) : Host.Outcome State Fault Refusal :=
  fmOp (.fmtFtz f) s fun fm x => fmField fm 10 2 x

/-- `fmtCbs` (15/R246). -/
def execFmtCbs (f : Form) (s : State) : Host.Outcome State Fault Refusal :=
  fmOp (.fmtCbs f) s fun fm x => fmField fm 12 2 x

/-- `fmtTrp` (07/R117, 15/R246). -/
def execFmtTrp (f : Form) (s : State) : Host.Outcome State Fault Refusal :=
  fmOp (.fmtTrp f) s fun fm x => fmField fm 0 5 x

/-- `fmrd` (15/R246). -/
def execFmrd (f : Form) (s : State) : Host.Outcome State Fault Refusal :=
  run (.fmrd f) s fun _ f => .ok (s.setScalar f.d (s.me.fm.zeroExtend 64))

/-- `ffget` (15/R247). -/
def execFfget (f : Form) (s : State) : Host.Outcome State Fault Refusal :=
  run (.ffget f) s fun _ f => .ok (s.setScalar f.d (s.me.ff.zeroExtend 64))

/-- `ffclr` (15/R247): its operand stands in D. -/
def execFfclr (f : Form) (s : State) : Host.Outcome State Fault Refusal :=
  run (.ffclr f) s fun _ f => .ok { s with me := { s.me with ff := s.me.ff &&& ~~~((s.me.scalar f.d).truncate 32) } }

/-! ### Scale bytes and the codebook (15/R248, R249) -/

/-- A move of scale bytes or lanes: what D receives from A. -/
def sclOp (i : Instr) (s : State) (write : BitVec 32 → VReg → VWrite) : Host.Outcome State Fault Refusal :=
  run i s fun info f =>
    match readSources i info f false s with
    | .error h => .error h
    | .ok s1 => match destReady i info f s1 with
      | .error h => .error h
      | .ok _ => writeReg i s1 (Spec.of f.d) (write (s.me.active f) (s.source f.a .u32)) true

/-- `vsclget` (15/R248). -/
def execVsclget (f : Form) (s : State) : Host.Outcome State Fault Refusal :=
  sclOp (.vsclget f) s fun m a => laneWrite m fun l => a.scaleByte (l / 4)

/-- `vsclset` (15/R248): the lowest active lane of a quad decides; the data stay. -/
def execVsclset (f : Form) (s : State) : Host.Outcome State Fault Refusal :=
  let i := Instr.vsclset f
  run i s fun info f =>
    match readSources i info f false s with
    | .error h => .error h
    | .ok s1 => match destReady i info f s1 with
      | .error h => .error h
      | .ok _ =>
        let a := s.source f.a .u32
        let m := s.me.active f
        let low (q : Nat) : Nat := ((List.range 4).find? fun j => laneOn m (4 * q + j)).getD 0
        let queue := match Spec.of f.d with | .vec n => mapQKind (s.me.entry n) != 0 | _ => false
        let old : VReg := if queue then .fresh else s1.specReg (Spec.of f.d)
        let w := scaledWrite m old.lane fun q => a.lane (4 * q + low q)
        writeReg i s1 (Spec.of f.d) (if queue then w else { w with mask := 0 }) true

/-- `cbld` (15/R249): the 16 halves of lanes 0 to 7, whatever `em` holds. -/
def execCbld (f : Form) (s : State) : Host.Outcome State Fault Refusal :=
  run (.cbld f) s fun info f =>
    match readSources (.cbld f) info f true s with
    | .error h => .error h
    | .ok s1 =>
      let a := s.source f.a .u32
      .ok { s1 with me := { s1.me with
        cb := (List.range 16).foldl (fun m i => m.set i (BitVec.ofNat 16 (digit 16 (a.lane (i / 2)) (i % 2)))) s1.me.cb } }

end Sys2Proof.Machine
end

