-- ==== Sys2Proof/Machine/Meaning.lean ====
section
/-!
DEFINITION. The meanings of the instructions that may issue while earlier ones of their group have not committed (08/R121-R124).
-/

namespace Sys2Proof.Machine

open Sys2Proof

/-- The meaning of an instruction that may issue ahead of its commit; every other one waits until the group's earlier instructions
have committed, as 08/R124 asks of some and timing leaves open for the rest (log 7). -/
def meaning (i : Instr) : Option (State → Host.Outcome State Fault Refusal) :=
  match i with
  | .nop f => some (execNop f)
  | .lps f => some (execLps f)
  | .pmov f => some (execPmov f)
  | .pand f => some (execPand f)
  | .por f => some (execPor f)
  | .pxor f => some (execPxor f)
  | .pandn f => some (execPandn f)
  | .pnot f => some (execPnot f)
  | .pget f => some (execPget f)
  | .pset f => some (execPset f)
  | .emget f => some (execEmget f)
  | .emset f => some (execEmset f)
  | .fmt f => some (execFmt f)
  | .fmtRnd f => some (execFmtRnd f)
  | .fmtAb f => some (execFmtAb f)
  | .fmtFtz f => some (execFmtFtz f)
  | .fmtCbs f => some (execFmtCbs f)
  | .fmtTrp f => some (execFmtTrp f)
  | .fmrd f => some (execFmrd f)
  | .mov f => some (execMov f)
  | .add f => some (execAdd f)
  | .sub f => some (execSub f)
  | .mul f => some (execMul f)
  | .mulh f => some (execMulh f)
  | .mulhu f => some (execMulhu f)
  | .div f => some (execDiv f)
  | .divu f => some (execDivu f)
  | .rem f => some (execRem f)
  | .remu f => some (execRemu f)
  | .and f => some (execAnd f)
  | .or f => some (execOr f)
  | .xor f => some (execXor f)
  | .andn f => some (execAndn f)
  | .shl f => some (execShl f)
  | .shr f => some (execShr f)
  | .sra f => some (execSra f)
  | .rol f => some (execRol f)
  | .min f => some (execMin f)
  | .max f => some (execMax f)
  | .minu f => some (execMinu f)
  | .maxu f => some (execMaxu f)
  | .cmp f => some (execCmp f)
  | .sel f => some (execSel f)
  | .clz f => some (execClz f)
  | .ctz f => some (execCtz f)
  | .popc f => some (execPopc f)
  | .sxt f => some (execSxt f)
  | .zxt f => some (execZxt f)
  | .vget f => some (execVget f)
  | .vmov f => some (execVmov f)
  | .vaddInt f => some (execVaddInt f)
  | .vsubInt f => some (execVsubInt f)
  | .vmulInt f => some (execVmulInt f)
  | .vmulh f => some (execVmulh f)
  | .vmad f => some (execVmad f)
  | .vand f => some (execVand f)
  | .vor f => some (execVor f)
  | .vxor f => some (execVxor f)
  | .vandn f => some (execVandn f)
  | .vshl f => some (execVshl f)
  | .vshr f => some (execVshr f)
  | .vsra f => some (execVsra f)
  | .vminInt f => some (execVminInt f)
  | .vmaxInt f => some (execVmaxInt f)
  | .vcmpInt f => some (execVcmpInt f)
  | .vcmppInt f => some (execVcmppInt f)
  | .vsel f => some (execVsel f)
  | .vshflIdx f => some (execVshflIdx f)
  | .vshflUp f => some (execVshflUp f)
  | .vshflDn f => some (execVshflDn f)
  | .vshflXor f => some (execVshflXor f)
  | .vshflBc f => some (execVshflBc f)
  | .qswz f => some (execQswz f)
  | .vpack f => some (execVpack f)
  | .vunpack f => some (execVunpack f)
  | .vclz f => some (execVclz f)
  | .vpopc f => some (execVpopc f)
  | .vsclget f => some (execVsclget f)
  | .vsclset f => some (execVsclset f)
  | .vaddFp f => some (execVaddFp f)
  | .vsubFp f => some (execVsubFp f)
  | .vmulFp f => some (execVmulFp f)
  | .vfma f => some (execVfma f)
  | .vminFp f => some (execVminFp f)
  | .vmaxFp f => some (execVmaxFp f)
  | .vcmpFp f => some (execVcmpFp f)
  | .vcmppFp f => some (execVcmppFp f)
  | .vabs f => some (execVabs f)
  | .vneg f => some (execVneg f)
  | .vcpsgn f => some (execVcpsgn f)
  | .vrcp f => some (execVrcp f)
  | .vrsq f => some (execVrsq f)
  | .vsqrt f => some (execVsqrt f)
  | .vexp2 f => some (execVexp2 f)
  | .vlog2 f => some (execVlog2 f)
  | .vsin f => some (execVsin f)
  | .vcos f => some (execVcos f)
  | .vredAdd f => some (execVredAdd f)
  | .vredMin f => some (execVredMin f)
  | .vredMax f => some (execVredMax f)
  | .vcvt f => some (execVcvt f)
  | .vseed f => some (execVseed f)
  | .vdot2 f => some (execVdot2 f)
  | .vdot4 f => some (execVdot4 f)
  | .vdot8 f => some (execVdot8 f)
  | .vrint f => some (execVrint f)
  | .cbld f => some (execCbld f)
  | .plc f => some (execPlc f)
  | .qfree f => some (execQfree f)
  | .pgr f => some (execPgr f)
  | .ld f => some (execLd f)
  | .xrd f => some (execXrd f)
  | .st f => some (execSt f)
  | .ldSp f => some (execLdSp f)
  | .stSp f => some (execStSp f)
  | .perf f => some (execPerf f)
  | .pwrqLvl f => some (execPwrqLvl f)
  | .pwrqGate f => some (execPwrqGate f)
  | .pwrqWeir f => some (execPwrqWeir f)
  | .pwrqTherm f => some (execPwrqTherm f)
  | .nbld f => some (execNbld f)
  | .nbfma f => some (execNbfma f)
  | .nbdot f => some (execNbdot f)
  | .nbst f => some (execNbst f)
  | .trr f => some (execTrr f)
  | .trw f => some (execTrw f)
  | .joinArrival => some execJoinArrival
  | _ => none

end Sys2Proof.Machine
end

