-- ==== Sys2Proof/Machine/Window.lean ====
section
/-!
DEFINITION. Issue ahead of commit (08/R121-R127): what has issued and not committed stands in a group's window in program order.
An instruction has its effect at its commit; what it is judged by at its issue is the state that the earlier ones leave, as far as
they can be evaluated then. `qfree`, `pgr` and `pwrq` act at issue, and so does the claim of a `plc` (03/R45).
-/

namespace Sys2Proof.Machine

open Sys2Proof

/-! ### The state that uncommitted instructions leave -/

/-- Bytes that a load has read before its commit, as `Group.earlyBytes` finds them. -/
def earlyAsk (bs : List Byte) : Asked :=
  { va := 0, due := 0, seq := 0, fetch := false, answer := some (true, bs), olds := [], mine := [] }

/-- The group as an instruction of the window finds it. -/
def WinEntry.seen (w : WinEntry) (g : Group) : Group :=
  { g with pc := w.pc, win := [], wait := none, waited := 0, granted := w.found, asked := w.early.map earlyAsk, fetched := [] }

/-- An instruction has gone by: neither a trap nor a wait nor a park. -/
def Group.passed (old g : Group) : Bool := g.status == .running && g.depth == old.depth && g.wait.isNone

/-- The effect of an instruction of the window: a scalar named at its issue and its next address, or its meaning. -/
def WinEntry.effect (w : WinEntry) : Option (State → Host.Outcome State Fault Refusal) :=
  match w.held with
  | some x => some fun t => .next (retire w.ins w.act (t.setScalar w.ins.form.d x))
  | none => (meaning w.ins).map fun run t => t.asReduced w.reduced run

/-- An instruction of the window evaluated; none where it does not complete with the next address that it had at issue. -/
def State.evaluate (t : State) (w : WinEntry) : Option State :=
  match w.effect with
  | none => none
  | some run => match run { t with me := w.seen t.me } with
    | .next r => if t.me.passed r.me && r.me.pc == w.next then some r else none
    | _ => none

/-! ### What depends on what: registers by their specifiers, predicate n as 256 + n, memory as 512, the scratchpad as 513, the trap
registers as 515, the codebook as 516, the map entry of `vN` as 1024 + n, a block of 128 B of memory as 2^20 and its number -/

/-- What a field names. -/
def fieldKeys (k : Kind) (x : BitVec 8) (span : Nat) : List Nat :=
  match k with
  | .unused => []
  | .idx _ => [256 + x.toNat]
  | _ => (List.range span).map (x.toNat + ·)

/-- The blocks of n bytes at va. -/
def blockKeys (va n : Nat) : List Nat := (List.range ((va % 128 + n + 127) / 128)).map fun j => 2 ^ 20 + va / 128 + j

/-- The map entries that decide where an instruction reads and executes. -/
def placeKeys (info : Info) (f : Form) : List Nat := (namedVectors info f).map (1024 + ·)

/-- A register that an instruction names lies in the scratchpad. -/
def Group.inScratch (g : Group) (info : Info) (f : Form) : Bool := (namedVectors info f).any fun n => mapPlace (g.entry n) == 1

/-- What decides whether an instruction's lanes are active and where it goes on. -/
def guardKeys (f : Form) : List Nat :=
  (match f.pred with | some p => [256 + p.pn.toNat] | none => [])
    ++ match f.nx with | .cond _ cp _ _ => [256 + cp.toNat] | .ret => [0xCF] | _ => []

/-- What an instruction that reads memory, the scratchpad, the codebook or the trap registers finds there. -/
def Group.storeKeys (g : Group) (info : Info) (f : Form) (va : Nat) : List Nat :=
  (if info.op = 0xB0 || info.op = 0xB8 || info.op = 0xE0 || info.op = 0xE1 then 512 :: blockKeys va 128
    else if info.op = 0xE2 then 512 :: blockKeys va 4096 else [])
    ++ (if info.op = 0xB2 || g.inScratch info f then [513] else []) ++ (if info.op = 0xEA then [515] else [])
    ++ if 0x40 ≤ info.op && info.op ≤ 0x62 then [516] else []

/-- What an instruction may read; a destination too, of which it may leave a part. -/
def Group.readKeys (g : Group) (i : Instr) (va : Word) : List Nat :=
  match i.row with
  | none => []
  | some (info, f) =>
    fieldKeys info.d f.d (info.dspan f) ++ fieldKeys info.a f.a (info.sspan f) ++ fieldKeys info.b f.b (info.sspan f)
      ++ fieldKeys info.c f.cSpec (info.sspan f) ++ guardKeys f ++ placeKeys info f ++ g.storeKeys info f va.toNat

/-- What must be known when an instruction issues: what decides its lanes, its places and its next address, the mask and the loop count that
it sets, the island that a `pgr` or a `pwrq` names, the row of a near-bank access. -/
def boundKeys (i : Instr) : List Nat :=
  match i.row with
  | none => []
  | some (info, f) => guardKeys f ++ placeKeys info f
      ++ if info.op < 2 || info.op = 5 || info.op = 6 || info.op = 0x83 || info.op = 0xD5 || (0xE0 ≤ info.op && info.op ≤ 0xE3) then
        [f.a.toNat, f.b.toNat] else []

/-- Things that are not known, of which none is everything, meet keys. -/
def meetsKeys (k : Option (List Nat)) (keys : List Nat) : Bool :=
  match k with
  | none => true
  | some ks => ks.any keys.contains

/-- What is not known behind an instruction whose result is not: its destination and the queues that it pops; the bytes that it stores, and
memory as a whole where they may stand at another address too, unless it `parks`; for one that sets the mask or a mode, everything. -/
def Group.spoils (g : Group) (w : WinEntry) (parks : Bool) : Option (List Nat) :=
  match w.ins.row with
  | none => none
  | some (info, f) =>
    let op := info.op
    let pops := popList info g f
    if op = 0xB1 || op = 0xE3 then some ((if parks then [] else [512]) ++ blockKeys w.va.toNat 128 ++ pops)
    else if op = 0xB3 then some (513 :: pops)
    else if op = 0x62 then some (516 :: pops)
    else if op = 0xEB then some [515]
    else if op = 0x80 then some [f.d.toNat, 1024 + f.d.toNat, 513]
    else if (2 ≤ op && op ≤ 4) || (0x10 ≤ op && op ≤ 0x61) || op = 0xB0 || op = 0xB2 || op = 0xB8 || op = 0xD4 || op = 0xEA
        || (0xE0 ≤ op && op ≤ 0xE2) then
      some (0x87 :: 0x88 :: fieldKeys info.d f.d (info.dspan f) ++ pops ++ if g.inScratch info f then [513] else [])
    else none

/-- More is not known. -/
def spread (k more : Option (List Nat)) : Option (List Nat) :=
  match k, more with
  | some a, some b => some (a ++ b)
  | _, _ => none

/-- An access of the window that parks where `t` stands. -/
def State.parksAt (t : State) (w : WinEntry) : Bool :=
  match w.effect with
  | some run => (match run { t with me := w.seen t.me } with
    | .next r => r.me.status == .parked
    | _ => false)
  | none => false

/-- The group behind an instruction whose result is not known: at its next address, with the stacks as it leaves them (02/R18). -/
def Group.skip (g : Group) (w : WinEntry) : Group :=
  match ({ g with pc := w.pc } : Group).advance w.ins.form.nx w.ins.form.len.bytes with
  | .ok g' => if g'.pc = w.next then g' else { g with pc := w.next }
  | .error _ => { g with pc := w.next }

/-- The state that instructions of a window leave; those whose results are not known, because they stop or depend on one that does; and
what is not known behind them. -/
def State.ahead : List WinEntry → Option (List Nat) → State → State × List WinEntry × Option (List Nat)
  | [], k, t => (t, [], k)
  | w :: rest, k, t =>
    match if w.held.isNone && meetsKeys k (t.me.readKeys w.ins w.va) then none else t.evaluate w with
    | some r => State.ahead rest k r
    | none =>
      let (r, late, k) := State.ahead rest (spread k (t.me.spoils w (t.parksAt w))) { t with me := t.me.skip w }
      (r, w :: late, k)

/-- The group of the turn without its window, and without what its waiting instruction keeps. -/
def State.bare (s : State) : State :=
  { s with me := { s.me with
      status := .running, win := [], parked := none, wait := none, waited := 0, granted := none, asked := none, raised := none } }

/-- What the window of the group of the turn leaves, at its next address. -/
def State.window (s : State) : State × List WinEntry × Option (List Nat) :=
  let (t, late, lost) := State.ahead s.me.win (some []) s.bare
  ({ t with me := { t.me with pc := s.me.pc, fetched := [] } }, late, lost)

/-! ### Reads before commit (08/R124) -/

/-- A near-bank load's read; with no active lane there is none. -/
def nearRead (i : Instr) (f : Form) (x : Word) (offs : List Nat) (t : State) : Except Halt (List Byte × State) :=
  if t.me.active f = 0 then .ok ([], t)
  else match bankRow i t (bankD t.me f) x false with
    | .error h => .error h
    | .ok (r, t) => readRow i t (r.lo + BitVec.ofNat 64 (x.toNat % 65536)) r.la offs

/-- What a load reads when it executes. -/
def memRead (i : Instr) : Option (State → Except Halt (List Byte × State)) :=
  match i with
  | .ld f => some fun t =>
    let ty := f.type .v
    if ty == .v && t.me.active f = 0 then .ok ([], t)
    else loadBytes i t (t.me.address f) (if ty == .v then 128 else accessSize ty)
      (if ty == .v then laneBytes (t.me.active f) else List.range (accessSize ty)) (ty != .v)
  | .nbld f => some fun t => nearRead i f (t.me.address f) (laneBytes (t.me.active f)) t
  | .nbfma f => some fun t => nearRead i f (t.me.scalar f.a) (laneBytes (t.me.active f)) t
  | .nbdot f => some fun t => nearRead i f (t.me.scalar f.a) (dotBytes (t.me.active f)) t
  | .xrd f => some (cellBytes i f .f32 false)
  | _ => none

/-- A load that is an acquire (18/R277), or an `xrd`, which is strong: strong accesses agree with the order of the program (18/R283, R289). -/
def State.acquires (t : State) (i : Instr) : Bool :=
  match i with
  | .xrd _ => true
  | .ld f => f.ord != 0 || (match translated i t (t.me.address f) false with | .ok (_, sc, _) => sc | .error _ => false)
  | _ => false

/-- A load may read when the loads before it have, in the order of the program (17/R270, 18/R288), but for one that has parked, behind which
it reads again (log 1); an acquire also waits for every other access before it. -/
def Group.readsNext (g : Group) (n : Nat) (acq : Bool) : Bool :=
  (g.win.zipIdx.take n).all fun w => match memRead w.1.ins with
    | some _ => w.1.early.isSome || (!acq && g.parked.any (·.pos == w.2))
    | none => !acq || (match w.1.ins.row with | some (info, f) => !isAccess info f g | none => true)

/-- The place map behind a `plc` of the window, whose slot is named. -/
def Group.placedBy (g : Group) (i : Instr) : Group :=
  match i with
  | .plc f => { g with pmap := g.pmap.set f.d.toNat (BitVec.ofNat 32 (f.plc.toNat * 2 ^ 29 + f.imm.toNat % 2 ^ 16)) }
  | _ => g

/-- What is not known of the window's results until its loads have read. -/
def Group.unsettled (g : Group) (late : List WinEntry) : Option (List Nat) :=
  (g.win.foldl (fun (x : Group × Option (List Nat)) w =>
    (x.1.placedBy w.ins,
      if w.held.isNone && (meetsKeys x.2 (x.1.readKeys w.ins w.va) || late.contains w || ((memRead w.ins).isSome && w.early.isNone)) then
        spread x.2 (x.1.spoils w true) else x.2)) (g, some [])).2

/-! ### Queues (03/R49, 08/R127): a push is poppable at its commit, and a pop frees its slot at its own -/

/-- The queues that an instruction pops. -/
def poppedBy (g : Group) (i : Instr) (act : BitVec 32) : List Nat :=
  match i.row with
  | some (info, f) =>
    if act = 0 && info.op ≠ 0x1C && info.op ≠ 0x62 || info.op = 0x80 || info.op = 0x81 then [] else popList info g f
  | none => []

/-- Pops of the queue `vN` that have issued and not committed. -/
def Group.windowPops (g : Group) (n : Nat) : Nat := (g.win.filter fun w => (poppedBy g w.ins w.act).contains n).length

/-- The culverts of the group of the turn with its uncommitted pushes, in flight from their issue on; `pops` takes its uncommitted pops
away. -/
def State.culvertView (s : State) (pops : Bool) : Map Culvert :=
  let g := s.me
  (g.pmap.filter fun e => 2 ≤ mapQKind e.2).foldl (fun m e =>
    let k := culvertOf g.core e.2
    let c := s.culvert k
    let n := g.windowPushes e.1
    m.set k { c with
      entries := c.entries.drop (if pops then g.windowPops e.1 else 0), taken := c.taken + n
      flying := c.flying ++ List.replicate n (s.cycles g.core + 12, .fresh) }) s.culverts

/-- The queues of the group of the turn as a further instruction finds them at issue: uncommitted pops have taken the oldest entries, and
uncommitted pushes have taken slots. The rest is as `t` has it. -/
def State.queueView (s t : State) : State :=
  { t with culverts := s.culvertView true, me := { t.me with lqueues := s.me.lqueues.update fun n q => q.drop (s.me.windowPops n) } }

/-- A further instruction pops an empty queue, or pushes into a full one that it does not pop, or meets a queue whose other end is away
(03/R47, R49). -/
def State.queueStalls (s u : State) (i : Instr) (w : WinEntry) : Bool :=
  let g := s.me
  let pops := poppedBy g i w.act
  let culvert (n : Nat) : Culvert := u.culvert (culvertOf g.core (g.entry n))
  pops.any (fun n => if mapQKind (g.entry n) = 1 then (u.me.lqueues.get n []).isEmpty
      else (culvert n).away || (culvert n).entries.isEmpty)
    || match Spec.of i.form.d with
      | .vec n => w.pushes n && mapQKind (g.entry n) != 0
          && ((2 ≤ mapQKind (g.entry n) && (culvert n).away) || (s.freeSlots n == 0 && !pops.contains n))
      | _ => false

/-! ### Issue -/

/-- An instruction that executes at `sp`, `nb` or `pe`, or moves a register there or back (08/R122). -/
def Group.goesAway (g : Group) (i : Instr) : Bool :=
  match i.row with
  | none => false
  | some (info, f) => (meaning i).isSome && match info.op with
    | 0xE3 => true
    | 0x80 => mapPlace (g.entry f.d.toNat) != 0 || f.plc != 0
    | _ => (execPlace info g f).any fun p => p != .ln

/-- An instruction that may leave uncommitted ones before it, but for what its operands and their state decide. -/
def mayLead (i : Instr) : Bool := i.wellFormed && (meaning i).isSome && i.form.nx != .exit

/-- Vector arithmetic that goes on in order and writes no predicate: its traps at issue depend on no operand value. -/
def plainVector (i : Instr) : Bool :=
  0x30 ≤ i.opcode && i.opcode ≤ 0x62 && i.form.nx == .seq
    && match i.row with | some (info, _) => info.d.isDest | none => false

/-- A trap that a further instruction may follow into the window: one of the execution stage or of a translation, whose instruction goes on
in order (08/R130). -/
def Trap.late (kind place : Nat) : Bool := (1 ≤ kind && kind ≤ 5) || kind == 13 || kind == 17 || (kind == 19 && place == 7)

/-- The `tcause` of the trap by which a step of the group of the turn has ended. -/
def State.lastCause (s : State) : Nat :=
  if s.me.status ≠ .stopped then s.me.tcause.toNat
  else if s.myTeam.steward then (s.part s.myPart).strap.tcause.toNat
  else (((s.part s.myPart).reports.getLast?).map (·.tcause.toNat)).getD 0

/-- An instruction whose trap or park comes after its issue. -/
def lateStop (i : Instr) (r : State) : Bool :=
  i.form.nx == .seq && (r.me.status == .parked
    || (r.lastCause / 2 ^ 8 % 2 == 0 && Trap.late (r.lastCause % 256) (r.lastCause / 2 ^ 12 % 8)))

/-- The access of an instruction finds a Device page: it waits for every earlier instruction (08/R124). -/
def State.meetsDevice (t : State) (i : Instr) : Bool :=
  match i with
  | .ld f | .st f => match (t.translate t.myPart t.me.core (t.me.address f).toNat (t.who t.me 0 0) false false).1 with
    | .ok h _ => (match h with | .ram _ | .window _ | .log _ | .comb _ => false | _ => true)
    | _ => false
  | _ => false

/-- An instruction enters the window. -/
def Group.push (g : Group) (w : WinEntry) : Group :=
  { g with win := g.win ++ [w], pc := w.next, wait := none, waited := 0, fetched := [], words := g.words + 1
           yielded := g.yielded || w.ins.form.nx == .yield }

/-- The entry of an instruction that issues where `t` stands. -/
def State.entryOf (t : State) (i : Instr) (next : VAddr) (away : Bool) : WinEntry :=
  let f := i.form
  { pc := t.me.pc, ins := i, next, held := none, away, act := t.me.active f, done := false, early := none, found := none
    va := if i.opcode = 0xE1 || i.opcode = 0xE2 then t.me.scalar f.a else t.me.address f }

/-- A `plc` enters with its slot named, which is claimed (03/R45); none where the register's team still holds the slot. -/
def State.claimSlot (s r : State) (f : Form) : Option (Instr × State) :=
  let n := f.d.toNat
  let e := r.me.entry n
  let taken := mapPlace e = 1 && (List.range 128).any fun m => m != n && (s.me.entries m).contains e
  if taken then none
  else
    let i := Instr.plc { f with imm := BitVec.ofNat 64 (mapSlot e) }
    some (i, if mapPlace e = 2 then s.ownBank s.myPart (bankOf e).1 (bankOf e).2 (some (s.meId, n)) else s)

/-- The row that a near-bank instruction finds at its issue (27/R394), with what its walk has corrected (26/R387). -/
def State.nearFound (s u : State) (i : Instr) (w : WinEntry) : Option (Word × Home × Bool) × State :=
  if 0xE0 ≤ i.opcode && i.opcode ≤ 0xE3 && w.act != 0 then
    match bankRow i { s with me := u.me } (bankD u.me i.form) w.va (i.opcode == 0xE3) with
    | .ok (r, t) => (some (w.va, .ram r.la, false), { t with me := s.me })
    | .error _ => (none, s)
  else (none, s)

/-- An instruction issues ahead of its commit (08/R122-R124), or waits. -/
def State.issueAhead (s : State) (i : Instr) : State :=
  let g := s.me
  let hold (w : Wait) : State := { s with me := g.waitOn w s.time }
  let (t, late, lost) := s.window
  let u := s.queueView t
  let enter (s : State) (e : WinEntry) : State := { s with me := s.me.push e }
  let away := t.me.goesAway i
  let plain := t.entryOf i (g.pc + BitVec.ofNat 52 i.form.len.bytes) away
  let query (r : Host.Outcome State Fault Refusal) (d : BitVec 8) : State :=
    match r with
    | .next r =>
      if t.me.passed r.me then
        enter { r with me := g, culverts := s.culverts } { plain with next := r.me.pc, held := some (r.me.scalar d), done := true }
      else hold .window
    | _ => hold .window
  let now (culverts : Map Culvert) : State := { s with me := t.me, culverts }
  if !mayLead i || (away && 16 ≤ (g.win.filter (·.away)).length) || meetsKeys (g.unsettled late) (boundKeys i) then hold .window
  else match i with
    | .qfree f =>
      match execQfree f t with
      | .next r =>
        if t.me.passed r.me then enter s { plain with next := r.me.pc, held := some (BitVec.ofNat 64 (s.freeSlots f.a.toNat)), done := true }
        else hold .window
      | _ => hold .window
    | .pgr f => query (execPgr f (now (s.culvertView false))) f.d
    | .pwrqLvl f => query (execPwrqLvl f (now s.culverts)) f.d
    | .pwrqGate f => query (execPwrqGate f (now s.culverts)) f.d
    | .pwrqWeir f => query (execPwrqWeir f (now s.culverts)) f.d
    | .pwrqTherm f => query (execPwrqTherm f (now s.culverts)) f.d
    | _ =>
      if meetsKeys lost (t.me.readKeys i plain.va) then
        match i.row with
        | some (info, f) => match plainVector i, issueCheck i info f false u with
          | true, .ok _ => if s.queueStalls u i plain then hold .queue else enter s plain
          | _, _ => hold .window
        | none => hold .window
      else if u.meetsDevice i then hold .window
      else
        let u : State := match i with | .plc _ => { u with parts := s.parts } | _ => u
        match meaning i with
        | none => hold .window
        | some run => match run u with
          | .next r =>
            if t.me.passed r.me then
              if s.queueStalls u i plain then hold .queue
              else match i with
              | .plc f => match s.claimSlot r f with
                | some (i, s) => enter s { plain with ins := i, next := r.me.pc }
                | none => hold .window
              | _ =>
                let (found, s) := s.nearFound u i plain
                enter s { plain with next := r.me.pc, found }
            else match r.me.wait with
              | some w => hold (if w = .answer then .window else w)
              | none =>
                if lateStop i r then
                  let (found, s) := s.nearFound u i plain
                  enter s { plain with found }
                else hold .window
          | _ => hold .window

/-- A join check of a group with a window takes its place there, and counts as no instruction (02/R18). -/
def Group.pushJoin (g : Group) (em : BitVec 32) (next : VAddr) : Group :=
  { g with
    win := g.win ++ [{ pc := g.pc, ins := .joinArrival, next, held := none, away := false, act := em, va := 0, done := true
                       early := none, found := none }]
    pc := next, wait := none, waited := 0, fetched := [] }

/-! ### Completion -/

/-- The group of the turn has parked on one access and now parks on an older one. -/
def State.unparked (s : State) : State :=
  match s.me.parked with
  | some { entry := some e, .. } => s.modCore s.me.core fun k => { k with fbuf := k.fbuf.erase e }
  | _ => s

/-- What a load meets in memory when it reads before its commit (26/R387). -/
def State.meets (s : State) (seen : Group) (read : State → Except Halt (List Byte × State)) : State :=
  match read { s with me := seen } with
  | .ok (_, t) => { t with me := s.me }
  | .error _ => s

/-- Instruction n of the window of the group of the turn executes where the earlier ones allow it (08/R121): it has its result and has
read what it loads, or knows its trap; a replayable fault parks the group (R145), whose other instructions go on. A read that first drains
the combining buffer is made at the commit (18/R279). -/
def State.complete (s : State) (n : Nat) : State :=
  let g := s.me
  let may := g.status == .running || (g.status == .parked && !(g.parked.any (·.pos == n)))
  match g.win[n]? with
  | none => s
  | some w =>
    let (t, _, lost) := State.ahead (g.win.take n) (some []) s.bare
    if w.done || !may || meetsKeys lost (t.me.readKeys w.ins w.va) then s
    else match w.effect with
      | none => s
      | some run =>
        let t : State := { t with me := w.seen t.me }
        let done (s : State) (early : Option (List Byte)) : State :=
          { s with me := { g with win := g.win.zipIdx.map fun x => if x.2 = n then { x.1 with done := true, early } else x.1 } }
        match run t with
        | .next r =>
          if t.me.passed r.me then
            match memRead w.ins with
            | none => done s none
            | some read =>
              if r.me.pc ≠ w.next then done s none
              else if !g.readsNext n (t.acquires w.ins) then s
              else match read t with
                | .ok (bs, u) => if u.me.wc = t.me.wc then done (s.meets t.me read) (some bs) else done s none
                | .error _ => s
          else match r.me.parked, r.me.wait with
            | some p, _ =>
            if g.parked.any (·.pos < n) then s
            else
              let s := s.unparked.park p.trap p.va p.ins n w.pc
              { s with me := { s.me with parked := s.me.parked.map fun q => { q with reduced := w.reduced } } }
            | none, some .answer => if n = 0 then done s none else s
            | none, some _ => s
            | none, none => done s none
        | _ => s

/-- Instruction n of a group's window completes. -/
def execInstructionCompletion (g n : Nat) (s : State) : Host.Outcome State Fault Refusal :=
  .next (s.asGroup g fun s => s.complete n)

/-! ### Commit -/

/-- The younger instructions of a group are squashed (08/R126): what they hold outside it is given back. -/
def State.squashYounger (s : State) (old : Group) (rest : List WinEntry) : State :=
  let s := ({ s with me := { s.me with win := rest, parked := old.parked } } : State).squash s.meId
  { s with me := { s.me with win := [], parked := none } }

/-- The oldest instruction of a group's window commits, if it has completed (08/R121, R123); in a parked group, while it stands before the
parked access (R145). -/
def State.commit (s : State) : State :=
  let old := s.me
  match old.win with
  | [] => s
  | w :: rest =>
    if !w.done || !(old.status == .running || (old.status == .parked && old.parked.any (0 < ·.pos))) || old.asked.any (·.fetch) then s
    else
      let keep (g : Group) (win : List WinEntry) : Group :=
        { g with pc := old.pc, win, wait := old.wait, waited := old.waited, fetched := old.fetched, yielded := old.yielded
                 words := old.words, status := old.status, sched := old.sched, parked := old.parked }
      let committed (s : State) : State :=
        let s : State := { s with me := keep s.me rest }
        match old.parked with
        | none => s
        | some p =>
          let p : Parked := { p with pos := p.pos - 1 }
          let s : State := { s with me := { s.me with parked := some p } }
          if p.doomed then s.condemned s.meId p else s
      match w.effect with
      | none => s
      | some run =>
        let seen := w.seen old
        let bare : Group := { seen with status := .running, parked := none, words := old.words - 1, asked := seen.asked.or old.asked }
        match run { s with me := bare } with
        | .next r =>
          if bare.passed r.me then
            if r.me.pc = w.next then committed r
            else
              let r := r.squashYounger old rest
              { r with me := { r.me with fetched := [], yielded := w.ins.form.nx == .yield } }
          else match r.me.parked, r.me.wait with
            | some p, _ =>
              let r := r.squashYounger old []
              { r with me := { (keep r.me old.win) with status := .parked, parked := some { p with reduced := w.reduced }, sched := .pending, wait := none, waited := 0 } }
            | none, some _ => { r with me := keep r.me old.win }
            | none, none => r.squashYounger old rest
        | _ => s

/-- The group in `subject` commits its oldest instruction. -/
def execInstructionCommit (s : State) : Host.Outcome State Fault Refusal := .next (s.asGroup s.subject State.commit)

end Sys2Proof.Machine
end

