-- ==== Sys2Proof/Machine/Dispatch.lean ====
section
/-!
DEFINITION. One arm for each row of the opcode table: the meaning that `exec` gives it.
-/

namespace Sys2Proof.Machine

open Sys2Proof

def exec (i : Instr) (s : State) : Host.Outcome State Fault Refusal :=
  match i with
  | .nop f => Sys2Proof.Machine.execNop f s
  | .lps f => Sys2Proof.Machine.execLps f s
  | .pmov f => Sys2Proof.Machine.execPmov f s
  | .pand f => Sys2Proof.Machine.execPand f s
  | .por f => Sys2Proof.Machine.execPor f s
  | .pxor f => Sys2Proof.Machine.execPxor f s
  | .pandn f => Sys2Proof.Machine.execPandn f s
  | .pnot f => Sys2Proof.Machine.execPnot f s
  | .pget f => Sys2Proof.Machine.execPget f s
  | .pset f => Sys2Proof.Machine.execPset f s
  | .emget f => Sys2Proof.Machine.execEmget f s
  | .emset f => Sys2Proof.Machine.execEmset f s
  | .fmt f => Sys2Proof.Machine.execFmt f s
  | .fmtRnd f => Sys2Proof.Machine.execFmtRnd f s
  | .fmtAb f => Sys2Proof.Machine.execFmtAb f s
  | .fmtFtz f => Sys2Proof.Machine.execFmtFtz f s
  | .fmtCbs f => Sys2Proof.Machine.execFmtCbs f s
  | .fmtTrp f => Sys2Proof.Machine.execFmtTrp f s
  | .fmrd f => Sys2Proof.Machine.execFmrd f s
  | .ffget f => Sys2Proof.Machine.execFfget f s
  | .ffclr f => Sys2Proof.Machine.execFfclr f s
  | .mov f => Sys2Proof.Machine.execMov f s
  | .add f => Sys2Proof.Machine.execAdd f s
  | .sub f => Sys2Proof.Machine.execSub f s
  | .mul f => Sys2Proof.Machine.execMul f s
  | .mulh f => Sys2Proof.Machine.execMulh f s
  | .mulhu f => Sys2Proof.Machine.execMulhu f s
  | .div f => Sys2Proof.Machine.execDiv f s
  | .divu f => Sys2Proof.Machine.execDivu f s
  | .rem f => Sys2Proof.Machine.execRem f s
  | .remu f => Sys2Proof.Machine.execRemu f s
  | .and f => Sys2Proof.Machine.execAnd f s
  | .or f => Sys2Proof.Machine.execOr f s
  | .xor f => Sys2Proof.Machine.execXor f s
  | .andn f => Sys2Proof.Machine.execAndn f s
  | .shl f => Sys2Proof.Machine.execShl f s
  | .shr f => Sys2Proof.Machine.execShr f s
  | .sra f => Sys2Proof.Machine.execSra f s
  | .rol f => Sys2Proof.Machine.execRol f s
  | .min f => Sys2Proof.Machine.execMin f s
  | .max f => Sys2Proof.Machine.execMax f s
  | .minu f => Sys2Proof.Machine.execMinu f s
  | .maxu f => Sys2Proof.Machine.execMaxu f s
  | .cmp f => Sys2Proof.Machine.execCmp f s
  | .sel f => Sys2Proof.Machine.execSel f s
  | .clz f => Sys2Proof.Machine.execClz f s
  | .ctz f => Sys2Proof.Machine.execCtz f s
  | .popc f => Sys2Proof.Machine.execPopc f s
  | .sxt f => Sys2Proof.Machine.execSxt f s
  | .zxt f => Sys2Proof.Machine.execZxt f s
  | .vget f => Sys2Proof.Machine.execVget f s
  | .vmov f => Sys2Proof.Machine.execVmov f s
  | .vaddInt f => Sys2Proof.Machine.execVaddInt f s
  | .vsubInt f => Sys2Proof.Machine.execVsubInt f s
  | .vmulInt f => Sys2Proof.Machine.execVmulInt f s
  | .vmulh f => Sys2Proof.Machine.execVmulh f s
  | .vmad f => Sys2Proof.Machine.execVmad f s
  | .vand f => Sys2Proof.Machine.execVand f s
  | .vor f => Sys2Proof.Machine.execVor f s
  | .vxor f => Sys2Proof.Machine.execVxor f s
  | .vandn f => Sys2Proof.Machine.execVandn f s
  | .vshl f => Sys2Proof.Machine.execVshl f s
  | .vshr f => Sys2Proof.Machine.execVshr f s
  | .vsra f => Sys2Proof.Machine.execVsra f s
  | .vminInt f => Sys2Proof.Machine.execVminInt f s
  | .vmaxInt f => Sys2Proof.Machine.execVmaxInt f s
  | .vcmpInt f => Sys2Proof.Machine.execVcmpInt f s
  | .vcmppInt f => Sys2Proof.Machine.execVcmppInt f s
  | .vsel f => Sys2Proof.Machine.execVsel f s
  | .vshflIdx f => Sys2Proof.Machine.execVshflIdx f s
  | .vshflUp f => Sys2Proof.Machine.execVshflUp f s
  | .vshflDn f => Sys2Proof.Machine.execVshflDn f s
  | .vshflXor f => Sys2Proof.Machine.execVshflXor f s
  | .vshflBc f => Sys2Proof.Machine.execVshflBc f s
  | .qswz f => Sys2Proof.Machine.execQswz f s
  | .vpack f => Sys2Proof.Machine.execVpack f s
  | .vunpack f => Sys2Proof.Machine.execVunpack f s
  | .vclz f => Sys2Proof.Machine.execVclz f s
  | .vpopc f => Sys2Proof.Machine.execVpopc f s
  | .vsclget f => Sys2Proof.Machine.execVsclget f s
  | .vsclset f => Sys2Proof.Machine.execVsclset f s
  | .vaddFp f => Sys2Proof.Machine.execVaddFp f s
  | .vsubFp f => Sys2Proof.Machine.execVsubFp f s
  | .vmulFp f => Sys2Proof.Machine.execVmulFp f s
  | .vfma f => Sys2Proof.Machine.execVfma f s
  | .vminFp f => Sys2Proof.Machine.execVminFp f s
  | .vmaxFp f => Sys2Proof.Machine.execVmaxFp f s
  | .vcmpFp f => Sys2Proof.Machine.execVcmpFp f s
  | .vcmppFp f => Sys2Proof.Machine.execVcmppFp f s
  | .vabs f => Sys2Proof.Machine.execVabs f s
  | .vneg f => Sys2Proof.Machine.execVneg f s
  | .vcpsgn f => Sys2Proof.Machine.execVcpsgn f s
  | .vrcp f => Sys2Proof.Machine.execVrcp f s
  | .vrsq f => Sys2Proof.Machine.execVrsq f s
  | .vsqrt f => Sys2Proof.Machine.execVsqrt f s
  | .vexp2 f => Sys2Proof.Machine.execVexp2 f s
  | .vlog2 f => Sys2Proof.Machine.execVlog2 f s
  | .vsin f => Sys2Proof.Machine.execVsin f s
  | .vcos f => Sys2Proof.Machine.execVcos f s
  | .vredAdd f => Sys2Proof.Machine.execVredAdd f s
  | .vredMin f => Sys2Proof.Machine.execVredMin f s
  | .vredMax f => Sys2Proof.Machine.execVredMax f s
  | .vcvt f => Sys2Proof.Machine.execVcvt f s
  | .vseed f => Sys2Proof.Machine.execVseed f s
  | .vdot2 f => Sys2Proof.Machine.execVdot2 f s
  | .vdot4 f => Sys2Proof.Machine.execVdot4 f s
  | .vdot8 f => Sys2Proof.Machine.execVdot8 f s
  | .vrint f => Sys2Proof.Machine.execVrint f s
  | .cbld f => Sys2Proof.Machine.execCbld f s
  | .plc f => Sys2Proof.Machine.execPlc f s
  | .qfree f => Sys2Proof.Machine.execQfree f s
  | .xchg f => Sys2Proof.Machine.execXchg f s
  | .pgr f => Sys2Proof.Machine.execPgr f s
  | .mma f => Sys2Proof.Machine.execMma f s
  | .mmaSw f => Sys2Proof.Machine.execMmaSw f s
  | .mzero f => Sys2Proof.Machine.execMzero f s
  | .mzeroSw f => Sys2Proof.Machine.execMzeroSw f s
  | .mdr f => Sys2Proof.Machine.execMdr f s
  | .mdrSp f => Sys2Proof.Machine.execMdrSp f s
  | .sdrDiff f => Sys2Proof.Machine.execSdrDiff f s
  | .sdrRatio f => Sys2Proof.Machine.execSdrRatio f s
  | .sdrAgree f => Sys2Proof.Machine.execSdrAgree f s
  | .agset f => Sys2Proof.Machine.execAgset f s
  | .gang f => Sys2Proof.Machine.execGang f s
  | .racq f => Sys2Proof.Machine.execRacq f s
  | .rrel f => Sys2Proof.Machine.execRrel f s
  | .rcfg f => Sys2Proof.Machine.execRcfg f s
  | .cpy f => Sys2Proof.Machine.execCpy f s
  | .cpg f => Sys2Proof.Machine.execCpg f s
  | .cpm f => Sys2Proof.Machine.execCpm f s
  | .cseal f => Sys2Proof.Machine.execCseal f s
  | .cwait f => Sys2Proof.Machine.execCwait f s
  | .wmrdMark f => Sys2Proof.Machine.execWmrdMark f s
  | .wmrdState f => Sys2Proof.Machine.execWmrdState f s
  | .wmrdBase f => Sys2Proof.Machine.execWmrdBase f s
  | .wmrdLimit f => Sys2Proof.Machine.execWmrdLimit f s
  | .wmcfg f => Sys2Proof.Machine.execWmcfg f s
  | .ld f => Sys2Proof.Machine.execLd f s
  | .st f => Sys2Proof.Machine.execSt f s
  | .ldSp f => Sys2Proof.Machine.execLdSp f s
  | .stSp f => Sys2Proof.Machine.execStSp f s
  | .lds f => Sys2Proof.Machine.execLds f s
  | .kwait f => Sys2Proof.Machine.execKwait f s
  | .atomAdd f => Sys2Proof.Machine.execAtomAdd f s
  | .atomMin f => Sys2Proof.Machine.execAtomMin f s
  | .atomMax f => Sys2Proof.Machine.execAtomMax f s
  | .atomAnd f => Sys2Proof.Machine.execAtomAnd f s
  | .atomOr f => Sys2Proof.Machine.execAtomOr f s
  | .atomXor f => Sys2Proof.Machine.execAtomXor f s
  | .atomExch f => Sys2Proof.Machine.execAtomExch f s
  | .atomCas f => Sys2Proof.Machine.execAtomCas f s
  | .xsum f => Sys2Proof.Machine.execXsum f s
  | .xrd f => Sys2Proof.Machine.execXrd f s
  | .xrdClr f => Sys2Proof.Machine.execXrdClr f s
  | .fence f => Sys2Proof.Machine.execFence f s
  | .bar f => Sys2Proof.Machine.execBar f s
  | .lnch f => Sys2Proof.Machine.execLnch f s
  | .tndr f => Sys2Proof.Machine.execTndr f s
  | .bidf f => Sys2Proof.Machine.execBidf f s
  | .tacc f => Sys2Proof.Machine.execTacc f s
  | .perf f => Sys2Proof.Machine.execPerf f s
  | .pwrqLvl f => Sys2Proof.Machine.execPwrqLvl f s
  | .pwrqGate f => Sys2Proof.Machine.execPwrqGate f s
  | .pwrqWeir f => Sys2Proof.Machine.execPwrqWeir f s
  | .pwrqTherm f => Sys2Proof.Machine.execPwrqTherm f s
  | .nbld f => Sys2Proof.Machine.execNbld f s
  | .nbfma f => Sys2Proof.Machine.execNbfma f s
  | .nbdot f => Sys2Proof.Machine.execNbdot f s
  | .nbst f => Sys2Proof.Machine.execNbst f s
  | .mapc f => Sys2Proof.Machine.execMapc f s
  | .unmapc f => Sys2Proof.Machine.execUnmapc f s
  | .xinv f => Sys2Proof.Machine.execXinv f s
  | .fbsvc f => Sys2Proof.Machine.execFbsvc f s
  | .trap f => Sys2Proof.Machine.execTrap f s
  | .tret f => Sys2Proof.Machine.execTret f s
  | .trr f => Sys2Proof.Machine.execTrr f s
  | .trw f => Sys2Proof.Machine.execTrw f s
  | .spt f => Sys2Proof.Machine.execSpt f s
  | .npr f => Sys2Proof.Machine.execNpr f s
  | .epr f => Sys2Proof.Machine.execEpr f s
  | .rbget f => Sys2Proof.Machine.execRbget f s
  | .rbput f => Sys2Proof.Machine.execRbput f s
  | .srr f => Sys2Proof.Machine.execSrr f s
  | .srw f => Sys2Proof.Machine.execSrw f s
  | .trmarkRead f => Sys2Proof.Machine.execTrmarkRead f s
  | .trapRingSet f => Sys2Proof.Machine.execTrapRingSet f s
  | .trtailWrite f => Sys2Proof.Machine.execTrtailWrite f s
  | .sysregWrite f => Sys2Proof.Machine.execSysregWrite f s
  | .preemptLight f => Sys2Proof.Machine.execPreemptLight f s
  | .preemptFull f => Sys2Proof.Machine.execPreemptFull f s
  | .restore f => Sys2Proof.Machine.execRestore f s
  | .resume f => Sys2Proof.Machine.execResume f s
  | .resumet f => Sys2Proof.Machine.execResumet f s
  | .endteam f => Sys2Proof.Machine.execEndteam f s
  | .cancel f => Sys2Proof.Machine.execCancel f s
  | .instructionCompletion g n => Sys2Proof.Machine.execInstructionCompletion g n s
  | .ldsReply g n => Sys2Proof.Machine.execLdsReply g n s
  | .homeRequest r => Sys2Proof.Machine.execHomeRequest r s
  | .teamEndReport p slot => Sys2Proof.Machine.execTeamEndReport p slot s
  | .weirInterval cl used => Sys2Proof.Machine.execWeirInterval cl used s
  | .thermalPoll cl tclu tbase => Sys2Proof.Machine.execThermalPoll cl tclu tbase s
  | .droopDetected terrace ps => Sys2Proof.Machine.execDroopDetected terrace ps s
  | .copyLand c id n => Sys2Proof.Machine.execCopyLand c id n s
  | .multicastLand c id pos n => Sys2Proof.Machine.execMulticastLand c id pos n s
  | .cohortBind p slot => Sys2Proof.Machine.execCohortBind p slot s
  | .hostRingWrite p off bytes => Sys2Proof.Machine.execHostRingWrite p off bytes s
  | .descriptorControlStore p q x => Sys2Proof.Machine.execDescriptorControlStore p q x s
  | .consWrite p q x => Sys2Proof.Machine.execConsWrite p q x s
  | .descriptorWrite p q off x => Sys2Proof.Machine.execDescriptorWrite p q off x s
  | .bidSample p rd => Sys2Proof.Machine.execBidSample p rd s
  | .flitReceive fl => Sys2Proof.Machine.execFlitReceive fl s
  | .deviceCompletion g seq ok bytes => Sys2Proof.Machine.execDeviceCompletion g seq ok bytes s
  | .clusterReset cl retire => Sys2Proof.Machine.execClusterReset cl retire s
  | .remapStep p map => Sys2Proof.Machine.execRemapStep p map s
  | .pageExchange p va la => Sys2Proof.Machine.execPageExchange p va la s
  | .bankRefresh p b => Sys2Proof.Machine.execBankRefresh p b s
  | .activationAlert p b => Sys2Proof.Machine.execActivationAlert p b s
  | .patrolScrub p la syms => Sys2Proof.Machine.execPatrolScrub p la syms s
  | .sramScrub c off bits => Sys2Proof.Machine.execSramScrub c off bits s
  | .beatParityFail p bus grp la => Sys2Proof.Machine.execBeatParityFail p bus grp la s
  | .busLineTest p bus line again => Sys2Proof.Machine.execBusLineTest p bus line again s
  | .hostWindowWrite p off bytes => Sys2Proof.Machine.execHostWindowWrite p off bytes s
  | .hostWindowRead p off n => Sys2Proof.Machine.execHostWindowRead p off n s
  | .controlPageWrite p off x => Sys2Proof.Machine.execControlPageWrite p off x s
  | .signalPageStore p x => Sys2Proof.Machine.execSignalPageStore p x s
  | .negotiateAlgorithms fn offer => Sys2Proof.Machine.execNegotiateAlgorithms fn offer s
  | .getCertificate fn slot => Sys2Proof.Machine.execGetCertificate fn slot s
  | .challenge fn slot nonce => Sys2Proof.Machine.execChallenge fn slot nonce s
  | .getMeasurements fn index => Sys2Proof.Machine.execGetMeasurements fn index s
  | .moduleReset boot => Sys2Proof.Machine.execModuleReset boot s
  | .voltageReplan lowered => Sys2Proof.Machine.execVoltageReplan lowered s
  | .reservedOpcode word => Sys2Proof.Machine.execReservedOpcode word s
  | .refreshComplete p b => Sys2Proof.Machine.execRefreshComplete p b s
  | .postponedRefresh p b => Sys2Proof.Machine.execPostponedRefresh p b s
  | .joinArrival => Sys2Proof.Machine.execJoinArrival s
  | .instructionCommit => Sys2Proof.Machine.execInstructionCommit s
  | .trapEntry => Sys2Proof.Machine.execTrapEntry s
  | .trapReportLanding => Sys2Proof.Machine.execTrapReportLanding s
  | .accessRestart => Sys2Proof.Machine.execAccessRestart s
  | .culvertEntryArrival => Sys2Proof.Machine.execCulvertEntryArrival s
  | .slotReturn => Sys2Proof.Machine.execSlotReturn s
  | .groupExit => Sys2Proof.Machine.execGroupExit s
  | .emergencyBlockGrant => Sys2Proof.Machine.execEmergencyBlockGrant s
  | .heldRequestGrant => Sys2Proof.Machine.execHeldRequestGrant s
  | .gatingDischarged => Sys2Proof.Machine.execGatingDischarged s
  | .holdEnd => Sys2Proof.Machine.execHoldEnd s
  | .inrushSlot => Sys2Proof.Machine.execInrushSlot s
  | .wakeComplete => Sys2Proof.Machine.execWakeComplete s
  | .levelReached => Sys2Proof.Machine.execLevelReached s
  | .slewThrottleEnd => Sys2Proof.Machine.execSlewThrottleEnd s
  | .nprTimeLimit => Sys2Proof.Machine.execNprTimeLimit s
  | .forcedSave => Sys2Proof.Machine.execForcedSave s
  | .stallPreemption => Sys2Proof.Machine.execStallPreemption s
  | .groupFrameWrite => Sys2Proof.Machine.execGroupFrameWrite s
  | .teamSectionsWrite => Sys2Proof.Machine.execTeamSectionsWrite s
  | .restorePlacement => Sys2Proof.Machine.execRestorePlacement s
  | .longWaitSwap => Sys2Proof.Machine.execLongWaitSwap s
  | .yieldSwap => Sys2Proof.Machine.execYieldSwap s
  | .promotion => Sys2Proof.Machine.execPromotion s
  | .swapComplete => Sys2Proof.Machine.execSwapComplete s
  | .gangStepRelease => Sys2Proof.Machine.execGangStepRelease s
  | .mmaStepComplete => Sys2Proof.Machine.execMmaStepComplete s
  | .batchFailureReport => Sys2Proof.Machine.execBatchFailureReport s
  | .teamPlacement => Sys2Proof.Machine.execTeamPlacement s
  | .tenderAnnounce => Sys2Proof.Machine.execTenderAnnounce s
  | .tenderWindowClose => Sys2Proof.Machine.execTenderWindowClose s
  | .awardArrival => Sys2Proof.Machine.execAwardArrival s
  | .benchExpiry => Sys2Proof.Machine.execBenchExpiry s
  | .withdrawalArrival => Sys2Proof.Machine.execWithdrawalArrival s
  | .acceptanceArrival => Sys2Proof.Machine.execAcceptanceArrival s
  | .remoteTimeout => Sys2Proof.Machine.execRemoteTimeout s
  | .deviceCompletionTimeout => Sys2Proof.Machine.execDeviceCompletionTimeout s
  | .wcIdleDrain => Sys2Proof.Machine.execWcIdleDrain s
  | .clusterResetDone => Sys2Proof.Machine.execClusterResetDone s
  | .start => Sys2Proof.Machine.execStart s
  | .stop => Sys2Proof.Machine.execStop s
  | .restart => Sys2Proof.Machine.execRestart s
  | .functionLevelReset => Sys2Proof.Machine.execFunctionLevelReset s
  | .getVersion => Sys2Proof.Machine.execGetVersion s
  | .getCapabilities => Sys2Proof.Machine.execGetCapabilities s
  | .getDigests => Sys2Proof.Machine.execGetDigests s
  | .calibrationEnd => Sys2Proof.Machine.execCalibrationEnd s
  | .gateCancelled => Sys2Proof.Machine.execGateCancelled s
  | .currentSlewExceeded => Sys2Proof.Machine.execCurrentSlewExceeded s

end Sys2Proof.Machine
end

