-- ==== Sys2Proof/Machine/Fetch.lean ====
section
/-!
DEFINITION. Fetching an instruction's bytes (04/R56, 08/R130 rank 1, 26/R376, R388) and placing them where the machine fetches.
-/

namespace Sys2Proof.Machine

open Sys2Proof

/-- The outcome of a fetch: the words as one number; or a trap, a parked group or a wait. -/
inductive Fetch where
  | word (w : Nat) (s : State)
  | stop (s : State)
deriving DecidableEq, Repr

/-- Unrecoverable translation at the fetch of a word (08/R131, R418). -/
def State.fetchFault (s : State) (va : Word) : Fetch := .stop (s.takeTrap s.meId (fetchTrap 19 7 va s.me))

def State.fetchWaits (s : State) (w : Wait) : Fetch := .stop { s with me := s.me.waitOn w s.time }

/-- A fetched word; its bytes are kept until the instruction has issued, so that a wait does not fetch it again. -/
def State.gotWord (s : State) (a : Nat) (bs : List Byte) : Fetch :=
  .word (numOf (bs.take 4)) { s with me := { s.me with fetched := bs.zipIdx.foldl (fun m b => m.set (a + b.2) b.1) s.me.fetched } }

/-- The bytes of a word fetched from another module (28/R404). -/
def State.fetchRemote (s : State) (va : Word) (a m la : Nat) : Fetch :=
  match s.me.asked with
  | none =>
    let q := s.nextId
    let ask : Asked := { va, due := s.time + msCycles, seq := q, fetch := true, answer := none, olds := [], mine := [] }
    let send : Outgoing := .remote s.meId q (s.portsTo m) m la (.read 4)
    ({ s with nextId := q + 1, outbox := s.outbox ++ [send], me := { s.me with asked := some ask } } : State).fetchWaits .answer
  | some k => if !k.fetch then s.fetchWaits .answer else match k.answer with
    | some (true, bs) => ({ s with me := { s.me with asked := none } } : State).gotWord a bs
    | some (false, _) => ({ s with me := { s.me with asked := none } } : State).fetchFault va
    | none => s.fetchWaits .answer

/-- The word at an address. -/
def State.fetchWord (s : State) (a : Nat) : Fetch :=
  let va := BitVec.ofNat 64 a
  if (List.range 4).all fun j => (s.me.fetched.get? (a + j)).isSome then
    .word (numOf ((List.range 4).map fun j => s.me.fetched.get (a + j) 0)) s
  else match s.translate s.myPart s.me.core a (s.who s.me va 6) false true with
    | (.replay, s) => .stop (s.park (fetchTrap 19 7 va s.me) va none)
    | (.bad, s) => s.fetchFault va
    | (.wait, _) => s.fetchWaits .register
    | (.ok h _, s) => match h with
      | .ram la =>
        if !s.reaches s.myPart la 4 then (s.refuse la).fetchFault va
        else if s.bankBusy la then s.fetchWaits .register
        else match s.readOffs la (s.who s.me va 6) (List.range 4) with
          | .ok (bs, s) => s.gotWord a bs
          | .error (_, s) => s.fetchFault va
      | .remote m la => s.fetchRemote va a m la
      | _ => s.fetchFault va

/-- The n words from an address on; addresses wrap at 52 bits. -/
def State.fetchWords (a : Nat) : Nat → State → Fetch
  | 0, s => .word 0 s
  | n + 1, s => match s.fetchWord (a % 2 ^ 52) with
    | .stop s => .stop s
    | .word w s => match State.fetchWords (a + 4) n s with
      | .stop s => .stop s
      | .word r s => .word (w + 2 ^ 32 * r) s

/-- The whole instruction at the pc of the group whose turn it is: its first word tells its length (04/R56). -/
def State.fetch (s : State) : Fetch :=
  match State.fetchWords s.me.pc.toNat 1 s with
  | .stop s => .stop s
  | .word w s => match State.fetchWords (s.me.pc.toNat + 4) ((Len.ofCode (w % 4)).bytes / 4 - 1) s with
    | .stop s => .stop s
    | .word r s => .word (w + 2 ^ 32 * r) s

/-- The lanes active for words that the decoder rejects: their predicate counts where its fields are valid (00/R8). -/
def Group.activeFor (g : Group) (w : Nat) : BitVec 32 :=
  if w % 2 = 0 then g.em
  else match predOf w with
    | some (some p) => g.em &&& (if p.neg then ~~~g.pred p.pn.toNat else g.pred p.pn.toNat)
    | _ => g.em

/-- Illegal instruction for words that decode to none (04/R68). -/
def State.illegalWord (s : State) (w : Nat) : State :=
  let t : Trap :=
    { kind := 6, tval := BitVec.ofNat 64 (w % 2 ^ 32), tlm := s.me.activeFor w, place := 4, op := w / 32 % 256, nxs := false }
  s.counted.takeTrap s.meId t

/-! ### Placing an instruction -/

/-- A leaf that lets the module's own DRAM at la be fetched: V and X. -/
def codeLeaf (module base la : Nat) : Leaf :=
  { base, large := false, entry := BitVec.ofNat 64 (module * 2 ^ 44 + la + 0x11) }

/-- The group of the turn, made to issue next. -/
def Group.readied (g : Group) : Group :=
  { g with
    status := .running, sched := .active, wait := none, waited := 0, notBefore := 0, words := 0, pend := none, parked := none, granted := none
    raised := none, asked := none, fetched := [], win := [], yielded := false, stopAt := none
    rstack := if (match g.rstack with | e :: _ => e.join == g.pc | [] => false) then [] else g.rstack }

/-- The mark of a group that has tried to issue in this cycle without using a port, of a core whose pending groups have been judged, and of
a cycle that closes. -/
def noPort : Nat := 9
def judgedMark : Nat := 8
def closedMark : Nat := 10

/-- The first cycle of a core from the current time on. -/
def State.nextTick (s : State) (c : Nat) : Nat :=
  (((List.range 4).map (s.time + ·)).find? fun t => s.cycleOf c t != s.cycleOf c (t + 1)).getD s.time

/-- An instruction's 20 bytes at the pc of the group of the turn (a new group where there is none), in the first pages of the
partition's interleaved window, with their leaves in the core's translation buffer; the other groups of the core have had their turn in
the cycle. -/
def State.placeWord (s : State) (w : Nat) : State :=
  let new := s.me.status == .absent
  let g := (if new then { s.me with status := .running } else s.me).readied
  let pc := g.pc.toNat
  let la := corePart g.core * partWindow
  let base := pc / 65536 * 65536
  let code := [codeLeaf s.module base la, codeLeaf s.module (base + 65536) (la + 65536)]
  let id := if new then s.nextId else s.meId
  { s with
    me := g, meId := id, nextId := if new then s.nextId + 1 else s.nextId, agenda := [.run id], time := s.nextTick g.core
    issued := (s.others.filter fun x => x.2.core == g.core).map fun x => (x.1, g.core, noPort)
    mem := Memory.writeN s.mem (la + pc % 65536) (bytesOf w 20)
    damaged := s.damaged.filter fun d => !(la / 64 ≤ d.1 && d.1 < la / 64 + 2048)
    cores := s.cores.set g.core { s.core g.core with tlb := code ++ (s.core g.core).tlb } }

end Sys2Proof.Machine
end

