-- ==== Sys2Proof/Machine/Turn.lean ====
section
/-!
DEFINITION. What moves next (log 2): the head of `agenda`; without one, the steps of a cycle in their order. First what falls due in
the cycle, then the readiness of pending groups and promotions, then up to four issues on each core, oldest group first (21/R338,
R339), then what must be done before the cycle ends and what the hardware does in its own time; then the next cycle. No schedule passes
the moment at which something falls due (00/R416).
-/

namespace Sys2Proof.Machine

open Sys2Proof

/-! ### The issue of a group -/

/-- The group of the turn, some of whose instructions have not committed, comes to its next address: a join, which takes its place behind
them, or an instruction that issues ahead of its commit (08/R121-R124), or waits until they have committed. -/
def State.issueBehind (s : State) : State :=
  let hold (s : State) : State := { s with me := s.me.waitOn .window s.time }
  match s.window.1.me.join with
  | some (.ok g) => { s with me := s.me.pushJoin s.window.1.me.em g.pc }
  | some (.error _) => hold s
  | none => match s.fetch with
    | .stop t => if t.me.wait.isNone then hold s else t
    | .word w t => match decodeBits w with
      | .ok i => t.issueAhead i
      | .error _ => hold s

/-- The group of the turn issues: the join check; or the fetch and the instruction, which `early` sends ahead of its commit if it
executes away from the core. -/
def State.issue (s : State) (early : Bool) : Host.Outcome State Fault Refusal :=
  if !s.me.win.isEmpty then .next s.issueBehind
  else if s.me.join.isSome then exec .joinArrival s
  else match s.fetch with
    | .stop t => .next t
    | .word w t => match decodeBits w with
      | .ok i => if early && t.me.goesAway i then .next (t.issueAhead i) else exec i t
      | .error _ => .next (t.illegalWord w)

/-- The issue ports of a core (21/R338): vector, matrix, copy, place-remote, load/store. -/
def portOf (info : Info) (g : Group) (f : Form) : Nat :=
  let op := info.op
  if 0x90 ≤ op && op ≤ 0x96 then 1
  else if (0x97 ≤ op && op ≤ 0x99) || (0xA0 ≤ op && op ≤ 0xA6) then 2
  else if (0x80 ≤ op && op ≤ 0x83) || (0xE0 ≤ op && op ≤ 0xE3) then 3
  else if (0xB0 ≤ op && op ≤ 0xBA) || (0xE4 ≤ op && op ≤ 0xE6) then 4
  else if 0x30 ≤ op && op ≤ 0x62 && (execPlace info g f).any fun p => p != .ln then 3
  else 0

/-- The port that the group of the turn needs now: none for a join check, which is no issue; words that decode to no instruction use a
vector port, as a reserved opcode does (21/R339). -/
def State.needsPort (s : State) : Option Nat :=
  if s.window.1.me.join.isSome then none
  else match s.fetch with
    | .stop _ => some noPort
    | .word w _ => match decodeBits w with
      | .ok i => some (match i.row with | some (info, f) => portOf info s.me f | none => 0)
      | .error _ => some 0

/-- A throttled partition's vector and matrix ports issue in 1 cycle of 2 (23/R361); in a bubble the matrix port issues nothing
(R360). -/
def State.portShut (s : State) (c port : Nat) : Bool :=
  (port ≤ 1 && (s.part (corePart c)).slew.isSome && s.cycles c % 2 == 1) || (port == 1 && s.bubble c)

/-- A port of a core has room in this cycle: two vector issues, one of each other kind, four in all. -/
def State.portFree (s : State) (c port : Nat) : Bool :=
  let mine := s.issued.filter fun e => e.2.1 == c && e.2.2 < judgedMark
  port == noPort || (!s.portShut c port && mine.length < 4
    && (mine.filter fun e => e.2.2 == port).length < (if port = 0 then 2 else 1))

/-- A group that stands before a forced save issues no further instruction (09/R149); one whose barrier has released leaves it first. -/
def State.mustSave (s : State) (x : Group) : Bool :=
  s.requested x && !x.depth && 4096 < x.words && x.asked.isNone && !s.released x

/-- No signalled trap, forced save or reconfiguration comes before a group's next instruction, nor does its step in the engine, and the
cycles of its trap (08/R138) have passed. A trap waits for what `State.takePend` lets go first. -/
def State.mayGo (s : State) (g : Nat) (x : Group) : Bool :=
  x.notBefore ≤ s.cycles x.core && (x.pend.isNone || x.sentOnce || s.released x) && !s.mustSave x && !s.inEngine g && !s.standing x

/-- A group that may issue in this cycle, but for a port: it runs in the active set of a core whose clock ticks and has not issued yet. -/
def State.mayIssue (s : State) (g : Nat) (x : Group) : Bool :=
  x.seated && s.ticks x.core && !(s.issued.any (·.1 == g)) && s.mayGo g x

/-- The order of groups within a cycle: core by core, the oldest first (21/R337, R339). -/
def State.turnKey (s : State) (x : Group) : List Nat := x.core :: s.ageKey x

/-- The next group to issue with its port, among those of some cores. -/
def State.issuerOn (s : State) (cores : Nat → Bool) : Option (Nat × Option Nat) :=
  let ready := s.groups.filter fun x => cores x.2.core && s.mayIssue x.1 x.2 && (match (s.turn x.1).needsPort with
    | none => true
    | some port => s.portFree x.2.core port)
  (leastGroup s.turnKey ready).map fun x => (x.1, (s.turn x.1).needsPort)

def State.issuer (s : State) : Option (Nat × Option Nat) := s.issuerOn fun _ => true

/-- A step at the latch enters the engine before an instruction of a later member of its team that goes on behind it (13/R219). -/
def State.gangFirst (s : State) (g : Nat) (port : Option Nat) (early : Bool) : Bool :=
  let x := s.group g
  let t := s.releaseStep x.team
  port == some 1 && (s.team x.team).fullGang.any (·.any (·.index < x.index)) && t != s
    && match (t.turn g).issue early with
      | .next r => (r.group g).wait.isNone
      | _ => false

/-- The issue is noted: the port used, or none by an instruction that waits; an arrival at the latch uses its port. -/
def State.noteIssue (old s : State) (g : Nat) (port : Option Nat) : State :=
  let x := s.group g
  let arrived := (old.team x.team).latch.length < (s.team x.team).latch.length
  match port with
  | none => s
  | some n => { s with issued := (g, (old.group g).core, if x.wait.isSome && !arrived then noPort else n) :: s.issued }

/-- A group issues in its turn of the cycle. -/
def State.issueOf (s : State) (g : Nat) (port : Option Nat) (early : Bool) : Host.Outcome State Fault Refusal :=
  if s.gangFirst g port early then exec .gangStepRelease { s with subject := (s.group g).team }
  else match (s.turn g).issue early with
    | .next t => .next (s.noteIssue t g port)
    | r => r

/-! ### Pending groups (21/R342) -/

/-- A group as its next instruction would leave it, where it may issue one. -/
def State.trial (s : State) (g : Nat) : Option Group :=
  if s.mayGo g (s.group g) then match (s.turn g).issue false with
    | .next t => some (t.group g)
    | _ => none
  else none

/-- A pending group judged: since when it has been ready, or what it waits for. -/
def Group.judgedBy (g : Group) (trial : Option Group) (t : Nat) : Group :=
  match trial.map (·.wait) with
  | none => { g with ready := none }
  | some none => { g with ready := g.ready.or (some t) }
  | some (some w) => { (if g.ready.isSome then { g with wait := none } else g).waitOn w t with ready := none }

/-- The pending groups of a core judged in this cycle. -/
def State.judged (s : State) (c : Nat) : State :=
  (s.pendings c).foldl (fun t x => t.modGroup x.1 fun y => y.judgedBy (s.trial x.1) s.time)
    { s with issued := (0, c, judgedMark) :: s.issued }

/-- A core with pending groups that this cycle has not judged yet. -/
def State.unjudged (s : State) : Option Nat :=
  (s.groups.find? fun x => x.2.status == .running && x.2.sched == .pending && s.ticks x.2.core
    && !(s.issued.any fun e => e.2 == (x.2.core, judgedMark))).map (·.2.core)

/-! ### The hardware -/

/-- A step by another agent, with its subject. -/
abbrev Auto := Instr × Nat

/-- The step changes something. -/
def State.moves (s : State) (e : Auto) : Bool :=
  match exec e.1 { s with subject := e.2 } with
  | .next t => t != { s with subject := e.2 }
  | _ => false

/-- What falls due for a group. -/
def groupDue (x : Nat × Group) : List Auto :=
  [.trapEntry, .forcedSave, .swapComplete, .nprTimeLimit, .remoteTimeout, .deviceCompletionTimeout, .wcIdleDrain].map fun i => (i, x.1)

/-- The line that a test finds is not the spec's (26/R389). -/
def State.lineTest (s : State) (p b : Nat) : Instr :=
  let w := (Config.freeWord s.free (64 * p + b)).toNat
  let grp := (((s.bus p b).testing.map (·.2.1.group)).getD 0)
  .busLineTest p b (if w.testBit 0 then some (32 * grp + w / 4 % 32) else none) (w.testBit 1)

/-- What falls due in a partition: the schedule of a tender's round, refreshes, line tests, the end of a slew throttle. -/
def State.partDue (s : State) (x : Nat × Partition) : List Auto :=
  let (p, y) := x
  ([.bidSample p [], .tenderWindowClose, .awardArrival, .withdrawalArrival, .acceptanceArrival, .slewThrottleEnd].map fun i => (i, p))
    ++ ((List.range 64).flatMap fun b =>
      (if y.bankmap.getLsbD b && (s.bank p b).due + refreshPeriod ≤ s.time then [(.bankRefresh p b, p)] else [])
        ++ if 0 < (s.bank p b).busy then [(.refreshComplete p b, p)] else [])
    ++ (y.buses.flatMap fun b => (s.lineTest p b.1, p) :: b.2.resend.toList.map fun r => (.beatParityFail p b.1 r.2.1.group (64 * r.2.1.col), p))

/-- What the patrols read (26/R387), those of partitions without an entry among them that hold a damaged column. -/
def State.patrolsDue (s : State) : List Auto :=
  ((s.parts.keys ++ s.damaged.keys.map fun c => 64 * c / partWindow).eraseDups).flatMap fun p =>
    (s.patrolNext p).toList.map fun la => (.patrolScrub p la 0, p)

/-- What falls due on a core: its power state, its level, the end of benching. -/
def State.coreDue (s : State) (x : Nat × Core) : List Auto :=
  let (c, k) := x
  ([.heldRequestGrant, .gatingDischarged, .gateCancelled, .holdEnd, .wakeComplete, .benchExpiry].map fun i => (i, c))
    ++ if k.reached ≠ s.targetLevel c && k.targetAt + usCycles ≤ s.time then [(.levelReached, c)] else []

/-- A cluster's reset ends within 20 µs (28/R401). -/
def resetCycles : Nat := 22_000

/-- What falls due for a cluster: its in-rush slot, the control interval, the poll, the end of a reset. -/
def State.clusterDue (s : State) (x : Nat × Cluster) : List Auto :=
  let (k, y) := x
  [(.inrushSlot, k)]
    ++ (if y.weirAt + weirPeriod ≤ s.time then [(.weirInterval k y.used, k)] else [])
    ++ (if y.pollAt + pollPeriod ≤ s.time then [(.thermalPoll k y.heat.toNat y.heatBase.toNat, k)] else [])
    ++ if y.reset.any (fun t => t + resetCycles ≤ s.time) || (y.reset.isNone && y.retiring) then [(.clusterResetDone, k)] else []

/-- What falls due now, in the order in which it is tried; a winner that waited for a wake is placed once its island is up
(22/R347). -/
def State.dues (s : State) : List Auto :=
  (s.culverts.flatMap fun q => [(.culvertEntryArrival, q.1), (.slotReturn, q.1)]) ++ (s.teams.flatMap fun t =>
      (.mmaStepComplete, t.1) :: if t.2.state = .awarded then [(.teamPlacement, t.1)] else []) ++ [(.remoteTimeout, 0)]
    ++ s.groups.flatMap groupDue ++ s.clusters.flatMap s.clusterDue ++ s.cores.flatMap s.coreDue ++ s.parts.flatMap s.partDue ++ s.patrolsDue

/-- What is done before the cycle ends: steps released at the latch, swaps, pre-emptions of groups that wait, announcements of rounds. -/
def State.closings (s : State) : List Auto :=
  (s.teams.map fun t => (.gangStepRelease, t.1))
    ++ (s.groups.flatMap fun x => [.stallPreemption, .yieldSwap, .longWaitSwap].map fun i => (i, x.1))
    ++ s.parts.map fun p => (.tenderAnnounce, p.1)

/-- What the hardware does for a group in its own time. -/
def groupOwn (x : Nat × Group) : List Auto :=
  let (g, y) := x
  ([.groupExit, .accessRestart, .groupFrameWrite, .batchFailureReport].map fun i => (i, g))
    ++ ((List.range y.splits.length).map fun n => (.ldsReply g n, g))
    ++ ((List.range y.win.length).map fun n => (.instructionCompletion g n, g))

/-- The copies of a core land, by turns of 64 bytes. -/
def coreOwn (x : Nat × Core) : List Auto :=
  let (c, k) := x
  (.emergencyBlockGrant, c) :: k.copies.flatMap fun y =>
    if y.2.kind = .cpm then (List.range 16).map fun q => (.multicastLand c y.1 q 64, c) else [(.copyLand c y.1 64, c)]

def State.partOwn (s : State) (x : Nat × Partition) : List Auto :=
  let (p, y) := x
  [(.trapReportLanding, p)]
    ++ (y.slots.flatMap fun l => [(.teamEndReport p l.1, p), (.cohortBind p l.1, p)])
    ++ (if s.starting p then [(.start, p)] else [])
    ++ (if y.service == 1 && s.calib.get (p / 4) false then [(.calibrationEnd, p / 4)] else [])
    ++ (y.remapTo.toList.map fun m => (.remapStep p m, p))
    ++ (if y.exch.isSome then [(.pageExchange p 0 0, p)] else [])
    ++ y.banks.map fun b => (.postponedRefresh p b.1, p)

/-- What the hardware does in its own time (00/R416). -/
def State.owns (s : State) : List Auto :=
  s.groups.flatMap groupOwn
    ++ (s.teams.flatMap fun t => [.teamSectionsWrite, .restorePlacement, .teamPlacement].map fun i => (i, t.1))
    ++ s.cores.flatMap coreOwn ++ s.parts.flatMap s.partOwn

/-- Requests of other modules and of the host that have waited go on once nothing holds them (18/R302, 26/R383). -/
def State.waitersGo (s : State) : Option State :=
  if s.drainInbox != s then some s.drainInbox
  else (s.hostQs.find? fun q => q.2.head?.any fun r => !s.hostWaits r.1 r.2).map fun q => s.hostDrain q.1 []

/-- A step that the list holds and that changes something. -/
def State.autoStep (s : State) (es : List Auto) : Option (Host.Outcome State Fault Refusal) :=
  (es.find? s.moves).map fun e => exec e.1 { s with subject := e.2 }

/-- What falls due. -/
def State.dueStep (s : State) : Option (Host.Outcome State Fault Refusal) :=
  (s.autoStep s.dues).or (s.waitersGo.map .next)

/-! ### Cycles -/

/-- Targets that have changed, with the cycle in which they did (23/R357). -/
def State.noteTargets (s : State) : State :=
  { s with cores := s.cores.update fun c (k : Core) =>
    if k.target = s.targetLevel c then k else { k with target := s.targetLevel c, targetAt := s.time } }

/-- The next cycle of 1.1 GHz. One of a reconfiguration's stop does not count against the limit of a region (26/R386). -/
def State.nextCycle (s : State) : State :=
  let s := s.noteTargets
  let fresh (g : Group) : Group :=
    { g with yielded := false, npr := if s.standsDown (corePart g.core) then g.npr.map (· + 1) else g.npr }
  ({ s with time := s.time + 1, issued := [], me := fresh s.me, others := s.others.update fun _ g => fresh g } : State).notePace

/-- Promotions of a cycle, in age order (21/R342). -/
def State.promotions (s : State) : List Auto := s.groups.map fun x => (.promotion, x.1)

/-- The group whose oldest instruction commits next, in the order of the groups that issue: writes of one cycle to team state take effect
by ascending group index (02/R24). -/
def State.committer (s : State) (cores : Nat → Bool) : Option Nat :=
  let able := s.groups.filter fun x => cores x.2.core && !x.2.win.isEmpty && s.ticks x.2.core && s.moves (.instructionCommit, x.1)
  match leastGroup s.turnKey able, s.issuerOn cores with
  | some x, some (h, _) => if lexLess (s.turnKey (s.group h)) (s.turnKey x.2) then none else some x.1
  | some x, none => some x.1
  | none, _ => none

/-- The long wait that an active group meets which has not tried its instruction in this cycle, for want of a port; none where the
instruction would do more than wait. -/
def State.meetsWait (s : State) (x : Nat × Group) : Option Wait :=
  let (g, y) := x
  if y.seated && s.ticks y.core && !(s.issued.any (·.1 == g)) && s.mayGo g y then match (s.turn g).issue false with
    | .next t =>
      let same := t.modGroup g fun z => { z with wait := y.wait, waited := y.waited, fetched := y.fetched }
      if same = s.turn g then (t.group g).wait.filter Wait.long else none
    | _ => none
  else none

/-- A long wait of such a group is noted (21/R341). -/
def State.probe (s : State) : Option State :=
  s.groups.findSome? fun x => (s.meetsWait x).map fun w =>
    { s.modGroup x.1 fun y => y.waitOn w s.time with issued := (x.1, x.2.core, noPort) :: s.issued }

/-- What a cycle judges and begins besides issues: the readiness of pending groups, promotions (21/R342). -/
def State.judgeStep (s : State) : Option (Host.Outcome State Fault Refusal) :=
  (s.unjudged.map fun c => .next (s.judged c)).or (s.autoStep s.promotions)

/-- What closes a cycle. -/
def State.closeStep (s : State) : Option (Host.Outcome State Fault Refusal) :=
  (s.probe.map .next).or (s.autoStep s.closings)

/-- A cycle in which nothing more commits or issues: what completes from here on is seen in the next one (02/R24). -/
def State.closed (s : State) : Bool := s.issued.any fun e => e.2.2 == closedMark

/-- Without an agenda: the steps of a cycle in their order. -/
def State.freeRun (s : State) : Host.Outcome State Fault Refusal :=
  match s.dueStep.or s.judgeStep with
  | some r => r
  | none =>
    if s.closed then match s.closeStep.or (s.autoStep s.owns) with
      | some r => r
      | none => .next s.nextCycle
    else match s.committer fun _ => true with
    | some g => exec .instructionCommit { s with subject := g }
    | none => match s.issuer with
      | some (g, port) => s.issueOf g port false
      | none => .next { s with issued := (0, 0, closedMark) :: s.issued }

/-! ### The agenda -/

/-- n cycles pass, in which no group issues; in each of them what falls due is done, pending groups are judged and the cycle closes. The
entry stays until they have passed; in the cycle that then begins only what falls due is done. -/
def State.tick (s : State) (n : Nat) : Host.Outcome State Fault Refusal :=
  match s.dueStep.or (if n = 0 then none else s.judgeStep.or s.closeStep) with
  | some (.next t) => .next { t with agenda := .tick n :: t.agenda }
  | some r => r
  | none => .next (match n with
    | 0 => s
    | n + 1 => { s.nextCycle with agenda := .tick n :: s.agenda })

/-- A group issues, if its turn on its core has come; before that an older one's instruction commits, and the entry stays. -/
def State.runNext (s : State) (g : Nat) : Host.Outcome State Fault Refusal :=
  let c := (s.group g).core
  match s.committer (· == c) with
  | some h => match exec .instructionCommit { s with subject := h } with
    | .next t => .next { t with agenda := .run g :: t.agenda }
    | r => r
  | none => match s.issuerOn (· == c) with
    | some (h, port) => if h = g then s.issueOf g port false else .next s
    | none => .next s

/-- The next issuer issues ahead of its commit. -/
def State.deferIssue (s : State) : Host.Outcome State Fault Refusal :=
  match s.issuer with
  | some (g, port) => s.issueOf g port true
  | none => .next s

/-- An entry of the agenda. A step of a group's program is none: those run by their fetch alone. -/
def State.act (s : State) (a : Act) : Host.Outcome State Fault Refusal :=
  match a with
  | .event i k => match i with
    | .reservedOpcode _ => .next s
    | i => if i.row.isSome then .next s else exec i { s with subject := k }
  | .run g => s.runNext g
  | .tick n => s.tick n
  | .defer => s.deferIssue
  | .fill c shared va => .next (s.fillLeaf c va shared)
  | .damage la syms => .next (s.damageColumn la syms)
  | .sramDamage k w => .next { s with spDamage := s.spDamage.set k (w :: s.spDamage.get k []) }
  | .share k e => .next (match e with
    | none => { s with shares := s.shares.erase k }
    | some e => if k < 256 && e.base % 2 ^ 21 == 0 && e.size % 2 ^ 21 == 0 then { s with shares := s.shares.set k e } else s)
  | .route m ps => .next { s with routes := s.routes.set m (ps.filter (· < 16)) }
  | .outbound la bus n => .next { s with outbound := (la, bus, n) :: s.outbound.filter fun e => e.1 != la }
  | .budget k e p => .next (s.modCluster k fun x => { x with energy := e, peak := p })
  | .sense k used heat base => .next (s.modCluster k fun x => { x with used, heat, heatBase := base })
  | .pool p n r => .next (if (s.part p).state = 0 && n % 2 ^ 16 == 0 && n ≤ 2 ^ 26 then
      s.modPart p fun x => { x with spool := n, rsv := r } else s)
  | .thresholds k t1 t2 t3 hyst => .next (if t1 < t2 && t2 < t3 then
      s.modCluster k fun x => { x with t1, t2, t3, hyst } else s)
  | .slew p n r => .next (s.modPart p fun x =>
      { x with slewMax := n, rise := r, slew := if n < r then some s.time else x.slew })
  | .hostRead k vf bar off n => .next (s.hostTo k vf (.page bar off n))
  | .hostAtomic k vf off fn wide c e => .next (s.hostTo k vf (.atomic off fn wide c e))
  | .flitSend k n => .next (s.sendFlit k n)
  | .flitHeard k seq good => .next (s.flitHeard k seq good)
  | .bubbles k n => .next (if 2 ≤ n && n ≤ 16 then s.modCluster k fun x => { x with bubble := n } else s)

end Sys2Proof.Machine
end

