-- ==== Sys2Proof/Machine/Step.lean ====
section
/-!
DEFINITION. One step of the module, and the placing of an instruction where the next step fetches.
-/

namespace Sys2Proof.Machine

open Sys2Proof

/-- One step. -/
def step (s : State) : Host.Outcome State Fault Refusal :=
  match s.agenda with
  | a :: rest => ({ s with agenda := rest } : State).act a
  | [] => s.freeRun

/-- The state with an instruction placed where the next step fetches: `nbits` bits of `w`, the bits above them 0. A program
is loaded from outside the machine (log 27); this stands for that load. -/
def State.withFetchWord (s : State) (nbits w : Nat) : State := s.placeWord (w % 2 ^ nbits)

end Sys2Proof.Machine
end

