-- ==== Sys2Proof/Safety.lean ====
section
/-!
DEFINITION. The terms in which claims are stated: an instruction that meets no obstacle at issue, its sources read, what a
state keeps across a step.
-/

namespace Sys2Proof.Machine

open Sys2Proof

/-- Instruction `i`, with its row and its fields, passes every check of its issue in state `s` (08/R130), and its literal
target is aligned (04/R62). -/
structure Clear (i : Instr) (info : Info) (f : Form) (s : State) : Prop where
  row      : i.row = some (info, f)
  admitted : issueCheck i info f false s = .ok ()
  target   : badTarget i s.me = none

/-- The sources of `i` are read without a wait or a trap, after which the state is `s1` (03/R40), and its destination can
take a result. -/
structure Taken (i : Instr) (info : Info) (f : Form) (always : Bool) (s s1 : State) : Prop where
  sources : readSources i info f always s = .ok s1
  ready   : destReady i info f s1 = .ok ()

/-- `i` completes: its effect leaves the state `s'`, and its next-address clause follows with the lanes active for it
(04/R67). -/
def Completes (i : Instr) (s s' : State) : Prop := exec i s = .next (retire i (s.me.active i.form) s')

/-- `i` takes a trap: the group's count of issued instructions rises (09/R149), and it has no other effect. -/
def Traps (i : Instr) (s : State) (t : Trap) : Prop := exec i s = .next (s.counted.takeTrap s.meId t)

/-- `i` waits: nothing changes but the mark of the wait and, where the wait is new, the cycle it began in. -/
def Waits (i : Instr) (s : State) (w : Wait) : Prop := exec i s = .next { s with me := s.me.waitOn w s.time }

/-- Main memory reads the same at every address. -/
def SameMemory (s t : State) : Prop := ∀ a, Memory.read t.mem a = Memory.read s.mem a

/-- The invariant of main memory: its canonical form. -/
def State.Inv (s : State) : Prop := Memory.wf s.mem = true

/-- What a group holds that only instructions of its own program write, but for the next address and its stacks: lanes,
scalars, predicates, flags, counters, codebook, map, handler registers. -/
structure SameFile (g h : Group) : Prop where
  regs   : h.regs = g.regs
  ofile  : h.ofile = g.ofile
  lr     : h.lr = g.lr
  preds  : h.preds = g.preds
  fm     : h.fm = g.fm
  ff     : h.ff = g.ff
  cb     : h.cb = g.cb
  ctrs   : h.ctrs = g.ctrs
  tvec   : h.tvec = g.tvec
  tcause : h.tcause = g.tcause
  tepc   : h.tepc = g.tepc
  tval   : h.tval = g.tval
  tlm    : h.tlm = g.tlm
  held   : h.held = g.held
  pmap   : h.pmap = g.pmap
  queues : h.lqueues = g.lqueues

end Sys2Proof.Machine
end

