-- ==== Sys2Proof/Certificates/Slice0/Obligations.lean ====
section
/-!
DEFINITION. The statements for the provers. `Result mk eff`: every clear instruction of constructor `mk` completes with the
effect `eff`, which says all that it changes before its next-address clause.
-/

namespace Sys2Proof.Claims

open Sys2Proof Sys2Proof.Machine

/-- Every instruction `mk f` that is clear in `s` completes with the effect `eff f s`. -/
def Result (mk : Form → Instr) (eff : Form → State → State) : Prop :=
  ∀ (f : Form) (s : State) (info : Info), Clear (mk f) info f s → Completes (mk f) s (eff f s)

/-! ### Scalar integer (06/R92-R96) -/

/-- A result of w bits extended to 64 by the type's signedness (06/R92). -/
def extended (t : Ty) {w : Nat} (r : BitVec w) : Word := if Ty.signed t then r.signExtend 64 else r.setWidth 64

/-- The effect of a scalar operation: A and Y at width w, the result extended by `ext` (06/R92). -/
def alu (base : Ty) (ext : Ty → {w : Nat} → BitVec w → Word) (op : (w : Nat) → BitVec w → BitVec w → BitVec w)
    (f : Form) (s : State) : State :=
  let t := f.type base
  let w := Ty.width t
  s.setScalar f.d (ext t (op w ((s.me.scalar f.a).setWidth w) ((s.me.scalar f.b + f.imm).setWidth w)))

def signExt (_ : Ty) {w : Nat} (r : BitVec w) : Word := r.signExtend 64
def zeroExt (_ : Ty) {w : Nat} (r : BitVec w) : Word := r.setWidth 64

/-! ### Vectors (06/R98, 15/R231) -/

/-- Every instruction `mk f` that is clear in `s`, whose sources are read, completes with what the write `w f s` of its
destination leaves, wherever the destination lives (03/R36). -/
def Writes (mk : Form → Instr) (always : Bool) (w : Form → State → VWrite) : Prop :=
  ∀ (f : Form) (s s1 s2 : State) (info : Info), Clear (mk f) info f s → Taken (mk f) info f always s s1 →
    writeReg (mk f) s1 (Spec.of f.d) (w f s) true = .ok s2 → Completes (mk f) s s2

/-- An element of w bits as a bit vector. -/
def elemOf (w x j : Nat) : BitVec w := BitVec.ofNat w (digit w x j)

/-- The element-wise write of 06/R98: in each active lane every element is `op a b c`; scale bytes stay. -/
def elementwise (base : Ty) (op : Form → Ty → (w : Nat) → BitVec w → BitVec w → BitVec w → BitVec w)
    (f : Form) (s : State) : VWrite :=
  let t := f.type base
  let w := elemWidth t
  let a := s.source f.a t
  let b := s.source f.b t
  let c := s.source f.cSpec t
  laneWrite (s.me.active f) fun l => packNat w
    (fun j => (op f t w (elemOf w (a.lane l) j) (elemOf w (b.lane l) j) (elemOf w (c.lane l) j)).toNat) (32 / w)

/-- The comparison that a code 0 to 5 names (05/R81). -/
def ccHolds (fn : Nat) (lt eq : Bool) : Bool :=
  match fn with
  | 0 => eq
  | 1 => !eq
  | 2 => lt
  | 3 => lt || eq
  | 4 => !lt && !eq
  | _ => !lt

def lessThan (t : Ty) {w : Nat} (x y : BitVec w) : Bool := if Ty.signed t then x.slt y else x.ult y

/-- Whole lanes of A moved by index: lane l receives lane `sel l`. -/
def moved (sel : Form → State → Nat → Nat) (f : Form) (s : State) : VWrite :=
  laneWrite (s.me.active f) fun l => (s.source f.a .v).lane (sel f s l)

/-- B mod 32 of a lane move (06/R104). -/
def moveBy (f : Form) (s : State) : Nat := (s.me.scalar f.b).toNat % 32

/-- A row of the floating-point table: the constructor, whether it rounds under RND, and its result for one element. -/
structure FpRow where
  ins    : Form → Instr
  rounds : Bool
  op     : Form → State → Fmt → Nat → Nat → Nat → FRes

/-- The results of a row's instruction, lane by lane. -/
def FpRow.results (r : FpRow) (f : Form) (s : State) : List FRes :=
  fpResults s f (f.type .f32) (r.op f s ((fmtOf (f.type .f32)).getD fmtF32))

/-- The element-wise floating-point instructions (15/R233-R238, R240). -/
def fpRows : List FpRow :=
  let rd (s : State) (fm : Fmt) (a : Nat) : FpNum := fm.read s.me.ftz a
  [ ⟨.vaddFp, true, fun _ s fm a b _ => s.me.deliver fm (numAdd s.me.down (rd s fm a) (rd s fm b))⟩
  , ⟨.vsubFp, true, fun _ s fm a b _ => s.me.deliver fm (numAdd s.me.down (rd s fm a) (rd s fm b).negate)⟩
  , ⟨.vmulFp, true, fun _ s fm a b _ => s.me.deliver fm (numMul (rd s fm a) (rd s fm b))⟩
  , ⟨.vfma, true, fun _ s fm a b c => s.me.deliver fm (numFma s.me.down (rd s fm a) (rd s fm b) (rd s fm c))⟩
  , ⟨.vminFp, false, fun _ s fm a b _ => (numSelect true (rd s fm a) (rd s fm b)).keep fm⟩
  , ⟨.vmaxFp, false, fun _ s fm a b _ => (numSelect false (rd s fm a) (rd s fm b)).keep fm⟩
  , ⟨.vcmpFp, false, fun f s fm a b _ =>
      { bits := if (numCompare f.fn.toNat (rd s fm a) (rd s fm b)).1 then 2 ^ fm.width - 1 else 0
        flags := (numCompare f.fn.toNat (rd s fm a) (rd s fm b)).2 }⟩
  , ⟨.vabs, false, fun _ _ fm a _ _ => { bits := a % 2 ^ (fm.width - 1), flags := 0 }⟩
  , ⟨.vneg, false, fun _ _ fm a _ _ => { bits := a ^^^ 2 ^ (fm.width - 1), flags := 0 }⟩
  , ⟨.vcpsgn, false, fun _ _ fm a b _ =>
      { bits := a % 2 ^ (fm.width - 1) + b / 2 ^ (fm.width - 1) % 2 * 2 ^ (fm.width - 1), flags := 0 }⟩
  , ⟨.vrcp, false, fun _ s fm a _ _ => match rd s fm a with
      | .nan sig => fm.write .arith .rne false (.nan sig)
      | .inf neg => { bits := signBit fm neg, flags := 0 }
      | .fin neg m e => if m = 0 then { bits := signBit fm neg + fm.infBits, flags := flDZ }
        else qRound s.me.ftz (recipNum neg m e)⟩
  , ⟨.vrsq, false, fun _ s fm a _ _ => match rd s fm a with
      | .nan sig => fm.write .arith .rne false (.nan sig)
      | .inf neg => if neg then { bits := fm.qnan, flags := flNV } else { bits := 0, flags := 0 }
      | .fin neg m e => if m = 0 then { bits := signBit fm neg + fm.infBits, flags := flDZ }
        else if neg then { bits := fm.qnan, flags := flNV } else qRound s.me.ftz (rsqrtNum m e)⟩
  , ⟨.vsqrt, true, fun _ s fm a _ _ => match rd s fm a with
      | .nan sig => fm.write .arith .rne false (.nan sig)
      | .inf neg => if neg then { bits := fm.qnan, flags := flNV } else { bits := fm.infBits, flags := 0 }
      | .fin neg m e => if m = 0 then { bits := signBit fm neg, flags := 0 }
        else if neg then { bits := fm.qnan, flags := flNV } else fm.write .arith s.me.mode s.me.ftz (rootNum m e)⟩
  , ⟨.vexp2, false, fun _ s fm a _ _ => match rd s fm a with
      | .nan sig => fm.write .arith .rne false (.nan sig)
      | .inf neg => { bits := if neg then 0 else fm.infBits, flags := 0 }
      | .fin neg m e => fm.write .arith .rne s.me.ftz (if m = 0 then .fin false 1 0 else exp2Num neg m e)⟩
  , ⟨.vlog2, false, fun _ s fm a _ _ => match rd s fm a with
      | .nan sig => fm.write .arith .rne false (.nan sig)
      | .inf neg => if neg then { bits := fm.qnan, flags := flNV } else { bits := fm.infBits, flags := 0 }
      | .fin neg m e => if m = 0 then { bits := signBit fm true + fm.infBits, flags := flDZ }
        else if neg then { bits := fm.qnan, flags := flNV } else fm.write .arith .rne s.me.ftz (log2Num m e)⟩
  , ⟨.vsin, false, fun _ s fm a _ _ => match rd s fm a with
      | .nan sig => fm.write .arith .rne false (.nan sig)
      | .inf _ => { bits := fm.qnan, flags := flNV }
      | .fin neg m e => fm.write .arith .rne s.me.ftz (sinNum neg m e)⟩
  , ⟨.vcos, false, fun _ s fm a _ _ => match rd s fm a with
      | .nan sig => fm.write .arith .rne false (.nan sig)
      | .inf _ => { bits := fm.qnan, flags := flNV }
      | .fin _ m e => fm.write .arith .rne s.me.ftz (cosNum m e)⟩
  , ⟨.vrint, true, fun _ s fm a _ _ => match rd s fm a with
      | .fin neg m e =>
        { bits := (fm.write .arith .rne false (.fin neg (quantize s.me.mode neg m e 0).1 0)).bits
          flags := if (quantize s.me.mode neg m e 0).2 then flNX else 0 }
      | x => fm.write .arith .rne false x⟩ ]

/-- The writes of floating-point results: active lanes, and scale bytes `0x7F` in active quads (15/R231). -/
def fpWrites (m : BitVec 32) (wide : Bool) (res : List FRes) : List VWrite :=
  let w (k : Nat) : VWrite := scaledWrite m (fun l => digit 32 (res.getD l ⟨0, 0⟩).bits k) fun _ => 0x7F
  if wide then [w 0, w 1] else [w 0]

/-- An instruction with these results of its lanes, none of which raises an enabled exception, completes: its flags are ORed
into `ff` and its destination is written (15/R231, 12/R185). -/
def FpDone (i : Instr) (info : Info) (f : Form) (s s1 : State) (wide : Bool) (res : List FRes) : Prop :=
  fpTrap i info f s.me res = none → ∀ s2,
    writeRange i (s1.raise (activeFlags (s.me.active f) res)) (Spec.of f.d) 0 (fpWrites (s.me.active f) wide res) = .ok s2 →
    Completes i s s2

/-- RND is a mode of arithmetic (12/R182). -/
def ModeLegal (s : State) : Prop := (arithMode s.me.fm).isSome = true

end Sys2Proof.Claims

open Sys2Proof Sys2Proof.Machine Sys2Proof.Opcode Sys2Proof.Claims

/-- 06/R93: the scalar operations but for division. -/
def Obligations.ScalarArithmetic : Prop :=
  Result .mov (fun f s => s.setScalar f.d
      (extended (f.type .u64) ((s.me.scalar f.a + f.imm).setWidth (Ty.width (f.type .u64)))))
  ∧ Result .add (alu .u64 extended fun _ x y => x + y)
  ∧ Result .sub (alu .u64 extended fun _ x y => x - y)
  ∧ Result .mul (alu .u64 extended fun _ x y => x * y)
  ∧ Result .mulh (alu .u64 extended fun w x y => BitVec.ofInt w (x.toInt * y.toInt / 2 ^ w))
  ∧ Result .mulhu (alu .u64 extended fun w x y => BitVec.ofNat w (x.toNat * y.toNat / 2 ^ w))
  ∧ Result .and (alu .u64 extended fun _ x y => x &&& y)
  ∧ Result .or (alu .u64 extended fun _ x y => x ||| y)
  ∧ Result .xor (alu .u64 extended fun _ x y => x ^^^ y)
  ∧ Result .andn (alu .u64 extended fun _ x y => x &&& ~~~y)
  ∧ Result .shl (alu .u64 extended fun _ x y => x <<< (y.toNat % 64))
  ∧ Result .shr (alu .u64 extended fun _ x y => x >>> (y.toNat % 64))
  ∧ Result .sra (alu .u64 extended fun _ x y => x.sshiftRight (y.toNat % 64))
  ∧ Result .rol (alu .u64 extended fun _ x y => x.rotateLeft (y.toNat % 64))
  ∧ Result .min (alu .i64 signExt fun _ x y => if x.toInt ≤ y.toInt then x else y)
  ∧ Result .max (alu .i64 signExt fun _ x y => if x.toInt ≤ y.toInt then y else x)
  ∧ Result .minu (alu .i64 zeroExt fun _ x y => if x.toNat ≤ y.toNat then x else y)
  ∧ Result .maxu (alu .i64 zeroExt fun _ x y => if x.toNat ≤ y.toNat then y else x)

/-- 06/R94: division never traps; its borderline cases. `sdiv` truncates toward zero and its quotient of the least number by
-1 is that number; `srem` has the sign of its dividend. -/
def Obligations.Division : Prop :=
  Result .div (alu .u64 extended fun w x y => if y = 0 then BitVec.allOnes w else x.sdiv y)
  ∧ Result .divu (alu .u64 extended fun w x y => if y = 0 then BitVec.allOnes w else x / y)
  ∧ Result .rem (alu .u64 extended fun _ x y => if y = 0 then x else x.srem y)
  ∧ Result .remu (alu .u64 extended fun _ x y => if y = 0 then x else x % y)

/-- 06/R95: a comparison writes a whole predicate register, whatever `em` holds. FN is the comparison's code (05/R81).
06/R96: `sel`, and the two extensions, which FN decides whatever the type's signedness.
06/R96: the counts of leading zero, trailing zero and one bits of the 64-bit value; 64 for 0. -/
def Obligations.CompareSelectCount : Prop :=
  (Result .cmp fun f s =>
    let t := f.type .i64
    let w := Ty.width t
    let x : BitVec w := (s.me.scalar f.a).setWidth w
    let y : BitVec w := (s.me.scalar f.b + f.imm).setWidth w
    let lt : Bool := if Ty.signed t then x.slt y else x.ult y
    let holds := match f.fn.toNat with
      | 0 => x == y
      | 1 => x != y
      | 2 => lt
      | 3 => lt || x == y
      | 4 => !lt && x != y
      | _ => !lt
    s.setPred f.d.toNat (if holds then 0xFFFF_FFFF else 0))
  ∧ Result .sel (fun f s => s.setScalar f.d (if s.me.scalar f.cSpec ≠ 0 then s.me.scalar f.a else s.me.scalar f.b))
  ∧ Result .sxt (fun f s => s.setScalar f.d (((s.me.scalar f.a).setWidth (Ty.width (f.type .u32))).signExtend 64))
  ∧ Result .zxt (fun f s => s.setScalar f.d (((s.me.scalar f.a).setWidth (Ty.width (f.type .u32))).setWidth 64))
  ∧ (∀ (f : Form) (s : State) (info : Info), Clear (.clz f) info f s → ∃ n ≤ 64,
    Completes (.clz f) s (s.setScalar f.d (BitVec.ofNat 64 n)) ∧ (s.me.scalar f.a).toNat < 2 ^ (64 - n)
      ∧ (n < 64 → 2 ^ (63 - n) ≤ (s.me.scalar f.a).toNat))
  ∧ (∀ (f : Form) (s : State) (info : Info), Clear (.ctz f) info f s → ∃ n ≤ 64,
    Completes (.ctz f) s (s.setScalar f.d (BitVec.ofNat 64 n)) ∧ (s.me.scalar f.a).toNat % 2 ^ n = 0
      ∧ (n < 64 → (s.me.scalar f.a).getLsbD n = true))
  ∧ Result .popc (fun f s => s.setScalar f.d
      (BitVec.ofNat 64 ((List.range 64).filter fun n => (s.me.scalar f.a).getLsbD n).length))

/-- 06/R90: the predicate instructions, whole registers whatever `em` holds, operands read before the write. -/
def Obligations.Predicates : Prop :=
  Result .pmov (fun f s => s.setPred f.d.toNat (s.me.pred f.a.toNat))
  ∧ Result .pand (fun f s => s.setPred f.d.toNat (s.me.pred f.a.toNat &&& s.me.pred f.b.toNat))
  ∧ Result .por (fun f s => s.setPred f.d.toNat (s.me.pred f.a.toNat ||| s.me.pred f.b.toNat))
  ∧ Result .pxor (fun f s => s.setPred f.d.toNat (s.me.pred f.a.toNat ^^^ s.me.pred f.b.toNat))
  ∧ Result .pandn (fun f s => s.setPred f.d.toNat (s.me.pred f.a.toNat &&& ~~~s.me.pred f.b.toNat))
  ∧ Result .pnot (fun f s => s.setPred f.d.toNat (~~~s.me.pred f.a.toNat))
  ∧ Result .pget (fun f s => s.setScalar f.d ((s.me.pred f.a.toNat).setWidth 64))
  ∧ Result .pset (fun f s => s.setPred f.d.toNat ((s.me.scalar f.a).setWidth 32))

/-- 06/R88, R89, R91: `nop` changes nothing but its next address; `emget` reads `em`; `emset` writes it under the path mask;
`lps` pushes a loop entry where there is room, a count 0 stored as 1, the head I words from the instruction. -/
def Obligations.SequencingAndMask : Prop :=
  Result .nop (fun _ s => s)
  ∧ Result .emget (fun f s => s.setScalar f.d (s.me.em.setWidth 64))
  ∧ Result .emset (fun f s => { s with me := { s.me with
      em := (s.me.scalar f.a + f.imm).setWidth 32 &&& (match s.me.rstack with
        | [] => 0xFFFF_FFFF
        | e :: _ => if e.phase then e.pmask else e.emd &&& ~~~e.pmask) } })
  ∧ (∀ (f : Form) (s : State) (info : Info), Clear (.lps f) info f s →
      s.me.lstack.length < (if s.me.depth then 2 else 4) →
      Completes (.lps f) s { s with me := { s.me with lstack :=
        { head := s.me.pc + (f.imm * 4).setWidth 52
          count := if (s.me.scalar f.a).setWidth 32 = (0 : BitVec 32) then 1 else (s.me.scalar f.a).setWidth 32 }
        :: s.me.lstack } })
  ∧ (∀ (f : Form) (s : State) (info : Info), Clear (.lps f) info f s →
      (if s.me.depth then 2 else 4) ≤ s.me.lstack.length →
      ∃ t, Traps (.lps f) s t ∧ t.kind = 12 ∧ t.tval = 1)

/-- 06/R98, R99, R102: the element-wise integer instructions, at every place that holds their destination. -/
def Obligations.VectorInteger : Prop :=
  Writes .vaddInt false (elementwise .i32 fun _ _ _ a b _ => a + b)
  ∧ Writes .vsubInt false (elementwise .i32 fun _ _ _ a b _ => a - b)
  ∧ Writes .vmulInt false (elementwise .i32 fun _ _ _ a b _ => a * b)
  ∧ Writes .vmulh false (elementwise .i32 fun _ t w a b _ =>
      if Ty.signed t then BitVec.ofInt w (a.toInt * b.toInt / 2 ^ w) else BitVec.ofNat w (a.toNat * b.toNat / 2 ^ w))
  ∧ Writes .vmad false (elementwise .i32 fun _ _ _ a b c => a * b + c)
  ∧ Writes .vand false (elementwise .u32 fun _ _ _ a b _ => a &&& b)
  ∧ Writes .vor false (elementwise .u32 fun _ _ _ a b _ => a ||| b)
  ∧ Writes .vxor false (elementwise .u32 fun _ _ _ a b _ => a ^^^ b)
  ∧ Writes .vandn false (elementwise .u32 fun _ _ _ a b _ => a &&& ~~~b)
  ∧ Writes .vshl false (elementwise .u32 fun _ _ w a b _ => a <<< (b.toNat % w))
  ∧ Writes .vshr false (elementwise .u32 fun _ _ w a b _ => a >>> (b.toNat % w))
  ∧ Writes .vsra false (elementwise .u32 fun _ _ w a b _ => a.sshiftRight (b.toNat % w))
  ∧ Writes .vminInt false (elementwise .i32 fun _ t _ a b _ => if lessThan t a b then a else b)
  ∧ Writes .vmaxInt false (elementwise .i32 fun _ t _ a b _ => if lessThan t a b then b else a)
  ∧ Writes .vcmpInt false (elementwise .i32 fun f t w a b _ =>
      if ccHolds f.fn.toNat (lessThan t a b) (a == b) then BitVec.allOnes w else 0)
  ∧ Writes .vsel false (elementwise .u32 fun _ _ _ a b c => (a &&& c) ||| (b &&& ~~~c))
  ∧ Writes .vclz false (elementwise .u32 fun _ _ w a _ _ => BitVec.ofNat w (leadingZeros a.toNat w))
  ∧ Writes .vpopc false (elementwise .u32 fun _ _ w a _ _ => BitVec.ofNat w (oneBits a.toNat w))

/-- 06/R97, R100, R101, R103-R105: lanes and quads. `vget` reads one lane whatever `em` holds; `vmov` and `qswz` carry the
scale bytes of active quads; `vcmpp` writes the bits of active lanes; `vpack` saturates; the lane moves. -/
def Obligations.VectorLanes : Prop :=
  (∀ (f : Form) (s s1 : State) (info : Info), Clear (.vget f) info f s → readSources (.vget f) info f true s = .ok s1 →
    Completes (.vget f) s (s1.setScalar f.d
      (BitVec.ofNat 64 ((s.source f.a .v).lane ((s.me.scalar f.b).toNat % 32)))))
  ∧ Writes .vmov false (fun f s => scaledWrite (s.me.active f) (s.source f.a (f.type .v)).lane (s.source f.a (f.type .v)).scaleByte)
  ∧ (∀ (f : Form) (s s1 : State) (info : Info), Clear (.vcmppInt f) info f s →
    readSources (.vcmppInt f) info f false s = .ok s1 →
    Completes (.vcmppInt f) s (s1.setPred f.d.toNat (maskOf fun l =>
      if laneOn (s.me.active f) l then
        ccHolds f.fn.toNat
          (lessThan (f.type .i32) (elemOf 32 ((s.source f.a (f.type .i32)).lane l) 0) (elemOf 32 ((s.source f.b (f.type .i32)).lane l) 0))
          (elemOf 32 ((s.source f.a (f.type .i32)).lane l) 0 == elemOf 32 ((s.source f.b (f.type .i32)).lane l) 0)
      else laneOn (s.me.pred f.d.toNat) l)))
  ∧ Writes .vpack false (fun f s => laneWrite (s.me.active f) fun l =>
      let t := f.type .i16
      let w := elemWidth t
      let k := (elemOf 32 ((s.source f.a t).lane l) 0).toInt
      let lo : Int := if Ty.signed t then -2 ^ (w - 1) else 0
      let hi : Int := if Ty.signed t then 2 ^ (w - 1) - 1 else 2 ^ w - 1
      (BitVec.ofInt w (max lo (min hi k))).toNat)
  ∧ Writes .vunpack false (fun f s => laneWrite (s.me.active f) fun l =>
      let t := f.type .i16
      let x := elemOf (elemWidth t) ((s.source f.a t).lane l) 0
      (if Ty.signed t then x.signExtend 32 else x.setWidth 32 : BitVec 32).toNat)
  ∧ Writes .vshflIdx false (moved fun f s l => (s.source f.b .v).lane l % 32)
  ∧ Writes .vshflUp false (moved fun f s l => if moveBy f s ≤ l then l - moveBy f s else l)
  ∧ Writes .vshflDn false (moved fun f s l => if l + moveBy f s ≤ 31 then l + moveBy f s else l)
  ∧ Writes .vshflXor false (moved fun f s l => l ^^^ moveBy f s)
  ∧ Writes .vshflBc false (moved fun f s _ => moveBy f s)
  ∧ Writes .qswz false (fun f s => scaledWrite (s.me.active f)
      (fun l => (s.source f.a .u32).lane (l / 4 * 4 + digit 2 f.imm.toNat (l % 4))) (s.source f.a .u32).scaleByte)
  ∧ Writes .vsclget false (fun f s => laneWrite (s.me.active f) fun l => (s.source f.a .u32).scaleByte (l / 4))

/-- 15/R231, R233-R238, R240: the element-wise floating-point instructions complete where no enabled exception arises, with
the result of their row, their flags, and scale bytes `0x7F`. The rows of `vexp2`, `vlog2`, `vsin` and `vcos` rest on the fixed-point
functions `exp2Num`, `log2Num`, `sinNum` and `cosNum`: that they round as the exact values do is log 14 (PRESUMED). -/
def Obligations.FloatResults : Prop :=
  ∀ r ∈ fpRows, ∀ (f : Form) (s s1 : State) (info : Info), Clear (r.ins f) info f s →
    (r.rounds = true → ModeLegal s) → Taken (r.ins f) info f false s s1 →
    FpDone (r.ins f) info f s s1 (f.type .f32 == .f64) (r.results f s)

/-- 08/R129: where an enabled exception arises in an active lane the instruction traps and writes nothing: the
highest-ranked enabled kind that arose, `tlm` the lanes that raised it, `tval` the default result of the lowest of them. -/
def Obligations.FloatTraps : Prop :=
  ∀ r ∈ fpRows, ∀ (f : Form) (s s1 : State) (info : Info), Clear (r.ins f) info f s →
    (r.rounds = true → ModeLegal s) → Taken (r.ins f) info f false s s1 →
    let raised (k l : Nat) : Bool :=
      laneOn (s.me.active f) l && ((r.results f s).getD l ⟨0, 0⟩).flags.testBit k && s.me.fm.getLsbD k
    ∀ k l, k < 5 → l < 32 → raised k l = true → (∀ k' l', k' < k → l' < 32 → raised k' l' = false) →
      (∀ l' < l, raised k l' = false) →
      ∃ t, Traps (r.ins f) s t ∧ t.kind = k + 1 ∧ t.tlm = maskOf (raised k)
        ∧ t.tval = BitVec.ofNat 64 ((r.results f s).getD l ⟨0, 0⟩).bits

/-- 15/R239: the reduction tree gives every active lane one result, inactive lanes standing in as -0 for the sum and as
NaN, which the selection passes over, for the minimum and maximum.
15/R235: `vcmpp` writes the bits of active lanes and raises the flags of the comparison. -/
def Obligations.FloatReduceCompare : Prop :=
  (∀ r ∈ ([(.vredAdd, true, fun s => (.fin true 0 0, fun x y => s.me.step32 (numAdd s.me.down x y)))
      , (.vredMin, false, fun _ => (.nan false, numSelect true))
      , (.vredMax, false, fun _ => (.nan false, numSelect false))] :
      List ((Form → Instr) × Bool × (State → FpNum × (FpNum → FpNum → ExRes)))),
    ∀ (f : Form) (s s1 : State) (info : Info), Clear (r.1 f) info f s → (r.2.1 = true → ModeLegal s) →
    Taken (r.1 f) info f false s s1 →
    let leaves := (List.range 32).map fun l =>
      if laneOn (s.me.active f) l then fmtF32.read s.me.ftz ((s.source f.a .f32).lane l) else (r.2.2 s).1
    let p := redTree (r.2.2 s).2 5 leaves
    FpDone (r.1 f) info f s s1 false (List.replicate 32
      { bits := (fmtF32.write .arith .rne false (p.1.headD (r.2.2 s).1)).bits, flags := p.2 }))
  ∧ (∀ (f : Form) (s s1 : State) (info : Info), Clear (.vcmppFp f) info f s →
    readSources (.vcmppFp f) info f false s = .ok s1 →
    let fm := (fmtOf (f.type .f32)).getD fmtF32
    let res := fpResults s f (f.type .f32) fun a b _ =>
      { bits := (numCompare f.fn.toNat (fm.read s.me.ftz a) (fm.read s.me.ftz b)).1.toNat
        flags := (numCompare f.fn.toNat (fm.read s.me.ftz a) (fm.read s.me.ftz b)).2 }
    fpTrap (.vcmppFp f) info f s.me res = none →
    Completes (.vcmppFp f) s ((s1.raise (activeFlags (s.me.active f) res)).setPred f.d.toNat (maskOf fun l =>
      if laneOn (s.me.active f) l then (res.getD l ⟨0, 0⟩).bits == 1 else laneOn (s.me.pred f.d.toNat) l)))

/-- 15/R245: the packed dot products, under the encodings in force. -/
def Obligations.DotProducts : Prop :=
  ∀ mk ∈ [Instr.vdot2, .vdot4, .vdot8], ∀ (f : Form) (s s1 : State) (info : Info), Clear (mk f) info f s →
    dotBad s.me info f = false → Taken (mk f) info f false s s1 →
    let t := f.type info.base
    let p := (dotTypes info f s.me.fm).getD (t, t)
    let a := s.source f.a p.1
    let b := s.source f.b p.2
    FpDone (mk f) info f s s1 false ((List.range 32).map fun l => dotLane s.me (elemWidth t) p.1 p.2
      (a.lane l) (b.lane l) ((s.source f.d .f32).lane l) (dotScale t a l) (dotScale t b l))

/-- 15/R241-R243: `vcvt` reads each element of its source as its exact value and converts it: element by element, in whole
blocks where the destination is an MX type (12/R202), exactly where the source is FP6. Its generators step once for each element
of the lanes written where it rounds stochastically (12/R198), every lane of a written block of an MX destination among them. -/
def Obligations.Conversion : Prop :=
  ∀ (f : Form) (s s1 : State) (info : Info), Clear (.vcvt f) info f s →
    let src := (cvtSource f).getD .f32
    let dst := f.type .f32
    let drawn : Prop := fmRnd s.me.fm = 4 ∧ dst ∈ [Ty.bf16, .e5m2, .e4m3, .e2m1, .mxe5m2, .mxe4m3, .mxe2m1]
    cvtBad s.me src dst = false → Taken (.vcvt f) info f false s s1 → (drawn → s.me.loading (.opf 7) = false) →
    let n := if Ty.isFp6 src then 4 else max (perLane src) (perLane dst)
    let m := s.me.active f
    let blocks := Ty.isMx dst
    let out := if Ty.isFp6 src then s.cvtFp6 (Spec.of f.a) src dst
      else if blocks then s.cvtBlocks (Spec.of f.a) src dst n else s.cvtPlain (Spec.of f.a) src dst n
    let res := out.elems.map fun es =>
      ({ bits := packNat (elemWidth dst) (fun j => (es.getD j ⟨0, 0⟩).bits) (perLane dst)
         flags := es.foldl (fun a e => a ||| e.flags) 0 } : FRes)
    fpTrap (.vcvt f) info f s.me res = none →
    let s2 := s1.raise (activeFlags m res)
    ∀ s3 s4, (drawn → s3 = s2.stepSeeds (if blocks then blockMask dst m else m) n) → (¬ drawn → s3 = s2) →
    writeRange (.vcvt f) s3 (Spec.of f.d) 0
      ((List.range (n / perLane dst)).flatMap fun u => cvtWrites dst m blocks out u) = .ok s4 → Completes (.vcvt f) s s4

/-- The new `fm` of a form that writes `mask` from the low bits of its operand shifted to `lo`. -/
def Sys2Proof.Claims.field (mask : BitVec 32) (lo : Nat) (f : Form) (s : State) : State :=
  { s with me := { s.me with
      fm := (s.me.fm &&& ~~~mask) ||| (((s.me.scalar f.a + f.imm).setWidth 32 <<< lo) &&& mask) } }

/-- 15/R246, R247, 07/R117: `fm` written whole, its reserved bits reading 0, and field by field; `fm` and `ff` read; `ff`
cleared where D has ones. -/
def Obligations.FormatAndFlags : Prop :=
  Result .fmt (fun f s => { s with me := { s.me with fm := (s.me.scalar f.a + f.imm).setWidth 32 &&& 0x000F_FCFF } })
  ∧ Result .fmtRnd (field 0xE0 5)
  ∧ Result .fmtAb (field 0xFC000 14)
  ∧ Result .fmtFtz (field 0xC00 10)
  ∧ Result .fmtCbs (field 0x3000 12)
  ∧ Result .fmtTrp (field 0x1F 0)
  ∧ Result .fmrd (fun f s => s.setScalar f.d (s.me.fm.setWidth 64))
  ∧ Result .ffget (fun f s => s.setScalar f.d (s.me.ff.setWidth 64))
  ∧ Result .ffclr (fun f s => { s with me := { s.me with ff := s.me.ff &&& ~~~((s.me.scalar f.d).setWidth 32) } })

/-- 15/R244, R248, R249: `vseed` seeds the generator of each active lane of `o7` from its lane of A and its number; `vsclset` gives the scale byte of each active quad the low byte of A in the quad's lowest active lane and
leaves the data; `cbld` fills the codebook from lanes 0 to 7 whatever `em` holds. That `vseed` leaves the scale bytes of `o7` and `lr`
as they are is log 10 (DEDUCED). -/
def Obligations.SeedScaleCodebook : Prop :=
  (∀ (f : Form) (s s1 : State) (info : Info), Clear (.vseed f) info f s → s.me.loading (.opf 7) = false →
    readSources (.vseed f) info f false s = .ok s1 →
    let v := VReg.ofLanes
      (fun l => if laneOn (s.me.active f) l then srSeed ((s.source f.a .u32).lane l) l else (s.me.ofile.get 7 .fresh).lane l)
      (s.me.ofile.get 7 .fresh).scaleByte
    Completes (.vseed f) s { s1 with me := { s1.me with ofile := s1.me.ofile.set 7 v } })
  ∧ (∀ (f : Form) (s s1 s2 : State) (info : Info), Clear (.vsclset f) info f s → Taken (.vsclset f) info f false s s1 →
    ∀ low : Nat → Nat, (∀ q < 8, quadOn (s.me.active f) q = true → low q < 4 ∧
        laneOn (s.me.active f) (4 * q + low q) = true ∧ ∀ j < low q, laneOn (s.me.active f) (4 * q + j) = false) →
    let queue := match Spec.of f.d with | .vec n => mapQKind (s.me.entry n) != 0 | _ => false
    let old : VReg := if queue then .fresh else s1.specReg (Spec.of f.d)
    writeReg (.vsclset f) s1 (Spec.of f.d) (scaledWrite (s.me.active f) old.lane fun q => (s.source f.a .u32).lane (4 * q + low q))
      true = .ok s2 → Completes (.vsclset f) s s2)
  ∧ (∀ (f : Form) (s s1 : State) (info : Info), Clear (.cbld f) info f s → readSources (.cbld f) info f true s = .ok s1 →
    ∃ t, Completes (.cbld f) s { s1 with me := { s1.me with cb := t } } ∧ ∀ i < 16, t.get i 0 =
      BitVec.ofNat 16 ((s.source f.a .u32).lane (i / 2) / 2 ^ (16 * (i % 2))))

/-- 11/R177, 13/R207, 16/R254: a clear `mma` or `mma.sw` whose values are legal arrives at its team's latch with the
fragments it read, and waits there. -/
def Obligations.MatrixArrival : Prop :=
  ∀ r ∈ [(Instr.mma, false), (Instr.mmaSw, true)], ∀ (f : Form) (s : State) (info : Info), Clear (r.1 f) info f s →
    s.myTeam.inEngine s.meId = false → s.myTeam.latch.any (·.gid == s.meId) = false →
    ∀ (af an bf bn : Nat) (aenc benc : Ty) (as bs : List Nat),
      rangeWord (s.me.scalar f.cSpec).toNat = some (af, an, bf, bn) →
      encodings (f.type info.base) s.me.fm = some (aenc, benc) →
      (an = 0 ∧ as = [] ∨ f.a.toNat + an ≤ 128 ∧ as = (List.range an).map (f.a.toNat + ·)) →
      (bn = 0 ∧ bs = [] ∨ f.b.toNat + bn ≤ 128 ∧ bs = (List.range bn).map (f.b.toNat + ·)) →
      (s.myTeam.gn = [] ∨ s.me.index ∈ s.myTeam.gn) →
      (∀ n ∈ as ++ bs, s.me.holds (n / 8) = true ∧ mapPlace (s.me.entry n) = 0 ∧ mapQKind (s.me.entry n) = 0
        ∧ s.me.localHead n = none) →
      let reg (n : Nat) : VReg := s.me.regs.get n .fresh
      let a : Arrival :=
        { gid := s.meId, index := s.me.index, form := f, swal := r.2, aenc, benc, first := (af, bf)
          afrag := as.map reg, bfrag := bs.map reg, since := s.time }
      let s' := s.modTeam s.me.team fun t => { t with latch := t.latch ++ [a] }
      exec (r.1 f) s = .next { s' with me := s.me.waitOn .gang s.time }

/-- 13/R204, R207, R208, R219: the latch releases the step of a complete gang whose members agree and whose ranges cover
every fragment exactly once, once the engine is free and in no bubble; the accumulators take it, its flags wait for its
end, 16 cycles of the core later (log 24, DEDUCED); the members that wait for it complete then.
A gang that fails the check releases nothing; each member that waits takes kind 15. -/
def Obligations.MatrixStep : Prop :=
  (∀ (s : State) (m : Arrival) (ms : List Arrival), (s.team s.subject).fullGang = some (m :: ms) →
    (s.team s.subject).coverFault (m :: ms) = none → (s.team s.subject).engine = [] →
    s.bubble (s.team s.subject).core = false →
    let x := s.team s.subject
    let a := gather 15 ((m :: ms).map fun y => (y.first.1, y.afrag))
    let b := gather 23 ((m :: ms).map fun y => (y.first.2, y.bfrag))
    let r := if m.swal then x.swallowStep m.form.d.toNat m.form.imm.toNat m.aenc m.benc a b
      else x.plainStep m.form.d.toNat m.form.imm.toNat m.aenc m.benc a b
    let waiting := (m :: ms).filter fun y => (s.group y.gid).atLatch
    let step : Step := { members := waiting.map fun y => (y.gid, y.form), swal := m.swal, flags := r.2, due := s.cycles x.core + 16 }
    let t := { r.1 with latch := x.latch.filter fun y => !(m :: ms).any (·.gid == y.gid), engine := [step] }
    exec .gangStepRelease s =
      .next (waiting.foldl (fun s y => s.modGroup y.gid fun g => { g with wait := some .answer }) (s.setTeam s.subject t)))
  ∧ (∀ (s : State) (e : Step) (rest : List Step), (s.team s.subject).engine = e :: rest → e.due ≤ s.cycles (s.team s.subject).core →
    exec .mmaStepComplete s = .next (e.members.foldl
      (fun s m => s.asGroup m.1 fun s => retire (if e.swal then .mmaSw m.2 else .mma m.2) (s.me.active m.2) (s.raise e.flags))
      (s.modTeam s.subject fun x => { x with engine := rest })))
  ∧ (∀ (s : State) (m : Arrival) (ms : List Arrival) (fs : List (Arrival × Word)),
    (s.team s.subject).fullGang = some (m :: ms) → (s.team s.subject).coverFault (m :: ms) = some fs → (s.team s.subject).engine = [] →
    s.bubble (s.team s.subject).core = false →
    let x := s.team s.subject
    (∀ y ∈ m :: ms, ∃ v, (y, v) ∈ fs) ∧
    exec .gangStepRelease s = .next ((fs.filter fun f => (s.group f.1.gid).atLatch).foldl (fun s f => s.asGroup f.1.gid fun s => s.counted.takeTrap s.meId
        { kind := 15, tval := f.2, tlm := 0, place := 5, op := if f.1.swal then 0x91 else 0x90, nxs := false })
      (s.setTeam s.subject { x with latch := x.latch.filter fun y => !(m :: ms).any (·.gid == y.gid) })))

/-- 13/R210, R214: `mzero` leaves a plain accumulator of zeros with no pending step; `mzero.sw` a pair of them and a count
store of zeros. -/
def Obligations.AccumulatorZero : Prop :=
  (∀ (f : Form) (s : State) (info : Info), Clear (.mzero f) info f s → ∃ s', Completes (.mzero f) s s' ∧
    let x := (s'.team s.me.team).acc f.d.toNat
    x.valid = true ∧ x.mode = 0 ∧ x.n = 0 ∧ ∀ i < 6144, cellAt x.cells i 0 = 0)
  ∧ (∀ (f : Form) (s : State) (info : Info), Clear (.mzeroSw f) info f s → ∃ s', Completes (.mzeroSw f) s s' ∧
    ∀ a, a = f.d.toNat ∨ a = f.d.toNat + 1 →
      let x := (s'.team s.me.team).acc a
      x.valid = true ∧ x.mode = 2 ∧ x.n = 0 ∧ (∀ i < 6144, cellAt x.cells i 0 = 0)
      ∧ ((s'.team s.me.team).count (f.d.toNat / 2)).valid = true
      ∧ ((s'.team s.me.team).count (f.d.toNat / 2)).cells = [] ∧ ((s'.team s.me.team).count (f.d.toNat / 2)).pend = [])

/-- The state after the drain of accumulator `a` has promoted its pending interval: n free values are used up where contents
were never defined. -/
def Sys2Proof.Claims.drained (s : State) (a n fl : Nat) : State :=
  ({ s.setTeam s.me.team (s.myTeam.promote a).1 with free := s.free + n } : State).raise ((s.myTeam.promote a).2 ||| fl)

/-- 13/R215-R217, 11/R178, R179: the drains promote the pending interval and write 96 values of row B (a pair of registers for
each 32 where they are FP64), and raise the flags of the elements in active lanes of a valid pair; `mdr.sp` issues a copy of all
6,144 elements to scratchpad. -/
def Obligations.MatrixDrain : Prop :=
  (∀ (f : Form) (s s2 : State) (info : Info) (row : Nat), Clear (.mdr f) info f s →
    (s.me.scalar f.b).toNat = row → row < 64 → s.myTeam.widthOk f.a.toNat (f.type info.base == .f64) = true →
    let xs := (s.myTeam.promote f.a.toNat).1.accVals s.free f.a.toNat (96 * row) 96
    writeRange (.mdr f) (drained s f.a.toNat 1 0) (Spec.of f.d) 0
      (if f.type info.base == .f64 then drainPairs (s.me.active f) xs else drainWrites (s.me.active f) xs) = .ok s2 →
    Completes (.mdr f) s s2)
  ∧ (∀ r ∈ [(Instr.sdrDiff, 0), (.sdrRatio, 1), (.sdrAgree, 2)], ∀ (f : Form) (s s2 : State) (info : Info) (row : Nat),
    Clear (r.1 f) info f s → (s.me.scalar f.b).toNat = row → row < 64 →
    (∀ a ∈ [f.a.toNat, f.a.toNat + 1], (s.myTeam.acc a).valid = true → (s.myTeam.acc a).mode = 2) →
    let t := (s.myTeam.promote f.a.toNat).1
    let sp := t.accVals s.free f.a.toNat (96 * row) 96
    let sn := t.accVals (s.free + 1) (f.a.toNat + 1) (96 * row) 96
    let cs := t.count (f.a.toNat / 2)
    let xs : List (Nat × Nat) :=
      if f.type info.base == .u32 then (List.range 96).map fun j =>
        (if cs.valid then ((cs.cells[96 * row + j]?).map BitVec.toNat).getD 0
          else (Config.freeAcc (s.free + 2) (96 * row + j)).toNat, 0)
      else (sp.zip sn).map fun v => sdrElem r.2 (t.ag.get (f.a.toNat / 2) 0).toNat v.1 v.2
    let fl := if (t.acc f.a.toNat).valid
      then orAll (xs.zipIdx.map fun v => if laneOn (s.me.active f) (v.2 % 32) then v.1.2 else 0) else 0
    writeRange (r.1 f) (drained s f.a.toNat 3 fl) (Spec.of f.d) 0
      (drainWrites (s.me.active f) (xs.map (·.1))) = .ok s2 →
    Completes (r.1 f) s s2)
  ∧ (∀ (f : Form) (s : State) (info : Info), Clear (.mdrSp f) info f s →
    let wide := f.type info.base == .f64
    let w := if wide then 8 else 4
    let x := (s.me.scalar f.b).toNat
    s.myTeam.widthOk f.a.toNat wide = true → x % 128 = 0 → s.myTeam.inRegion x (6144 * w) = true →
    (s.core s.me.core).copies.length < 16 → (s.myTeam.wm f.d.toNat).free = true →
    let data := ((s.myTeam.promote f.a.toNat).1.accVals s.free f.a.toNat 0 6144).flatMap fun v => bytesOf v w
    let s1 := drained s f.a.toNat 1 0
    Completes (.mdrSp f) s (s1.issueCopy { s1.newCopy .drain (some f.d.toNat) x with data }))

/-- 11/R175, 16/R255: `racq` passes where the slot's phase is bit 0 of I and waits where it is not; `rrel` flips the phase;
`rcfg` sets a ring of 2 to 8 slots in phase 0. A slot or a count out of range is illegal.
11/R177, R179, 13/R207, R218: `agset` writes a threshold; `gang` names the groups of the gang. -/
def Obligations.GangsAndRings : Prop :=
  (∀ (f : Form) (s : State) (info : Info), Clear (.racq f) info f s →
    let r := s.myTeam.ring (f.d.toNat / 8)
    let k := f.d.toNat % 8
    (k < r.slots → r.phase.getLsbD k = f.imm.getLsbD 0 → Completes (.racq f) s s)
    ∧ (k < r.slots → r.phase.getLsbD k ≠ f.imm.getLsbD 0 → Waits (.racq f) s .ring)
    ∧ (r.slots = 0 → Waits (.racq f) s .ring)
    ∧ (0 < r.slots → r.slots ≤ k → ∃ t, Traps (.racq f) s t ∧ t.kind = 6))
  ∧ (∀ (f : Form) (s : State) (info : Info), Clear (.rrel f) info f s →
    let r := s.myTeam.ring (f.d.toNat / 8)
    let k := f.d.toNat % 8
    (k < r.slots → Completes (.rrel f) s (s.modTeam s.me.team fun t =>
      { t with rings := t.rings.set (f.d.toNat / 8) { r with phase := r.phase ^^^ BitVec.ofNat 8 (2 ^ k) } }))
    ∧ (r.slots ≤ k → ∃ t, Traps (.rrel f) s t ∧ t.kind = 6))
  ∧ (∀ (f : Form) (s : State) (info : Info), Clear (.rcfg f) info f s →
    (2 ≤ (s.me.scalar f.a).toNat → (s.me.scalar f.a).toNat ≤ 8 → Completes (.rcfg f) s (s.modTeam s.me.team fun t =>
      { t with rings := t.rings.set f.d.toNat { slots := (s.me.scalar f.a).toNat, phase := 0 } }))
    ∧ ((s.me.scalar f.a).toNat < 2 ∨ 8 < (s.me.scalar f.a).toNat → ∃ t, Traps (.rcfg f) s t ∧ t.kind = 6))
  ∧ Result .agset (fun f s => s.modTeam s.me.team fun t => { t with ag := t.ag.set f.d.toNat ((s.me.scalar f.a).setWidth 32) })
  ∧ (∀ (f : Form) (s : State) (info : Info), Clear (.gang f) info f s →
    let ms := (List.range 32).filter (s.me.scalar f.a).toNat.testBit
    (s.me.scalar f.a).toNat < 2 ^ 32 → ms ≠ [] → ms.length ≤ 6 →
    (∀ k ∈ ms, ∃ g ∈ s.groups, g.2.team = s.me.team ∧ g.2.index = k ∧ g.2.role = .m) → s.myTeam.latch = [] →
    Completes (.gang f) s (s.modTeam s.me.team fun t => { t with gn := ms }))

/-- The copy that a clear `cpy`, `cpg` or `cpm` describes, from the state after its shape register is read (16/R256-R259). -/
def Sys2Proof.Claims.copyOf (kind : CopyKind) (f : Form) (s s1 : State) (n0 : Nat) (dims : List Dim) (list : Nat) : Copy :=
  let cast := kind == .cpm
  let global := !cast && f.imm.getLsbD 0
  { s1.newCopy kind (if global then none else some f.d.toNat) ((s.me.scalar f.a).toNat + (if cast then cohortBase else 0) : Int) with
    src := (s.me.scalar f.b).toNat
    global, spSrc := f.imm.getLsbD (if cast then 16 else 1)
    wid := if cast then 0 else f.imm.toNat / 4
    n0, dims, list, lty := f.type .u32
    mask := if cast then f.imm.truncate 16 else 0
    batch := if global then some s.me.nextb else none }

/-- 16/R256-R260: a copy whose shape, addresses and offsets are legal, for which the core has room and whose watermark is
free, is issued. -/
def Obligations.CopyIssue : Prop :=
  ∀ r ∈ [(Instr.cpy, CopyKind.cpy), (.cpg, .cpg), (.cpm, .cpm)], ∀ (f : Form) (s s1 : State) (info : Info)
    (n0 list : Nat) (dims : List Dim), Clear (r.1 f) info f s → readSources (r.1 f) info f true s = .ok s1 →
    shapeOf (r.2 == .cpg) (if r.2 == .cpm then 0 else f.imm.toNat / 4) (s.source f.cSpec .u32) = some (n0, dims, list) →
    let c := copyOf r.2 f s s1 n0 dims list
    c.check s = none → (s.core s.me.core).copies.length < 16 → (c.global = true ∨ (s.myTeam.wm f.d.toNat).free = true) →
    Completes (r.1 f) s (s1.issueCopy c)

/-- 14/R221, R222, R229: bytes land one by one at rising destination offsets, and the watermark follows; a copy ends with its
last byte. That MARK passes a gap with the last byte before it is log 60 (DESIGN CHOICE). -/
def Obligations.CopyLanding : Prop :=
  (∀ (c id : Nat) (s s1 : State) (x y : Copy) (b : Byte), (s.core c).copies.get? id = some x →
    x.kind ≠ .cpm → x.frozen = none → x.ask = none → x.global = false → x.landed < x.total →
    s.mayLand c x = true → s.landBlocked c x x.pos (x.dstAt x.landed) = false → s.copyByte c x x.landed = .byte b y s1 → y.landed = x.landed →
    y.total = x.total →
    let s2 := s1.landScratch y y.pos x.landed (x.dstAt x.landed).toNat b
    let z := { y with landed := x.landed + 1 }
    exec (.copyLand c id 1) s = .next (if x.landed + 1 < x.total
      then (s2.markCopy z (x.landed + 1) 1).putCopy c id z else (s2.markCopy z (x.landed + 1) 4).endCopy c id z))
  ∧ (∀ (c id pos : Nat) (s s1 : State) (x y : Copy) (b : Byte), (s.core c).copies.get? id = some x →
    x.kind = .cpm → x.mask.getLsbD pos = true → x.frozen = none → x.ask = none →
    let k := x.fronts.get pos 0
    k < x.total → s.mayLand c x = true → s.landBlocked c x pos (x.dstAt k) = false → s.copyByte c x k = .byte b y s1 →
    y.total = x.total →
    let z := { y with fronts := y.fronts.set pos (k + 1), data := if k < y.data.length then y.data else y.data ++ [b] }
    let s2 := (s1.landScratch z pos k (x.dstAt k).toNat b).setLine z pos (x.dstAt k).toNat
    exec (.multicastLand c id pos 1) s = .next (if x.total ≤ z.lowest
      then (s2.markCopy z z.lowest 4).endCopy c id z else (s2.markCopy z z.lowest 1).putCopy c id z))

/-- 14/R226, R227, 16/R261-R264: `cseal` seals the current batch under the next number; `cwait` passes where the batch last
sealed with its number is complete or there is none; the fields of a watermark; `wmcfg` opens a listening watermark or frees one. -/
def Obligations.BatchesAndWatermarks : Prop :=
  (∀ (f : Form) (s : State) (info : Info), Clear (.cseal f) info f s →
    (s.me.sealed.filter fun b => b.2.incomplete).length < 16 →
    let kept : Map Batch := s.me.sealed.filter fun b => b.1 % 16 != s.me.nextb % 16 || b.2.incomplete
      || (b.2.failed.isSome && !b.2.waited)
    Completes (.cseal f) s (({ s with me := { s.me with
      sealed := kept.set s.me.nextb s.me.batch, batch := {}, nextb := s.me.nextb + 1 } } : State).setScalar f.d
        (BitVec.ofNat 64 (s.me.nextb % 16))))
  ∧ (∀ (f : Form) (s : State) (info : Info), Clear (.cwait f) info f s → (s.me.scalar f.a).toNat < 16 →
    match (s.me.sealedAs (s.me.scalar f.a).toNat) with
    | none => Completes (.cwait f) s s
    | some (_, b) => b.failed = none → if b.copies = 0 then Completes (.cwait f) s s else Waits (.cwait f) s .cwait)
  ∧ Result .wmrdMark (fun f s => s.setScalar f.d (BitVec.ofNat 64 (s.myTeam.wm f.a.toNat).mark))
  ∧ Result .wmrdState (fun f s => s.setScalar f.d
      (BitVec.ofNat 64 ((s.myTeam.wm f.a.toNat).st + if (s.myTeam.wm f.a.toNat).listen then 128 else 0)))
  ∧ Result .wmrdBase (fun f s => s.setScalar f.d (BitVec.ofNat 64 (s.myTeam.wm f.a.toNat).base))
  ∧ Result .wmrdLimit (fun f s => s.setScalar f.d (BitVec.ofNat 64 (s.myTeam.wm f.a.toNat).limit))
  ∧ (∀ (f : Form) (s : State) (info : Info), Clear (.wmcfg f) info f s → (s.myTeam.wm f.d.toNat).free = true →
    let x := (s.me.scalar f.a).toNat
    let y := (s.me.scalar f.b).toNat
    let put (s : State) (w : Watermark) : State := s.modTeam s.me.team fun t => { t with wms := t.wms.set f.d.toNat w }
    (x = y → Completes (.wmcfg f) s (put s {}))
    ∧ (x < y → x % 128 = 0 → y % 128 = 0 → s.myTeam.inCohort x (y - x) = true →
      let s1 := put s { base := x, limit := y, mark := x, st := 1, listen := true, order := s.order }
      Completes (.wmcfg f) s ({ s1 with order := s.order + 1 }.followLines s.me.team)))

/-! ### Memory (18/R274, 19/R303-R316) -/

namespace Sys2Proof.Claims

/-- The n bytes from a local address are DRAM that the group reaches and that nothing disturbs: no page exchange, refresh,
column error or failed beat meets them, and no size code stands for them. -/
structure PlainRam (s : State) (la n : Nat) : Prop where
  reached : s.reaches s.myPart la n = true
  idle    : s.busyBytes la n = false
  still   : ∀ o < n, s.located (la + o) = la + o
  sound   : ∀ o < n, s.damaged.get? ((la + o) / 64) = none
  beats   : ∀ o < n, ∀ w, s.meetBeat (64 * ((la + o) / 64)) w = none
  uncoded : ∀ o < n, s.coded s.zPages (la + o) = false

/-- A legal global address of an n-byte access that translates, without a change of the state, to plain DRAM; nothing of the
access has been done before, and neither a split-phase load nor an unacknowledged write holds it up, `rel` saying that it is a release
at a scope other than `.gp` and `sys` that its scope is `.sy` (08/R125, 17/R270, 18/R284). -/
structure Reaches (s : State) (va : Word) (n : Nat) (write : Bool) (la : Nat) (sc rel sys : Bool) : Prop where
  fresh   : s.me.granted = none ∧ s.me.earlyBytes = none
  ordered : s.me.inOrder (.ram la) n rel = .ok ()
  acked   : (s.release rel true).acknowledged rel sys = .ok ()
  aligned : va.toNat % n = 0
  inSpace : va.toNat < 2 ^ 52
  maps    : s.translate s.myPart s.me.core va.toNat (s.who s.me va 0) write false = (.ok (.ram la) sc, s)
  plain   : PlainRam s la n

/-- The number that n bytes of main memory hold, little-endian. -/
def stored (s : State) (la n : Nat) : Nat := numOf (Memory.readN s.mem la n)

/-- The byte that a store of form f leaves at offset o: of the scalar, or of the active lanes. -/
def storeByte (s : State) (f : Form) (t : Ty) (o : Nat) : Option Byte :=
  if t == .v then (if laneOn (s.me.active f) (o / 4) then some (BitVec.ofNat 8 ((s.source f.d .v).lane (o / 4) / 256 ^ (o % 4)))
    else none)
  else some (BitVec.ofNat 8 ((s.me.scalar f.d).toNat / 256 ^ o))

end Sys2Proof.Claims

/-- 06/R108, 19/R303: `ld` from DRAM: the scalar extended by its type; or the lanes, with scale bytes `0x7F`. That a vector load without
an active lane completes at any address is log 53 (DESIGN CHOICE), and that a vector load at `ln` writes `lr` (02/R41, 19/R304) is log 18
(DEDUCED). -/
def Obligations.GlobalLoad : Prop :=
  (∀ (f : Form) (s : State) (info : Info) (la : Nat) (sc : Bool), Clear (.ld f) info f s →
    let t := f.type info.base
    t ≠ .v → Reaches s (s.me.address f) (Ty.width t / 8) false la sc false false →
    Completes (.ld f) s (s.setScalar f.d (extended t (BitVec.ofNat (Ty.width t) (stored s la (Ty.width t / 8))))))
  ∧ (∀ (f : Form) (s s2 : State) (info : Info) (la : Nat) (sc : Bool), Clear (.ld f) info f s →
    f.type info.base = .v → s.me.active f ≠ 0 → destReady (.ld f) info f s = .ok () →
    Reaches s (s.me.address f) 128 false la sc false false →
    writeReg (.ld f) s (Spec.of f.d) (scaledWrite (s.me.active f) (fun l => stored s (la + 4 * l) 4) fun _ => 0x7F) true = .ok s2 →
    Completes (.ld f) s s2)
  ∧ (∀ (f : Form) (s s2 : State) (info : Info), Clear (.ld f) info f s → f.type info.base = .v → s.me.active f = 0 →
    writeReg (.ld f) s (Spec.of f.d) (scaledWrite 0 (fun _ => 0) fun _ => 0x7F) true = .ok s2 → Completes (.ld f) s s2)

/-- 06/R109, 19/R304: `st` to DRAM writes the bytes of its scalar, or the words of its active lanes, at its address and no
other byte of memory; without an active lane a vector store writes nothing, at any address (log 53, DESIGN CHOICE). -/
def Obligations.GlobalStore : Prop :=
  (∀ (f : Form) (s s1 : State) (info : Info) (la : Nat) (sc : Bool), Clear (.st f) info f s →
    let t := f.type info.base
    let n := accessSize t
    (t = .v → s.me.active f ≠ 0) → readSources (.st f) info f false s = .ok s1 →
    Reaches s (s.me.address f) n true la sc ((f.releases || sc) && f.wide) f.sys →
    ∃ s', Completes (.st f) s s' ∧ s'.me.regs = s.me.regs ∧ s'.me.sregs = s.me.sregs ∧ ∀ a, Memory.read s'.mem a =
      ((if la ≤ a ∧ a < la + n then storeByte s f t (a - la) else none).getD (Memory.read s.mem a)))
  ∧ (∀ (f : Form) (s : State) (info : Info), Clear (.st f) info f s → f.type info.base = .v → s.me.active f = 0 →
    s.me.returned (f.releases && f.wide) = .ok () → (s.release f.releases f.wide).acknowledged f.releases f.sys = .ok () →
    ∃ s', Completes (.st f) s s' ∧ s'.mem = s.mem ∧ s'.me.regs = s.me.regs)

/-- 06/R107, R110, 14/R223: `ld.sp` and `st.sp` at offsets of the team's regions where no watermark holds up the bytes of
its active lanes; without an active lane at any offset (log 53, DESIGN CHOICE). -/
def Obligations.ScratchpadAccess : Prop :=
  (∀ (f : Form) (s : State) (info : Info), Clear (.ldSp f) info f s →
    let t := f.type info.base
    let n := accessSize t
    let x := s.me.address f
    let touched := touchedBytes s.me f t x.toNat
    x.toNat % n = 0 → s.myTeam.inRegion x.toNat n = true → gateBytes (s.gates s.me.team) touched = .go →
    s.spBadAt s.me.team touched = false →
    (t ≠ .v → Completes (.ldSp f) s (s.setScalar f.d
      (extended t (BitVec.ofNat (Ty.width t) (numOf (s.spReadN s.me.team x.toNat n))))))
    ∧ (t = .v → s.me.active f ≠ 0 → ∀ s2, writeReg (.ldSp f) s (Spec.of f.d) (scaledWrite (s.me.active f)
        (fun l => numOf (s.spReadN s.me.team (x.toNat + 4 * l) 4)) fun _ => 0x7F) true = .ok s2 →
      Completes (.ldSp f) s s2))
  ∧ (∀ (f : Form) (s s2 : State) (info : Info), Clear (.ldSp f) info f s → f.type info.base = .v → s.me.active f = 0 →
    writeReg (.ldSp f) s (Spec.of f.d) (scaledWrite 0 (fun _ => 0) fun _ => 0x7F) true = .ok s2 → Completes (.ldSp f) s s2)
  ∧ (∀ (f : Form) (s : State) (info : Info), Clear (.stSp f) info f s → f.type info.base = .v → s.me.active f = 0 →
    Completes (.stSp f) s s)
  ∧ (∀ (f : Form) (s s1 : State) (info : Info), Clear (.stSp f) info f s →
    let t := f.type info.base
    let n := accessSize t
    let x := s.me.address f
    (t = .v → s.me.active f ≠ 0) → x.toNat % n = 0 → s.myTeam.inRegion x.toNat n = true →
    storeGated (s.gates s.me.team) (touchedBytes s.me f t x.toNat) = false → readSources (.stSp f) info f false s = .ok s1 →
    ∃ s', Completes (.stSp f) s s' ∧ SameMemory s s' ∧ ∀ a, s'.spRead s.me.team a =
      ((if x.toNat ≤ a ∧ a < x.toNat + n then storeByte s f t (a - x.toNat) else none).getD (s.spRead s.me.team a)))

/-- 02/R22, 19/R305-R307: `lds` sends its request and raises its counter, unless it has done so before it parked; the reply
writes the lanes, then lowers the counter; `kwait` passes where the counter is at or below its threshold. That the reply brings the bytes
that memory held at the issue, and lands them in one step, is log 6 (DEDUCED). -/
def Obligations.SplitPhase : Prop :=
  (∀ (f : Form) (s s1 : State) (info : Info) (h : Home) (sc : Bool), Clear (.lds f) info f s → s.me.active f ≠ 0 →
    let x := s.me.address f
    let c := s.me.ctr f.kc.toNat
    x.toNat % 128 = 0 → x.toNat < 2 ^ 52 → (c.count ≠ 63 ∨ s.me.raised ≠ none) → s.me.loading (Spec.of f.d) = false →
    translated (.lds f) s x false = .ok (h, sc, s1) → splitAllowed (.lds f) s1 x h = .ok () →
    s1.me.inOrder h 128 false = .ok () →
    let s2 := s1.sendSplit { dest := f.d, mask := s.me.active f, va := x, home := h, ctr := f.kc.toNat, acq := f.ord == 1 || sc
                             seq := none, due := 0, mine := [], inner := s1.me.hides (Spec.of f.d), got := none }
    let k := f.kc.toNat
    Completes (.lds f) s { s2 with me := if s2.me.raised = none
      then { s2.me.setCtr k { s2.me.ctr k with count := (s2.me.ctr k).count + 1 } with raised := some k } else s2.me })
  ∧ (∀ (f : Form) (s : State) (info : Info), Clear (.lds f) info f s → s.me.active f = 0 → Completes (.lds f) s s)
  ∧ (∀ (g n : Nat) (s s1 : State) (l : Split) (xs : List (Option Nat)) (bad : Option Word),
    (s.group g).splits[n]? = some l →
    (l.got.map fun r => (r, s)).or (s.splitFinds (s.group g) l) = some ((xs, bad), s1) →
    let mask := maskOf fun k => laneOn l.mask k && (xs.getD k none).isSome
    let s2 := s1.landReg g l.inner (Spec.of l.dest) (scaledWrite mask (fun k => (xs.getD k none).getD 0) fun _ => 0x7F)
    exec (.ldsReply g n) s = .next (s2.modGroup g fun y =>
      { y.setCtr l.ctr { count := (y.ctr l.ctr).count - 1, damage := (y.ctr l.ctr).damage.or bad } with
        splits := dropAt y.splits n }))
  ∧ (∀ (f : Form) (s : State) (info : Info), Clear (.kwait f) info f s →
    let c := s.me.ctr f.a.toNat
    let t := (s.me.scalar f.b).toNat
    (c.count ≤ t ∨ 63 ≤ t → c.damage = none → Completes (.kwait f) s s)
    ∧ (t < c.count → t < 63 → Waits (.kwait f) s .kwait))

/-- The number of an atomic operation (05/R81). -/
def Sys2Proof.Claims.atomics : List (Form → Instr) :=
  [.atomAdd, .atomMin, .atomMax, .atomAnd, .atomOr, .atomXor, .atomExch, .atomCas]

/-- 17/R265, 19/R308: a scalar atomic on DRAM gives D the old value, zero-extended, and memory F(old, C, D), in one step. -/
def Obligations.ScalarAtomic : Prop :=
  ∀ mk ∈ atomics, ∀ (f : Form) (s : State) (info : Info) (la n : Nat) (sc : Bool), Clear (mk f) info f s →
    Spec.of f.d = .sca n →
    let t := f.type info.base
    let w := atomSize t
    Reaches s (s.me.address f) w true la sc ((f.releases || sc) && f.wide) f.sys →
    let old := stored s la w
    let new := atomNew info.fn t old (s.me.scalar f.cSpec).toNat (s.me.scalar f.d).toNat
    ∃ s' : State, Completes (mk f) s (s'.setScalar f.d (BitVec.ofNat 64 old)) ∧ s'.me.sregs = s.me.sregs ∧ ∀ a, Memory.read s'.mem a =
      if la ≤ a ∧ a < la + w then BitVec.ofNat 8 (new / 256 ^ (a - la)) else Memory.read s.mem a

/-- 19/R309: the vector form: every lane translated before any acts, each 64 B granule one step, those homed elsewhere first
(log 46), old values in the active lanes; without an active lane only its ordering remains. -/
def Obligations.VectorAtomic : Prop :=
  (∀ mk ∈ atomics, ∀ (f : Form) (s s1 s2 s3 s4 : State) (info : Info) (hs : List (Nat × Word × Home)) (sc : Bool)
    (got olds : Map Nat), Clear (mk f) info f s → (∀ n, Spec.of f.d ≠ .sca n) → s.me.active f ≠ 0 → readSources (mk f) info f false s = .ok s →
    let t := f.type info.base
    (∀ p ∈ atomLanes s f, p.2.toNat % 4 = 0 ∧ p.2.toNat < 2 ^ 52) →
    lanesHomes (mk f) t s (atomLanes s f) = .ok (hs, sc, s1) →
    (∃ x, writeReg (mk f) s (Spec.of f.d) (laneWrite (s.me.active f) fun _ => 0) false = .ok x) →
    let op (k : Granule) : HomeOp := .atoms info.fn t (k.lanes.map fun l =>
      (l.2, BitVec.ofNat 64 ((s.source f.cSpec t).lane l.1), BitVec.ofNat 64 ((s.source f.d t).lane l.1)))
    s1.me.returned ((f.releases || sc) && f.wide) = .ok () →
    let sr := s1.release (f.releases || sc) f.wide
    sr.acknowledged (f.releases || sc) f.sys = .ok () →
    let out := (granulesOf hs).filter fun k => k.home.away
    awayGranules (mk f) op (if out = [] then sr else sr.drainWc sr.meId) out = .ok (got, s2) →
    nearGranules (mk f) op s2 got ((granulesOf hs).filter fun k => !k.home.away) = .ok (olds, s3) →
    readSources (mk f) info f false s3 = .ok s3 →
    writeReg (mk f) s3 (Spec.of f.d) (laneWrite (s.me.active f) fun l => olds.get l 0) false = .ok s4 →
    Completes (mk f) s { s4 with me := { s4.me with lr := s.me.lr } })
  ∧ (∀ mk ∈ atomics, ∀ (f : Form) (s s1 : State) (info : Info), Clear (mk f) info f s → (∀ n, Spec.of f.d ≠ .sca n) →
    s.me.active f = 0 → s.me.returned (f.releases && f.wide) = .ok () →
    (s.release f.releases f.wide).acknowledged f.releases f.sys = .ok () →
    writeReg (mk f) (s.release f.releases f.wide) (Spec.of f.d) (laneWrite 0 fun _ => 0) false = .ok s1 →
    Completes (mk f) s { s1 with me := { s1.me with lr := s.me.lr } })

/-- 17/R266-R268, 19/R310-R313: `xsum` adds its contributions to the cell at its address exactly, and a read rounds the cell
once; `xrd.clr` clears it. -/
def Obligations.ExactSums : Prop :=
  (∀ (f : Form) (s s1 : State) (info : Info) (la : Nat) (sc : Bool), Clear (.xsum f) info f s →
    let t := f.type info.base
    ((Spec.of f.d).isVector = true → s.me.active f ≠ 0) → readSources (.xsum f) info f false s = .ok s1 →
    Reaches s (s.me.address f) 64 true la sc (sc && f.wide) f.sys →
    let new := ((sumData s f t).foldl (Cell.contribute (t == .f64)) (cellOf (stored s la 64))).num
    ∃ s', Completes (.xsum f) s s' ∧ ∀ a, Memory.read s'.mem a =
      if la ≤ a ∧ a < la + 64 then BitVec.ofNat 8 (new / 256 ^ (a - la)) else Memory.read s.mem a)
  ∧ (∀ (f : Form) (s : State) (info : Info), Clear (.xsum f) info f s → (Spec.of f.d).isVector = true → s.me.active f = 0 →
    Completes (.xsum f) s s)
  ∧ (∀ r ∈ [(Instr.xrd, false), (.xrdClr, true)], ∀ (f : Form) (s : State) (info : Info) (la : Nat) (sc : Bool),
    Clear (r.1 f) info f s → ModeLegal s → Reaches s (s.me.address f) 64 r.2 la sc (sc && f.wide) f.sys →
    let wide := f.type info.base == .f64
    let c := cellOf (stored s la 64)
    let v := (c.value wide).deliver (if wide then fmtF64 else fmtF32) s.me.mode false
    ∃ s' : State, Completes (r.1 f) s ((s'.raise v.flags).setScalar f.d (BitVec.ofNat 64 v.bits)) ∧ s'.me.ff = s.me.ff ∧
      ∀ a, Memory.read s'.mem a = if r.2 = true ∧ la ≤ a ∧ a < la + 64 then BitVec.ofNat 8 ((c.cleared wide).num / 256 ^ (a - la))
        else Memory.read s.mem a)

/-- 18/R279, R284, 19/R314-R316: `fence` drains the combining buffer unless its order is an acquire, and waits for the group's
split-phase loads at a scope other than `.gp`; at `.sy` it waits, what it has drained being sent, until the writes that the group has sent
by PCI Express have been acknowledged (log 65, DEDUCED); `bar` arrives once they have returned, releases a barrier whose last member
arrives, and waits before. -/
def Obligations.FenceAndBarrier : Prop :=
  (∀ (f : Form) (s : State) (info : Info), Clear (.fence f) info f s →
    let s1 := if f.ord = 1 then s else s.drainWc s.meId
    ((f.wide = true → s.me.splits = []) → (f.ord ≠ 1 → f.sys = true → s1.me.posted = []) → Completes (.fence f) s s1)
    ∧ ((f.wide = true → s.me.splits = []) → f.ord ≠ 1 → f.sys = true → s1.me.posted ≠ [] →
      exec (.fence f) s = .next { s1 with me := s1.me.waitOn .answer s1.time })
    ∧ (f.wide = true → s.me.splits ≠ [] → Waits (.fence f) s .answer))
  ∧ (∀ (f : Form) (s : State) (info : Info) (m : Nat), Clear (.bar f) info f s → s.me.bargen = none →
    let cohort := f.scope == 3
    let b := s.barrier s.me cohort
    s.barMask s.me cohort f.imm.toNat = some m → (b.mask = 0 ∨ b.mask = m) → s.me.splits = [] →
    let s1 := s.drainWc s.meId
    let b1 := { b with mask := m, arrived := b.arrived ++ [s1.barMember s.me cohort] }
    (s1.barDone s.me cohort b1 = true →
      Completes (.bar f) s (s1.setBarrier s.me cohort { arrived := [], gen := b.gen + 1, mask := 0 }))
    ∧ (s1.barDone s.me cohort b1 = false →
      let s2 := s1.setBarrier s.me cohort b1
      exec (.bar f) s = .next { s2 with me := ({ s2.me with bargen := some b.gen } : Group).waitOn .barrier s.time }))
  ∧ (∀ (f : Form) (s : State) (info : Info) (n : Nat), Clear (.bar f) info f s → s.me.bargen = some n →
    let b := s.barrier s.me (f.scope == 3)
    (n ≠ b.gen → Completes (.bar f) s { s with me := { s.me with bargen := none } })
    ∧ (n = b.gen → s.barDone s.me (f.scope == 3) b = true → Completes (.bar f) s
      { s.setBarrier s.me (f.scope == 3) { arrived := [], gen := b.gen + 1, mask := 0 } with me := { s.me with bargen := none } })
    ∧ (n = b.gen → s.barDone s.me (f.scope == 3) b = false → Waits (.bar f) s .barrier))

/-! ### Places (03/R35-R54, 06/R112-R114) -/

/-- 03/R45, R47, R52, R54, 06/R112-R114: `plc` moves a register with its value to a place that its operand may name; `qfree`
answers the free slots of a queue, the group's own pushes in its window counted out, and 0 for another register; `xchg` exchanges where
the partner waits for it, waits for one that has not come, and traps for one that is not in the launch, runs in the same cluster or on
another terrace, or is gone; culvert entries
and slot returns arrive when their time has come. That they travel by the cycles of the pushing and of the popping core is log 13
(DEDUCED), and that the two groups of an `xchg` may name different registers is log 29 (DEDUCED). -/
def Obligations.Places : Prop :=
  (∀ (f : Form) (s : State) (info : Info) (new : BitVec 32), Clear (.plc f) info f s →
    let n := f.d.toNat
    let old := s.me.entry n
    let blocked (e : BitVec 32) : Prop := mapPlace e = 2 ∧ s.bankBlocked s.myPart (bankOf e).1 = true
    plcTarget s f n = .ok new → s.me.loading (.vec n) = false →
    (new = old → Completes (.plc f) s s)
    ∧ (new ≠ old → blocked old ∨ blocked new → Waits (.plc f) s .register)
    ∧ (new ≠ old → ¬ blocked old → ¬ blocked new → (mapPlace old = 1 → s.gate s.me.team (128 * mapSlot old) 128 = .go
        ∧ s.slotBad s.me.team (mapSlot old) = false) →
      let v := s.vreg n
      let s1 := s.freeSlot s.myPart old
      let s2 := { s1 with me := { s1.me with pmap := s1.me.pmap.set n new } }
      Completes (.plc f) s (match mapPlace new with
        | 1 => s2.writeSlot s.me.team (mapSlot new) v.whole
        | 2 => (s2.ownBank s2.myPart (bankOf new).1 (bankOf new).2 (some (s2.meId, n))).setBankReg s2.myPart
            (bankOf new).1 (bankOf new).2 v
        | _ => { s2 with me := { s2.me with regs := s2.me.regs.set n v } })))
  ∧ Result .qfree (fun f s => s.setScalar f.d (BitVec.ofNat 64 (
      let n := f.a.toNat
      let e := s.me.entry n
      let k := culvertOf s.me.core e
      let c := s.culvert k
      match mapQKind e with
      | 1 => mapQDepth e - (s.me.lqueues.get n []).length - s.me.windowPushes n
      | 2 => c.depth - s.slotsTaken k c - s.me.windowPushes n
      | 3 => c.depth - c.entries.length
      | _ => 0)))
  ∧ (∀ (f : Form) (s : State) (info : Info) (h : Nat) (w : XWait), Clear (.xchg f) info f s →
    let n := f.d.toNat
    let v := (s.me.scalar f.a).toNat
    mapPlace (s.me.entry n) = 0 → v < 2 ^ 21 → s.me.loading (.vec n) = false →
    (mapQKind (s.me.entry n) = 1 → s.me.em ≠ 0 → s.me.lqueues.get n [] ≠ []) →
    let p := s.partner (v % 2 ^ 16) (v / 2 ^ 16)
    (p = .there h → (s.group h).xw = some w → (s.group h).status = .running → (s.group h).sched = .active →
      w.team = s.myTeam.index → w.group = s.me.index → Completes (.xchg f) s (s.swapWith f h w))
    ∧ (p = .far → ∃ t, Traps (.xchg f) s t ∧ t.kind = 10 ∧ t.tval = BitVec.ofNat 64 (10 * 256 + n))
    ∧ (p = .gone → ∃ t, Traps (.xchg f) s t ∧ t.kind = 16 ∧ t.tval = s.me.scalar f.a ∧ t.tlm = 0)
    ∧ (p = .waits → exec (.xchg f) s = .next { s with me := ({ s.me with
      xw := some { form := f, team := v % 2 ^ 16, group := v / 2 ^ 16, mask := s.me.em } } : Group).waitOn .xchg s.time }))
  ∧ (∀ (s : State) (t : Nat) (v : VReg) (rest : List (Nat × VReg)), (s.culvert s.subject).flying = (t, v) :: rest →
    t ≤ s.cycles (culvertEnd s.subject false) →
    exec .culvertEntryArrival s = .next (s.modCulvert s.subject fun c =>
      { c with flying := rest, entries := if c.inGone then [] else c.entries ++ [v] }))
  ∧ (∀ (s : State) (t : Nat) (rest : List Nat), (s.culvert s.subject).returns = t :: rest → t < s.cycles (culvertEnd s.subject true) →
    exec .slotReturn s = .next (s.modCulvert s.subject fun c => { c with returns := rest, taken := c.taken - 1 }))

/-- 02/R33, 03/R36, R41, R47, 06/R86: what the write of one register leaves, by where the register lives: the operand file;
`ln`, with `lr`; a local queue's tail; the bytes of the active lanes of an `sp` slot, and no other byte; a bank register, which waits with its bank; a culvert's out end (its 12 cycles, of the pushing core,
are log 13). -/
def Obligations.RegisterWrite : Prop :=
  ∀ (i : Instr) (s : State) (w : VWrite) (first : Bool),
  (∀ n, s.me.loading (.opf n) = false →
    let v := w.onto (s.me.ofile.get n .fresh)
    writeReg i s (.opf n) w first = .ok { s with me := { s.me with
      ofile := s.me.ofile.set n v, lr := if first then v else s.me.lr } })
  ∧ ∀ n, s.me.loading (.vec n) = false →
    let e := s.me.entry n
    (mapQKind e ≠ 1 → mapPlace e = 0 →
      let v := w.onto (s.me.regs.get n .fresh)
      writeReg i s (.vec n) w first = .ok { s with me := { s.me with
        regs := s.me.regs.set n v, lr := if first then v else s.me.lr } })
    ∧ (mapQKind e = 1 → w.mask ≠ 0 → (s.me.lqueues.get n []).length < mapQDepth e →
      writeReg i s (.vec n) w first = .ok { s with me := { s.me with
        lqueues := s.me.lqueues.set n (s.me.lqueues.get n [] ++ [w.onto .fresh])
        lr := if first then w.onto .fresh else s.me.lr } })
    ∧ (mapQKind e = 1 → w.mask ≠ 0 → mapQDepth e ≤ (s.me.lqueues.get n []).length →
      writeReg i s (.vec n) w first = .error (.wait .queue))
    ∧ (mapQKind e ≠ 1 → mapPlace e = 1 →
      let at_ := 128 * mapSlot e
      let v := w.onto (s.slotReg s.me.team (mapSlot e))
      ∃ s', writeReg i s (.vec n) w first = .ok s' ∧ s'.me = s.me ∧ s'.mem = s.mem
        ∧ (s'.team s.me.team).spScale.get (mapSlot e) VReg.fresh.scale = v.scale
        ∧ ∀ x, s'.spRead s.me.team x = if at_ ≤ x ∧ x < at_ + 128 ∧ laneOn w.mask ((x - at_) / 4) = true
          then BitVec.ofNat 8 (digit 8 v.data.toNat (x - at_)) else s.spRead s.me.team x)
    ∧ (mapQKind e ≠ 1 → mapPlace e = 2 → s.bankBlocked s.myPart (bankOf e).1 = true →
      writeReg i s (.vec n) w first = .error (.wait .register))
    ∧ (mapQKind e ≠ 1 → mapPlace e = 2 → s.bankBlocked s.myPart (bankOf e).1 = false →
      let v := w.onto (s.bankReg s.myPart (bankOf e).1 (bankOf e).2)
      writeReg i s (.vec n) w first = .ok (s.setBankReg s.myPart (bankOf e).1 (bankOf e).2 v))
    ∧ (mapQKind e ≠ 1 → mapPlace e = 3 → w.mask ≠ 0 →
      let k := culvertOf s.me.core e
      let c := s.culvert k
      c.inGone = false → c.away = false → s.slotsTaken k c < c.depth →
      writeReg i s (.vec n) w first = .ok (s.modCulvert k fun c =>
        { c with flying := c.flying ++ [(s.cycles s.me.core + 12, w.onto .fresh)], taken := c.taken + 1 }))

/-! ### Power (03/R55, 06/R115, 23/R353-R361, 24/R367, R368) -/

/-- 03/R55, 06/R115, 23/R356, 24/R367, R368: `pgr` gates an idle island, holds the request of a busy one and refuses another
partition's; `perf` takes a level, the greatest of the active lanes of a vector; the four status words. -/
def Obligations.PowerInstructions : Prop :=
  (∀ (f : Form) (s : State) (info : Info) (c : Nat), Clear (.pgr f) info f s →
    islandOf s.me.core (s.me.scalar f.a).toNat = some c →
    let off : Prop := (s.core c).power ∈ [Power.gating, .hold, .gated]
    let held : Prop := (s.core c).request = true ∨ s.idle c = false
    (corePart c ≠ s.myPart → Completes (.pgr f) s (s.setScalar f.d 2))
    ∧ (corePart c = s.myPart →
      (off → Completes (.pgr f) s (s.setScalar f.d 0))
      ∧ (¬ off → held → Completes (.pgr f) s ((s.modCore c fun x => { x with request := true }).setScalar f.d 1))
      ∧ (¬ off → ¬ held → Completes (.pgr f) s ((s.modCore c fun x =>
        { x with power := .gating, since := s.time, request := false, grantAt := none, wake := false }).setScalar f.d 0))))
  ∧ (∀ (f : Form) (s s1 : State) (info : Info), Clear (.perf f) info f s →
    ((Spec.of f.a).isVector = false → Completes (.perf f) s { s with me := { s.me with level := min (s.me.scalar f.a).toNat 7 } })
    ∧ ((Spec.of f.a).isVector = true → s.me.active f = 0 → Completes (.perf f) s s)
    ∧ ((Spec.of f.a).isVector = true → s.me.active f ≠ 0 → readSources (.perf f) info f false s = .ok s1 → ∃ m,
      (∃ l < 32, laneOn (s.me.active f) l = true ∧ (s.source f.a .u32).lane l = m)
      ∧ (∀ l < 32, laneOn (s.me.active f) l = true → (s.source f.a .u32).lane l ≤ m)
      ∧ Completes (.perf f) s { s1 with me := { s1.me with level := min m 7 } }))
  ∧ (∀ r ∈ ([(.pwrqLvl, State.lvlWord), (.pwrqGate, State.gateWord), (.pwrqWeir, State.weirWord), (.pwrqTherm, State.thermWord)] :
      List ((Form → Instr) × (State → Nat → Word))), ∀ (f : Form) (s : State) (info : Info) (c : Nat), Clear (r.1 f) info f s →
    islandOf s.me.core (s.me.scalar f.a).toNat = some c →
    Completes (r.1 f) s (s.setScalar f.d (if corePart c = s.myPart then r.2 s c else 0x8000_0000_0000_0000)))

/-- 03/R55, 23/R357, R358: the phases of an island: a held request becomes grantable when it is idle and is
granted in the next cycle; discharged 550 cycles after the
grant unless a wake cancels it; held to 2,200; one in-rush slot of a cluster at a time; awake 220 cycles after its slot.
23/R354, R359-R361, 28/R415: the Weir's interval, the thermal poll, droops and current slew, and new voltages. -/
def Obligations.PowerHardware : Prop :=
  ∀ (s : State), let c := s.subject
  let x := s.core c
  (x.request = true → x.power = .on → s.idle c = true → x.grantAt = none → exec .heldRequestGrant s =
    .next (s.modCore c fun x => { x with grantAt := some (s.time + 1) }))
  ∧ (∀ t ≤ s.time, x.request = true → x.power = .on → s.idle c = true → x.grantAt = some t → exec .heldRequestGrant s =
    .next (s.modCore c fun x => { x with power := .gating, since := s.time, request := false, grantAt := none, wake := false }))
  ∧ (x.request = true → x.power = .on → s.idle c = false → exec .heldRequestGrant s =
    .next (s.modCore c fun x => { x with grantAt := none }))
  ∧ (x.power = .gating → x.wake = false → x.since + 550 ≤ s.time →
    exec .gatingDischarged s = .next (s.modCore c fun x => { x with power := .hold }))
  ∧ (x.power = .gating → x.wake = true → exec .gateCancelled s = .next (s.modCore c fun x => { x with power := .on, wake := false }))
  ∧ (x.power = .hold → x.since + 2200 ≤ s.time →
    let s1 := s.modCore c fun x => { x with power := .gated }
    exec .holdEnd s = .next (if x.wake then s1.modCluster (coreCluster c) fun k => { k with queue := k.queue ++ [c] } else s1))
  ∧ (∀ d rest, (s.cluster c).queue = d :: rest → (∀ j < 8, (s.core (8 * c + j)).power ≠ .waking) → exec .inrushSlot s =
    .next ((s.modCluster c fun x => { x with queue := rest }).modCore d fun x => { x with power := .waking, since := s.time }))
  ∧ (x.power = .waking → x.since + 220 ≤ s.time →
    exec .wakeComplete s = .next (s.modCore c fun x => { x with power := .on, wake := false }))
  ∧ exec .levelReached s = .next (s.modCore c fun x => { x with reached := s.targetLevel c })
  ∧ (∀ (cl used : Nat) (s : State), (s.cluster cl).weirAt + 11000 ≤ s.time → ∃ t, exec (.weirInterval cl used) s = .next t ∧ t.groups = s.groups ∧ t.mem = s.mem
    ∧ ((t.cluster cl).overrun = true ↔ (s.cluster cl).energy < used) ∧ (t.cluster cl).used = 0 ∧ (t.cluster cl).weirAt = s.time
    ∧ ∀ j < 8, (t.core (8 * cl + j)).ocap = if (s.cluster cl).energy < used then s.levelNow (8 * cl + j) - 1 else 7)
  ∧ (∀ (cl tclu tbase : Nat) (s : State), (s.cluster cl).pollAt + 55000 ≤ s.time → ∃ t,
    exec (.thermalPoll cl tclu tbase) s = .next t ∧ t.mem = s.mem
    ∧ (t.cluster cl).cls = (s.cluster cl).nextClass tclu tbase ∧ (t.cluster cl).tclu = tclu ∧ (t.cluster cl).tbase = tbase
    ∧ (t.cluster cl).pollAt = s.time
    ∧ ((s.cluster cl).nextClass tclu tbase ≠ (s.cluster cl).cls → ∃ r ∈ (t.part (corePart (8 * cl))).reports,
      r.tcause = 0x4A ∧ r.tval = BitVec.ofNat 64 (cl + (s.cluster cl).nextClass tclu tbase * 2 ^ 16)))
  ∧ (∀ (terrace : Nat) (ps : List Nat) (s : State), ∃ t, exec (.droopDetected terrace ps) s = .next t ∧ t.groups = s.groups
    ∧ ∀ p, (t.part p).slew = if p ∈ ps ∧ p / 4 = terrace then some s.time else (s.part p).slew)
  ∧ (∀ s : State, exec .currentSlewExceeded s = .next (s.modPart s.subject fun x => { x with slew := some s.time }))
  ∧ (∀ (s : State) (t : Nat), (s.part s.subject).slew = some t → t + 1100 ≤ s.time →
    (s.part s.subject).rise ≤ (s.part s.subject).slewMax →
    exec .slewThrottleEnd s = .next (s.modPart s.subject fun x => { x with slew := none }))
  ∧ (∀ (xs : List (Nat × Nat)) (s : State), ∃ t, exec (.voltageReplan xs) s = .next t ∧ t.groups = s.groups ∧ ∀ p,
    (t.part p).aged = (xs.filter fun x => x.1 == p).foldl (fun a x => min a x.2) (s.part p).aged)

/-! ### Near-bank compute (25/R369, R370, 27/R394-R398) -/

/-- 25/R370, 27/R394, R395: the near-bank instructions on a row of the stripe that the destination's bank holds: `nbld` loads
the active lanes, `nbfma` multiplies and adds them, `nbdot` sums the products of a row for each lane, `nbst` stores. -/
def Obligations.NearBank : Prop :=
  (∀ mk ∈ [Instr.nbld, .nbfma, .nbdot, .nbst], ∀ (f : Form) (s : State) (info : Info), Clear (mk f) info f s → ModeLegal s →
    s.me.active f = 0 → Completes (mk f) s s)
  ∧ (∀ (f : Form) (s s1 s2 s3 : State) (info : Info) (r : Row) (bs : List Byte), Clear (.nbld f) info f s → s.me.active f ≠ 0 →
    let x := s.me.address f
    bankRow (.nbld f) s (bankD s.me f) x false = .ok (r, s1) →
    readRow (.nbld f) s1 (r.lo + BitVec.ofNat 64 (x.toNat % 65536)) r.la (laneBytes (s.me.active f)) = .ok (bs, s2) →
    writeReg (.nbld f) s2 (Spec.of f.d) (scaledWrite (s.me.active f) (lanesOf (s.me.active f) bs) fun _ => 0x7F) true = .ok s3 →
    Completes (.nbld f) s s3)
  ∧ (∀ (f : Form) (s s1 s2 s3 : State) (info : Info) (r : Row) (bs : List Byte), Clear (.nbfma f) info f s → ModeLegal s →
    s.me.active f ≠ 0 →
    let x := s.me.scalar f.a
    let g := s.me
    bankRow (.nbfma f) s (bankD g f) x false = .ok (r, s1) →
    readRow (.nbfma f) s1 (r.lo + BitVec.ofNat 64 (x.toNat % 65536)) r.la (laneBytes (g.active f)) = .ok (bs, s2) →
    readSources (.nbfma f) info f false s2 = .ok s3 →
    let t := f.type info.base
    let fm := (fmtOf t).getD fmtF32
    let el (v : Nat) (j : Nat) : FpNum := fm.read g.ftz (digit (elemWidth t) v j)
    FpDone (.nbfma f) info f s s3 false ((List.range 32).map fun l => packLane32 (elemWidth t) fun j => g.deliver fm
      (numFma g.down (el (lanesOf (g.active f) bs l) j) (el ((s.source f.b t).lane l) j) (el ((s.source f.cSpec t).lane l) j))))
  ∧ (∀ (f : Form) (s s1 s2 s3 : State) (info : Info) (r : Row) (bs : List Byte), Clear (.nbdot f) info f s → ModeLegal s →
    s.me.active f ≠ 0 →
    let x := s.me.scalar f.a
    let off := x.toNat % 65536
    bankRow (.nbdot f) s (bankD s.me f) x false = .ok (r, s1) → dotLeaves (s.me.active f) off = false →
    readRow (.nbdot f) s1 (r.lo + BitVec.ofNat 64 off) r.la (dotBytes (s.me.active f)) = .ok (bs, s2) →
    readSources (.nbdot f) info f false s2 = .ok s3 →
    let row (l : Nat) : List Byte := (bs.drop (128 * ((List.range l).filter (laneOn (s.me.active f))).length)).take 128
    FpDone (.nbdot f) info f s s3 false ((List.range 32).map fun l =>
      if laneOn (s.me.active f) l then rowDot s.me (f.type info.base) (row l) (s.source f.b (f.type info.base))
        ((s.source f.d .f32).lane l) else ⟨0, 0⟩))
  ∧ (∀ (f : Form) (s s1 : State) (info : Info) (r : Row), Clear (.nbst f) info f s → s.me.active f ≠ 0 →
    let x := s.me.address f
    bankRow (.nbst f) s (bankD s.me f) x true = .ok (r, s1) → s1.nearBusy r.la = false →
    Completes (.nbst f) s (s1.writeRuns r.la (s1.who s1.me (r.lo + BitVec.ofNat 64 (x.toNat % 65536)) 2)
      (laneRuns (s.me.active f) (s1.source f.d .v))))

/-- 25/R369, 26/R380, 27/R396-R398, 08/R146: `mapc` answers 1 where something is mapped, 2 where no stripe is free, else maps a
page of zeros, whose leaf the hardware keeps itself where the tree has no table for it (log 20, DEDUCED); `unmapc` frees it, and answers
1 where its walk ends at no leaf of a compute-capable page, a malformed entry included (log 17, DEDUCED); a walk of either that meets an
entry which cannot be read is kind 19 with WHERE 7 (26/R388; log 17); `xinv` drops the leaves of a range; `fbsvc` serves an entry of a
fault buffer; an access parked without an entry goes on once one is free and its fault is gone, and traps where reduced service, under
which it parked, bars its page (28/R414). What a busy bank holds up waits. -/
def Obligations.PagesAndFaults : Prop :=
  (∀ (f : Form) (s s1 : State) (info : Info) (y : Walk), Clear (.mapc f) info f s →
    let v := s.me.scalar f.a
    let h := (s.me.scalar f.b).toNat
    let p := s.myPart
    let w := s.who s.me v 7
    v.toNat % 2 ^ 21 = 0 → v.toNat < 2 ^ 52 → h < 2 →
    (s.installedAt p v.toNat = true → Completes (.mapc f) s (s.setScalar f.d 1))
    ∧ (s.installedAt p v.toNat = false → State.walkAll p v.toNat w (List.range 32) s = (y, s1) →
      (y = .busy → Waits (.mapc f) s .register)
      ∧ (y = .unread → exec (.mapc f) s = .next (s1.counted.takeTrap s1.meId { trapOf (.mapc f) s1.me 19 v with place := 7 }))
      ∧ ((∃ l, y = .leaf l) ∨ y = .malformed → Completes (.mapc f) s (s1.setScalar f.d 1))
      ∧ (y = .invalid → (s1.part p).freeStripe h = none → Completes (.mapc f) s (s1.setScalar f.d 2))
      ∧ (∀ x, y = .invalid → (s1.part p).freeStripe h = some x →
        let la := p * 2 ^ 34 + 3 * 2 ^ 32 + 32 * h * 2 ^ 26 + 65536 * x
        let s2 := ((s1.markStripe p h x true).zeroStripe p h x).writeLeaf p v.toNat (computeLeaf s1.module la) w
        ((∃ j < 32, s1.bankBusy (la + j * 2 ^ 26) = true) → Waits (.mapc f) s .register)
        ∧ ((∀ j < 32, s1.bankBusy (la + j * 2 ^ 26) = false) →
          Completes (.mapc f) s ((s2.invalidatePart p v.toNat (2 ^ 21)).setScalar f.d 0)))))
  ∧ (∀ (f : Form) (s s1 : State) (info : Info) (l : Leaf), Clear (.unmapc f) info f s →
    let v := s.me.scalar f.a
    let p := s.myPart
    let w := s.who s.me v 7
    v.toNat % 2 ^ 21 = 0 → v.toNat < 2 ^ 52 → s.nearWaits p v.toNat = false → s.walk p v.toNat w = (.leaf l, s1) →
    ((l.large && leafC l.entry && s1.leafOk l) = false → Completes (.unmapc f) s (s1.setScalar f.d 1))
    ∧ ((l.large && leafC l.entry && s1.leafOk l) = true → ∃ s2, Completes (.unmapc f) s (s2.setScalar f.d 0) ∧
      s2 = ((s1.writeLeaf p v.toNat 0 w).markStripe (leafAddr l.entry / 2 ^ 34) (leafHalf l)
        ((leafAddr l.entry % 2 ^ 34 - 3 * 2 ^ 32) % 2 ^ 26 / 65536) false).invalidatePart p v.toNat (2 ^ 21)))
  ∧ (∀ (f : Form) (s : State) (info : Info), Clear (.unmapc f) info f s →
    let v := s.me.scalar f.a
    v.toNat % 2 ^ 21 = 0 → v.toNat < 2 ^ 52 →
    (s.nearWaits s.myPart v.toNat = true → Waits (.unmapc f) s .register)
    ∧ (s.nearWaits s.myPart v.toNat = false → ∀ y s1, s.walk s.myPart v.toNat (s.who s.me v 7) = (y, s1) →
      (y = .busy → Waits (.unmapc f) s .register)
      ∧ (y = .unread → exec (.unmapc f) s = .next (s1.counted.takeTrap s1.meId { trapOf (.unmapc f) s1.me 19 v with place := 7 }))
      ∧ (y = .invalid ∨ y = .malformed → Completes (.unmapc f) s (s1.setScalar f.d 1))))
  ∧ (∀ (f : Form) (s : State) (info : Info), Clear (.xinv f) info f s →
    let a := (s.me.scalar f.a).toNat
    let b := (s.me.scalar f.b).toNat
    a % 65536 = 0 → b % 65536 = 0 → (b = 0 ∨ a + b ≤ 2 ^ 52) →
    let s1 := s.drainWc s.meId
    let names := invNames s.me.core (f.scope == 3)
    let lo := if b = 0 then 0 else a
    let n := if b = 0 then 2 ^ 52 else b
    (s.me.splits ≠ [] → Waits (.xinv f) s .answer)
    ∧ (s.me.splits = [] → s1.inFlight names lo n = false → Completes (.xinv f) s (s1.invalidate names lo n))
    ∧ (s.me.splits = [] → s1.inFlight names lo n = true → exec (.xinv f) s = .next { s1 with me := s1.me.waitOn .answer s1.time }))
  ∧ (∀ (f : Form) (s : State) (info : Info), Clear (.fbsvc f) info f s →
    let v := (s.me.scalar f.a).toNat
    let c := v / 2 ^ 8 % 2 ^ 12
    v < 2 ^ 22 → v / 2 ^ 20 < 2 → v / 2 ^ 6 % 4 = 0 → s.me.splits = [] →
    let s1 := s.drainWc s.meId
    let waits : Prop := v / 2 ^ 20 = 0 ∧ s.replayWaits c (v % 64) = true
    (waits → c < 3072 → corePart c = s.myPart → Waits (.fbsvc f) s .register)
    ∧ (3072 ≤ c ∨ corePart c ≠ s1.myPart → Completes (.fbsvc f) s (s1.setScalar f.d 2))
    ∧ (¬ waits → c < 3072 → corePart c = s1.myPart → (s1.core c).fbuf.get? (v % 64) = none → Completes (.fbsvc f) s (s1.setScalar f.d 1))
    ∧ (∀ o va, ¬ waits → c < 3072 → corePart c = s1.myPart → (s1.core c).fbuf.get? (v % 64) = some (o, va) →
      Completes (.fbsvc f) s ((if v / 2 ^ 20 = 0 then s1.replayEntry c (v % 64) o va else s1.condemnEntry c (v % 64) o va).setScalar
        f.d 0)))
  ∧ (∀ (s s1 : State) (p : Parked) (e : Nat) (y : Xlate) (found : Option (Word × Home × Bool)), let c := (s.group s.subject).core
    (s.group s.subject).status = .parked → (s.group s.subject).parked = some p → p.entry = none → p.doomed = false →
    e < 64 → (s.core c).fbuf.get? e = none → s.stillFaults c p.va p.writes = (y, found, s1) → y ≠ .replay → y ≠ .wait →
    exec .accessRestart s = .next (if y.barFar p.reduced (corePart c) = y then s1.resumeAccess s.subject p found
      else s1.condemned s.subject p))

/-! ### Traps, safe points and system (08/R133-R143, 09/R148-R151, 10/R158-R173) -/

/-- 08/R136-R138: a trap of a group that exists goes to the steward under the six conditions of R136, and otherwise to the
handler at ADDR: the trap registers are written, the mask and the stacks set aside, block H relieved, the depth 1, the pc
ADDR, the first issue there 6 cycles of the core later, `em` and `fm` as they were. Routed to the steward it stops the group, whose trap registers keep their values. Either way
what had issued and not committed is squashed (R126). -/
def Obligations.TrapRouting : Prop :=
  ∀ (s : State) (g : Nat) (x : Group) (t : Trap), s.group? g = some x →
    let addr := x.tvec.toNat % 2 ^ 52
    let steer := match steerBit t.kind with | some b => x.tvec.getLsbD b | none => true
    let stew := x.depth = true ∨ addr = 0 ∨ steer = true ∨ t.kind = 21 ∨ addr % 4 ≠ 0 ∨ (s.team x.team).steward = true
    (¬ stew → ∃ y, (s.takeTrap g t).group? g = some y ∧ y.win = [] ∧ y.parked = none
      ∧ y.tepc = x.pc.setWidth 64 ∧ y.tcause = causeWord t 1 false ∧ y.tval = t.tval ∧ y.tlm = t.tlm.setWidth 64
      ∧ y.tem = x.em ∧ y.setR = x.rstack ∧ y.setL = x.lstack ∧ y.rstack = [] ∧ y.lstack = [] ∧ y.depth = true
      ∧ y.pc = x.tvec.setWidth 52 ∧ y.em = x.em ∧ y.fm = x.fm ∧ y.ff = x.ff ∧ y.sregs = x.sregs ∧ y.preds = x.preds
      ∧ y.relief.map (·.block) = x.relievable ∧ y.notBefore = s.cycles x.core + 6)
    ∧ (stew → x.status ≠ .absent → ∃ y, (s.takeTrap g t).group? g = some y ∧ y.status = .stopped ∧ y.win = [] ∧ y.parked = none
      ∧ y.tepc = x.tepc
      ∧ y.tcause = x.tcause ∧ y.tval = x.tval ∧ y.tlm = x.tlm ∧ y.regs = x.regs ∧ y.held = x.held ∧ y.relief = x.relief
      ∧ y.pc = x.pc ∧ y.em = x.em)

/-- 08/R137, 28/R411: the report of a stopped group, in the partition's ring; that of a steward group, in STRAP. -/
def Obligations.TrapReport : Prop :=
  ∀ (s : State) (g : Nat) (x : Group) (t : Trap), s.group? g = some x → x.toSteward (s.team x.team).steward t.kind = true →
    let team := s.team x.team
    let r : Report := { team := team.index, group := x.index, depth := x.depth.toNat, launch := team.launch
                        tcause := causeWord t 2 true, tepc := x.pc.setWidth 64, tval := t.tval, tlm := t.tlm.toNat }
    let p := (s.takeTrap g t).part team.part
    (team.steward = false → p.reports = (s.part team.part).reports ++ [r] ∧ p.strap = (s.part team.part).strap)
    ∧ (team.steward = true → p.strap = r ∧ p.state = 3 ∧ p.msi = (s.part team.part).msi ++ [0]
      ∧ p.reports = (s.part team.part).reports)

/-- 08/R141, 10/R159-R162: `trap` raises kind 22 with its operand in `tval`; `tret` restores what the entry set aside and goes
on at `tepc`, where a misaligned address faults; one that finds a double error in its save slots traps (26/R390); the trap
registers are read, and written but for their reserved bits. -/
def Obligations.TrapInstructions : Prop :=
  (∀ (f : Form) (s : State) (info : Info), (Instr.trap f).row = some (info, f) → issueCheck (.trap f) info f false s = .ok () →
    Traps (.trap f) s { kind := 22, tval := f.imm, tlm := 0, place := 4, op := 0xE8, nxs := false })
  ∧ (∀ (f : Form) (s : State) (info : Info), Clear (.tret f) info f s → s.me.depth = true → s.meId ≠ 0 → s.me.status ≠ .absent →
    s.spDamage.get (saveSlotKey s.meId) [] = [] → s.me.tepc.toNat % 4 = 0 → ∃ t, exec (.tret f) s = .next t ∧ t.meId = s.meId
      ∧ t.me.em = s.me.tem ∧ t.me.rstack = s.me.setR ∧ t.me.lstack = s.me.setL ∧ t.me.depth = false
      ∧ t.me.pc = s.me.tepc.setWidth 52 ∧ t.me.relief = none ∧ t.me.fm = s.me.fm ∧ t.me.ff = s.me.ff ∧ t.me.sregs = s.me.sregs
      ∧ (∀ r, s.me.relief = some r → ∀ j < 8, j < r.regs.length → t.me.regs.get (8 * r.block + j) .fresh = r.regs.getD j .fresh)
      ∧ (∀ r, s.me.relief = some r → ∀ j < 8, j < r.map.length → t.me.entry (8 * r.block + j) = r.map.getD j 0)
      ∧ t.mem = s.mem ∧ t.others = s.others)
  ∧ (∀ (f : Form) (s : State) (info : Info), Clear (.tret f) info f s → s.me.depth = true → s.meId ≠ 0 → s.me.status ≠ .absent →
    s.spDamage.get (saveSlotKey s.meId) [] = [] → s.me.tepc.toNat % 4 ≠ 0 → ∃ (u : State) (t : Trap), exec (.tret f) s = .next (u.takeTrap s.meId t)
      ∧ t.kind = 7 ∧ t.tval = (s.me.tepc.setWidth 52).setWidth 64 ∧ t.op = 0 ∧ u.meId = s.meId ∧ u.me.depth = false
      ∧ u.me.pc = s.me.tepc.setWidth 52 ∧ u.me.em = s.me.tem)
  ∧ (∀ (f : Form) (s : State) (info : Info), Clear (.tret f) info f s → s.me.depth = true →
    s.spDamage.get (saveSlotKey s.meId) [] ≠ [] → ∃ (u : State) (t : Trap), exec (.tret f) s = .next (u.counted.takeTrap s.meId t) ∧ t.kind = 19
      ∧ u.me = s.me)
  ∧ (∀ (f : Form) (s : State) (info : Info), Clear (.tret f) info f s → s.me.depth = false → ∃ t, Traps (.tret f) s t ∧ t.kind = 6)
  ∧ Result .trr (fun f s => s.setScalar f.d (match f.a.toNat with
      | 0 => s.me.tvec | 1 => s.me.tcause | 2 => s.me.tepc | 3 => s.me.tval | _ => s.me.tlm))
  ∧ Result .trw (fun f s =>
      let v := s.me.scalar f.a
      { s with me := match f.d.toNat with
        | 0 => { s.me with tvec := v &&& 0x1FFF_FFFF_FFFF_FFFF }
        | 1 => { s.me with tcause := v &&& 0xFF_FFFF }
        | 2 => { s.me with tepc := v &&& 0xF_FFFF_FFFF_FFFF }
        | 3 => { s.me with tval := v &&& 0xFFFF_FFFF_FFFF_FFFF }
        | _ => { s.me with tlm := v &&& 0xFFFF_FFFF } })

/-- 09/R148-R151, 10/R163, R164: `spt` without a request goes on with a new word count, and with one stops the group after its
next-address clause; `npr` and `epr` open and close a region, which closes by itself after 220,000 cycles; a forced save and a
stall stop a group where it stands. -/
def Obligations.SafePoints : Prop :=
  (∀ (f : Form) (s : State) (info : Info), Clear (.spt f) info f s → s.me.stopAt = none →
    (s.me.npr ≠ none ∨ (s.team s.me.team).preempt = none ∨ (s.team s.me.team).steward = true) →
    ∃ t, exec (.spt f) s = .next t ∧ t = retire (.spt f) (s.me.active f) s ∧ t.me.words = 0)
  ∧ (∀ (f : Form) (s : State) (info : Info), Clear (.spt f) info f s → s.me.npr = none → (s.team s.me.team).preempt ≠ none →
    (s.team s.me.team).steward = false →
    exec (.spt f) s = .next ((retire (.spt f) (s.me.active f) { s with me := { s.me with
      stopAt := some (0, f.imm.setWidth 16 &&& s.me.held) } }).stopMarked s.meId))
  ∧ Result .npr (fun _ s => match s.me.npr with
      | some _ => s
      | none => { s with me := { s.me with
          npr := some s.time, nprt := false
          pend := if (s.cluster (coreCluster s.me.core)).cls = 3 then some thermalTrap else s.me.pend } })
  ∧ Result .epr (fun _ s => { s with me := { s.me with npr := none, nprt := false } })
  ∧ (∀ (s : State) (t : Nat), (s.group s.subject).npr = some t → t + 220000 ≤ s.time →
    let x := s.group s.subject
    exec .nprTimeLimit s = .next ((s.setGroup s.subject { x with npr := none, nprt := true }).notify (corePart x.core) 0x41 0
      (s.groupReport x)))
  ∧ (∀ s : State, s.stoppable s.subject = true → 4096 < (s.group s.subject).words → (s.group s.subject).asked = none →
    exec .forcedSave s = .next (s.stopGroup s.subject 1))
  ∧ (∀ s : State, s.stoppable s.subject = true → s.stalledNow s.subject = true →
    exec .stallPreemption s = .next (s.stopGroup s.subject 2))

/-- 02/R26-R30, 10/R165: `rbget` of a held block changes nothing, takes a free block, or waits; a block gained reads at `ln`
with data 0 and scale bytes `0x7F`; `rbput` gives one up; the emergency block is granted where all residents wait, to the oldest of them by the group's age that is
not in a handler (log 31, DEDUCED). -/
def Obligations.RegisterBlocks : Prop :=
  (∀ (f : Form) (s : State) (info : Info), Clear (.rbget f) info f s → s.me.holds f.d.toNat = true → Completes (.rbget f) s s)
  ∧ (∀ (f : Form) (s : State) (info : Info), Clear (.rbget f) info f s → s.me.holds f.d.toNat = false → 0 < s.blocksFree s.me.core →
    f.d.toNat < 16 → ∃ t, Completes (.rbget f) s t ∧ t.me.holds f.d.toNat = true
      ∧ (∀ b < 16, b ≠ f.d.toNat → t.me.holds b = s.me.holds b)
      ∧ (∀ j < 8, t.me.regs.get (8 * f.d.toNat + j) .fresh = .fresh ∧ t.me.entry (8 * f.d.toNat + j) = 0)
      ∧ (∀ n, n / 8 ≠ f.d.toNat → t.me.regs.get n .fresh = s.me.regs.get n .fresh ∧ t.me.entry n = s.me.entry n)
      ∧ (t.core s.me.core).freeBlocks = (s.core s.me.core).freeBlocks - 1)
  ∧ (∀ (f : Form) (s : State) (info : Info), Clear (.rbget f) info f s → s.me.holds f.d.toNat = false → s.blocksFree s.me.core = 0 →
    exec (.rbget f) s = .next { s with me := ({ s.me with want := some f.d.toNat } : Group).waitOn .rbget s.time })
  ∧ (∀ (f : Form) (s : State) (info : Info), Clear (.rbput f) info f s → s.me.holds f.d.toNat = false → Completes (.rbput f) s s)
  ∧ (∀ (f : Form) (s : State) (info : Info), Clear (.rbput f) info f s →
    let b := f.d.toNat
    s.me.holds b = true → (∀ r, s.me.relief = some r → r.block ≠ b) → s.me.queueIn b = none → s.me.splits = [] →
    let s1 := s.freePlaces s.me ((List.range 8).map (8 * b + ·))
    let s2 := { s1 with me := { s1.me.loseBlock b with emg := false } }
    Completes (.rbput f) s (if s.me.emg then s2.modCore s.me.core fun k => { k with emergency := true } else s2.giveBlock s.me.core))
  ∧ (∀ s : State, exec .emergencyBlockGrant s = .next (s.grantEmergency s.subject)
    ∧ ∀ g x, (s.core s.subject).emergency = true → s.residents s.subject ≠ [] →
      (∀ y ∈ s.residents s.subject, y.2.status = .running ∧ y.2.want.isSome = true) →
      leastGroup s.ageKey ((s.residents s.subject).filter fun y => !y.2.depth) = some (g, x) →
      s.grantEmergency s.subject = (s.modCore s.subject fun k => { k with emergency := false }).setGroup g
        { x.gainBlock (x.want.getD 0) with emg := true })

/-- 10/R166, R167, R169, R170, 20/R323: system registers read; TRBASE, TRSIZE, TRTAIL and the command registers written, with
the status in D: 0 done, 2 a bad value, 3 busy; a register of the steward read by another team is illegal. That CMDLAUNCH and CMDADDR
of 2^52 or more are bad values, and that busy is judged before a bad value, is log 32 (DEDUCED). -/
def Obligations.SystemRegisters : Prop :=
  (∀ mk ∈ [Instr.srr, .trmarkRead], ∀ (f : Form) (s : State) (info : Info), Clear (mk f) info f s →
    (f.imm.toNat < 0x10 ∨ s.myTeam.steward = true → Completes (mk f) s (s.setScalar f.d (s.sysReg f.imm.toNat)))
    ∧ (0x10 ≤ f.imm.toNat → s.myTeam.steward = false → ∃ t, Traps (mk f) s t ∧ t.kind = 6))
  ∧ (∀ (f : Form) (s : State) (info : Info), Clear (.trapRingSet f) info f s →
    let p := s.part s.myPart
    let v := (s.me.scalar f.a).toNat
    let n := f.imm.toNat
    (p.trmark ≠ p.trtail → Completes (.trapRingSet f) s (s.setScalar f.d 3))
    ∧ (p.trmark = p.trtail → n = 0x10 → Completes (.trapRingSet f) s (if v % 64 = 0 ∧ v < 2 ^ 52
        then (s.modPart s.myPart fun p => { p with trbase := v, trmark := 0, trtail := 0, notice := false }).setScalar f.d 0
        else s.setScalar f.d 2))
    ∧ (p.trmark = p.trtail → n = 0x11 → Completes (.trapRingSet f) s (if 64 ≤ v ∧ v ≤ 65536 ∧ v = 2 ^ Nat.log2 v
        then (s.modPart s.myPart fun p => { p with trsize := v, trmark := 0, trtail := 0, notice := false }).setScalar f.d 0
        else s.setScalar f.d 2)))
  ∧ Result .trtailWrite (fun f s =>
      let v := (s.me.scalar f.a).toNat
      if (s.part s.myPart).trtail ≤ v ∧ v ≤ (s.part s.myPart).trmark
      then (s.modPart s.myPart fun p => { p with trtail := v }).setScalar f.d 0 else s.setScalar f.d 2)
  ∧ Result .sysregWrite (fun f s =>
      let x := s.me.scalar f.a
      let put (c : Cmd) : State := (s.modPart s.myPart fun p => { p with cmds := p.cmds.set s.me.index c }).setScalar f.d 0
      match f.imm.toNat with
      | 0x20 => if x.toNat < 2 ^ 52 then put { s.cmd with launch := x } else s.setScalar f.d 2
      | 0x21 => if x.toNat < 2 ^ 21 then put { s.cmd with team := x } else s.setScalar f.d 2
      | 0x22 => if x.toNat < 2 ^ 52 then put { s.cmd with addr := x } else s.setScalar f.d 2
      | _ => if x.toNat ≤ 0xBFF ∨ x = 0xFFFF_FFFF then put { s.cmd with core := x } else s.setScalar f.d 2)

/-- 10/R172: a write of CMD runs the command of its code and answers its status; PREEMPT, CANCEL, RESUME and ENDTEAM on the
states that allow them; no target is status 1, a state that does not allow the command 4, a code that is none 2. -/
def Obligations.StewardCommands : Prop :=
  (∀ (f : Form) (s : State) (info : Info), Clear (.srw f) info f s →
    let r := s.command (s.me.scalar f.a).toNat
    Completes (.srw f) s (r.2.setScalar f.d (BitVec.ofNat 64 r.1)))
  ∧ (∀ s : State, ∀ c, c = 0 ∨ 7 < c → s.command c = (2, s))
  ∧ (∀ r ∈ ([(.preemptLight, 1), (.preemptFull, 2), (.restore, 3), (.resume, 4), (.resumet, 5), (.endteam, 6), (.cancel, 7)] :
      List ((Form → Instr) × Nat)),
    (∀ (f : Form) (s : State) (info : Info), Clear (r.1 f) info f s →
      Completes (r.1 f) s ((s.command r.2).2.setScalar f.d (BitVec.ofNat 64 (s.command r.2).1)))
    ∧ ∀ s : State, s.target = .nothing → s.command r.2 = (1, s))
  ∧ (∀ (s : State) (t : Nat) (full : Bool), s.target = .team t → (s.team t).preempt = none → (s.team t).state = .placed →
    (s.team t).steward = false → (∀ g ∈ s.groups, g.2.team = t → g.2.status ≠ .stopped) → s.cmd.addr.toNat % 64 = 0 →
    s.command (if full then 2 else 1) = (0, s.modTeam t fun x =>
      { x with preempt := some { full, addr := s.cmd.addr.toNat, stopped := [], written := [] } }))
  ∧ (∀ (s : State) (t : Nat) (q : Preempt), s.target = .team t → (s.team t).preempt = some q →
    s.command 7 = if q.stopped.isEmpty then (0, s.modTeam t fun x => { x with preempt := none }) else (4, s))
  ∧ (∀ (s : State) (t g : Nat) (x : Group), s.target = .team t → s.targetGroup t = some (g, x) →
    s.command 4 = if x.status = .stopped ∧ s.cmd.addr.toNat % 4 = 0
      then (0, (s.setGroup g { x with status := .running, pc := s.cmd.addr.setWidth 52 }).fill x.core) else (4, s))
  ∧ (∀ (s : State) (t : Nat), s.target = .team t →
    s.command 6 = if (s.team t).steward then (4, s) else (0, s.endTeam t 1))

/-- Instruction n of the window of the group of the turn is done, with the bytes that it has read. -/
def Sys2Proof.Claims.marked (s : State) (n : Nat) (early : Option (List Byte)) : State :=
  { s with me := { s.me with win := s.me.win.zipIdx.map fun x => if x.2 = n then { x.1 with done := true, early } else x.1 } }

/-- What a commit leaves of the group beside its instruction's effect: its next address, its state and its younger instructions. -/
def Sys2Proof.Claims.goesOn (g r : Group) (win : List WinEntry) : Group :=
  { r with pc := g.pc, win, wait := g.wait, waited := g.waited, fetched := g.fetched, yielded := g.yielded, words := g.words
           status := g.status, sched := g.sched, parked := g.parked }

/-- 08/R121-R127, R145: an instruction of the window of a running group completes once what it reads is known from the earlier ones, with
its result, the bytes that it has loaded, or the trap or the park that it will take; one that depends on a result not yet known
does not. The oldest completed one commits: a scalar that it has written at issue, or its effect at its own address, after which younger ones
go on, or are squashed where it traps, parks or goes elsewhere. What may not issue ahead waits, 16 instructions away from the core fill the
window, a queue's count and the words of `pwrq` are those at issue, and a gating request is made at issue. Which instructions issue ahead,
that an effect is made in one step at its commit, and when loads read are the model's choices of log 1 (DESIGN CHOICE). -/
def Obligations.PlaceWindow : Prop :=
  (∀ (s r t : State) (n : Nat) (w : WinEntry) (late : List WinEntry) (lost : Option (List Nat))
      (run : State → Host.Outcome State Fault Refusal), s.meId ≠ 0 →
    s.me.status = .running → s.me.parked = none → s.me.win[n]? = some w → w.done = false →
    State.ahead (s.me.win.take n) (some []) s.bare = (t, late, lost) →
    (meetsKeys lost (t.me.readKeys w.ins w.va) = true → exec (.instructionCompletion s.meId n) s = .next s)
    ∧ (meetsKeys lost (t.me.readKeys w.ins w.va) = false → w.effect = some run →
      let at_ : State := { t with me := w.seen t.me }
      run at_ = .next r →
      (at_.me.passed r.me = true → (memRead w.ins = none ∨ r.me.pc ≠ w.next) →
        exec (.instructionCompletion s.meId n) s = .next (marked s n none))
      ∧ (∀ read bs u, at_.me.passed r.me = true → memRead w.ins = some read → r.me.pc = w.next →
        s.me.readsNext n (at_.acquires w.ins) = true → read at_ = .ok (bs, u) →
        (u.me.wc = at_.me.wc → exec (.instructionCompletion s.meId n) s =
          .next { s.meets at_.me read with me := (marked s n (some bs)).me })
        ∧ (u.me.wc ≠ at_.me.wc → exec (.instructionCompletion s.meId n) s = .next (marked s n none)))
      ∧ (∀ read, at_.me.passed r.me = true → memRead w.ins = some read → r.me.pc = w.next →
        s.me.readsNext n (at_.acquires w.ins) = false → exec (.instructionCompletion s.meId n) s = .next s)
      ∧ (at_.me.passed r.me = false → r.me.parked = none → r.me.wait = none →
        exec (.instructionCompletion s.meId n) s = .next (marked s n none))
      ∧ (at_.me.passed r.me = false → r.me.parked = none → r.me.wait = some .answer → 0 < n →
        exec (.instructionCompletion s.meId n) s = .next s)
      ∧ (∀ p, at_.me.passed r.me = false → r.me.parked = some p →
        let u := s.park p.trap p.va p.ins n w.pc
        exec (.instructionCompletion s.meId n) s = .next { u with me := { u.me with
          parked := u.me.parked.map fun q => { q with reduced := w.reduced } } })))
  ∧ (∀ (s : State) (w : WinEntry) (rest : List WinEntry), s.subject = s.meId → s.meId ≠ 0 → s.me.win = w :: rest →
    s.me.status = .running → s.me.parked = none → s.me.asked = none → w.early = none →
    (w.done = false → exec .instructionCommit s = .next s)
    ∧ (∀ run r, w.done = true → w.effect = some run →
      let bare : Group := { w.seen s.me with words := s.me.words - 1 }
      run { s with me := bare } = .next r →
      (bare.passed r.me = true → r.me.pc = w.next →
        exec .instructionCommit s = .next { r with me := goesOn s.me r.me rest })
      ∧ (bare.passed r.me = true → r.me.pc ≠ w.next →
        let u := r.squashYounger s.me rest
        exec .instructionCommit s = .next { u with me := { u.me with fetched := [], yielded := w.ins.form.nx == .yield } })
      ∧ (bare.passed r.me = false → r.me.parked = none → r.me.wait = none →
        exec .instructionCommit s = .next (r.squashYounger s.me rest))
      ∧ (bare.passed r.me = false → r.me.parked = none → r.me.wait ≠ none →
        exec .instructionCommit s = .next { r with me := goesOn s.me r.me s.me.win })
      ∧ (∀ p, bare.passed r.me = false → r.me.parked = some p →
        let u := r.squashYounger s.me []
        exec .instructionCommit s = .next { u with me := { goesOn s.me u.me s.me.win with
          status := .parked, parked := some { p with reduced := w.reduced }, sched := .pending, wait := none, waited := 0 } })))
  ∧ (∀ (s t : State) (i : Instr) (late : List WinEntry) (lost : Option (List Nat)), s.window = (t, late, lost) →
    let hold : State := { s with me := s.me.waitOn .window s.time }
    (mayLead i = false → s.issueAhead i = hold)
    ∧ (t.me.goesAway i = true → 16 ≤ (s.me.win.filter (·.away)).length → s.issueAhead i = hold)
    ∧ (meetsKeys (s.me.unsettled late) (boundKeys i) = true → s.issueAhead i = hold)
    ∧ (mayLead i = true → (t.me.goesAway i = true → (s.me.win.filter (·.away)).length < 16) →
      meetsKeys (s.me.unsettled late) (boundKeys i) = false →
      (∀ f r, i = .qfree f → execQfree f t = .next r → t.me.passed r.me = true →
        s.issueAhead i = { s with me := s.me.push { t.entryOf i r.me.pc (t.me.goesAway i) with
          held := some (BitVec.ofNat 64 (s.freeSlots f.a.toNat)), done := true } })
      ∧ (∀ f r, i = .pgr f → execPgr f { s with me := t.me, culverts := s.culvertView false } = .next r →
        t.me.passed r.me = true →
        let e : WinEntry := { t.entryOf i r.me.pc (t.me.goesAway i) with held := some (r.me.scalar f.d), done := true }
        s.issueAhead i = { r with culverts := s.culverts, me := s.me.push e })
      ∧ (∀ f r, i = .pwrqLvl f ∨ i = .pwrqGate f ∨ i = .pwrqWeir f ∨ i = .pwrqTherm f → exec i { s with me := t.me } = .next r →
        t.me.passed r.me = true →
        let e : WinEntry := { t.entryOf i r.me.pc (t.me.goesAway i) with held := some (r.me.scalar f.d), done := true }
        s.issueAhead i = { r with culverts := s.culverts, me := s.me.push e })
      ∧ (∀ f r, i = .st f → meetsKeys lost (t.me.readKeys i (t.me.address f)) = false →
        let u := s.queueView t
        let e := t.entryOf i r.me.pc (t.me.goesAway i)
        u.meetsDevice i = false → execSt f u = .next r → t.me.passed r.me = true →
        s.queueStalls u i (t.entryOf i (s.me.pc + BitVec.ofNat 52 f.len.bytes) (t.me.goesAway i)) = false →
        s.issueAhead i = { s with me := s.me.push e })))

/-! ### Scheduling, pre-emption, launches (09, 21) -/

/-- 21/R337, R341, R342: swaps of the active set: at a yield, three cycles of the core with the one that issued it; after 32
cycles of a long wait that has not ended; at a promotion, one of a core in a cycle; and the end of a swap, which fills a vacancy
that arose meanwhile. -/
def Obligations.SchedulerSwaps : Prop :=
  ∀ s : State, let g := s.subject
  let x := s.group g
  (x.status = .running → x.sched = .active → x.yielded = true → s.readyPending x.core = true →
    exec .yieldSwap s = .next (s.swapOut g 3))
  ∧ (x.status = .running → x.sched = .active → s.stalledNow g = true → 32 ≤ s.cyclesSince x.core x.waited →
    s.readyPending x.core = true → exec .longWaitSwap s = .next (s.swapOut g))
  ∧ (∀ h y, (leastGroup s.ageKey ((s.pendings x.core).filter fun z => s.ripe z.2)).map (·.1) = some g →
    s.promotedNow x.core = false →
    leastGroup (fun y => y.stay :: s.ageKey y) ((s.residents x.core).filter fun z => z.2.seated) = some (h, y) →
    exec .promotion s = .next (((s.modGroup g fun y => { y with promo := some s.time }).modCore x.core fun k =>
      { k with promoted := some s.time }).swapOut h))
  ∧ (x.stay ≤ s.cycles x.core → x.sched = .entering →
    exec .swapComplete s = .next (s.modGroup g fun y => { y with sched := .active, stay := s.cycles x.core }))
  ∧ (x.stay ≤ s.cycles x.core → x.sched = .leaving →
    exec .swapComplete s = .next ((s.modGroup g fun y => { y with sched := .pending }).fill x.core))
  ∧ (∀ h y n, s.nextPending x.core = some (h, y) →
    let s1 := s.modGroup g fun z => { z with sched := .leaving, stay := s.cycles x.core + n, yielded := false }
    s.swapOut g n = s1.modGroup h fun z =>
      { z with sched := .entering, stay := s1.cycles z.core + n, promo := none, ready := none })

/-- 09/R152-R157, 10/R173: the frame of a stopped group is written once its loads have landed and its queues are still; after
the last frame the team leaves its core; a RESTORE whose turn has come and whose frames are good is placed where everything that it
needs is free, and an island that is not on is woken for it; where the team that holds its culvert partners is out, it is held for it. -/
def Obligations.FramesAndRestore : Prop :=
  (∀ (s s1 : State) (q : Preempt), let x := s.group s.subject
    x.status = .preempted → (s.team x.team).preempt = some q → x.index ∉ q.written → x.splits = [] →
    (q.full = true → s.queuesStill x = true) →
    (({ s.drainWc s.subject with free := s.free + 1 } : State).writeFrame x.team x.index q.full false q.addr) = .ok () s1 →
    exec .groupFrameWrite s = .next ((s1.hwAsked.modTeam x.team fun t =>
      { t with preempt := some { q with written := q.written ++ [x.index] } }).setAway))
  ∧ (∀ (s s1 : State) (va : Nat) (q : Preempt), let x := s.group s.subject
    x.status = .preempted → (s.team x.team).preempt = some q → x.index ∉ q.written → x.splits = [] →
    (q.full = true → s.queuesStill x = true) →
    (({ s.drainWc s.subject with free := s.free + 1 } : State).writeFrame x.team x.index q.full false q.addr) = .fail va s1 →
    exec .groupFrameWrite s = .next (s1.hwAsked.failPreempt x.team va))
  ∧ (∀ (s s1 : State) (q : Preempt), let x := s.team s.subject
    x.preempt = some q → q.written ≠ [] → (∀ i < x.ngroups, i ∈ x.exited ∨ i ∈ q.written) →
    (q.full = true → s.teamStill s.subject = true) →
    State.writeFrames s.subject q.full q.addr (List.range x.ngroups) { s with free := s.free + 1 } = .ok () s1 →
    exec .teamSectionsWrite s = .next (s1.hwAsked.leaveCore s.subject q))
  ∧ (∀ (s s1 : State) (fs : List Frame), let x := s.team s.subject
    x.state = .restoring → x.partner = false → s.jointTeam s.subject = none → s.firstFor s.subject = true → s.partnerOut s.subject = false →
    State.readFrames s.subject (List.range x.ngroups) s = .ok fs s1 →
    (x.light = true ∨ s1.barrenBank x.part fs = none) →
    (∀ s2, s1.restoreTeam s.subject fs = some s2 → (s.core x.core).power = .on →
      exec .restorePlacement s = .next s2.hwAsked)
    ∧ (∀ s2, s1.restoreTeam s.subject fs = some s2 → (s2.team s.subject).state = .placed → (s.core x.core).power ≠ .on →
      exec .restorePlacement s = .next ((s.keepAsks s2).hwAsked.wakeIsland x.core))
    ∧ (s1.restoreTeam s.subject fs = none → exec .restorePlacement s = .next (s.keepAsks s1.hwAsked)))
  ∧ (∀ s : State, let x := s.team s.subject
    x.state = .restoring → x.partner = false → s.jointTeam s.subject = none → s.firstFor s.subject = true → s.partnerOut s.subject = true →
    exec .restorePlacement s = .next (s.modTeam s.subject fun x => { x with partner := true }))

/-- 20/R319, 21/R330-R335, 24/R363: `lnch` answers a slot and stores the launch, or the status of the check that failed, with a
report, or waits for a gated byte of the inbound window or for a read that another module answers (log 33), and finds in its core's
combining buffer what its group wrote there; a cohort binds to the
first facing pair that fits; a team is placed on its core when its turn has come and everything that it needs is free, and an island
that is not on is woken for it. That the read of a template delays no team whose award its core has accepted is log 37 (DEDUCED). -/
def Obligations.LaunchAndPlacement : Prop :=
  (∀ (f : Form) (s s1 : State) (info : Info), Clear (.lnch f) info f s →
    let x := s.me.scalar f.a
    let w := { s.who s.me (BitVec.ofNat 64 x.toNat) 0 with own := true }
    x.toNat % 64 = 0 →
    (∀ st va, s.checkRecord s.myPart s.me.core w x.toNat = .bad st va s1 →
      Completes (.lnch f) s ((s1.hwAsked.notify s.myPart 0x48 (BitVec.ofNat 64 va)).setScalar f.d (BitVec.ofNat 64 st)))
    ∧ (∀ rb ts, s.checkRecord s.myPart s.me.core w x.toNat = .ok rb ts s1 →
      let s2 := s1.hwAsked
      (∀ k < 64, (∀ j < k, ((s2.part s.myPart).slots.get? j).isSome = true) → (s2.part s.myPart).slots.get? k = none →
        Completes (.lnch f) s (({ s2.modPart s.myPart fun q => { q with
          slots := q.slots.set k (newLaunch rb ts x.toNat s2.order) } with order := s2.order + 1 } : State).setScalar f.d
            (BitVec.ofNat 64 (k * 2 ^ 16))))
      ∧ ((∀ j < 64, ((s2.part s.myPart).slots.get? j).isSome = true) → Completes (.lnch f) s (s2.setScalar f.d 5)))
    ∧ (s.checkRecord s.myPart s.me.core w x.toNat = .wait s1 →
      exec (.lnch f) s = .next { s.keepAsks s1 with
        me := s.me.waitOn (if s.launchGated x.toNat then .inbound else .answer) s.time }))
  ∧ (∀ (p slot : Nat) (s s1 : State) (l : Launch) (k : Nat) (ts : List TeamRec), (s.part p).slots.get? slot = some l →
    (∀ o ∈ (s.part p).slots, o.2.order < l.order → s.bindable p o.2 = .no) → s.bindable p l = .yes k ts s1 →
    exec (.cohortBind p slot) s = .next (s1.hwAsked.bindCohort p slot l k ts))
  ∧ (∀ s : State, let t := s.subject
    let x := s.team t
    x.state = .bound ∨ x.state = .awarded → s.firstFor t = true →
    (∀ r s1, (if x.state = .awarded then s.idly (·.templateOf t) else s.templateOf t) = .ok r s1 →
      let placed := s1.placeTeam t r (if x.steward then 0 else x.index / max 1 ((s.part x.part).slots.get x.slot {}).teams)
      (∀ s2, placed = some s2 → (s.core x.core).power = .on → exec .teamPlacement s = .next (s2.hwAsked.placed t))
      ∧ (∀ s2, placed = some s2 → (s.core x.core).power ≠ .on →
        exec .teamPlacement s = .next ((s.keepAsks s1).hwAsked.wakeIsland x.core))
      ∧ (placed = none → exec .teamPlacement s = .next (s.keepAsks s1).hwAsked)))

/-- 02/R20, R25, 08/R126, R138, 10/R170, 14/R227, 21/R335: a group leaves once its window is empty, and the last one ends its
team; the end of the oldest team is reported, and O rises when that report lands; reports land in the ring, or the steward is
told once that they cannot; a pending trap is taken; failed batches of an exited group are reported. So each of these five steps
completes: `groupExit` for a group whose last instruction has committed, which is gone after it; `teamEndReport` for a marked
oldest team, whose report is queued; `trapReportLanding` for a pending report with room in a ring that can be written;
`trapEntry` for a signalled trap, which stops the group or enters its handler; `batchFailureReport` for an exited group with a
failed batch. -/
def Obligations.EndsAndReports : Prop :=
  (∀ s : State, (s.group s.subject).status = .exiting → (s.group s.subject).win = [] →
    let t := (s.group s.subject).team
    let s1 := s.leaveGroup s.subject
    exec .groupExit s = .next (if (s1.team t).ngroups ≤ (s1.team t).exited.length then s1.finishTeam t 0 else s1))
  ∧ (∀ (p slot tval : Nat) (s : State) (l : Launch), (s.part p).slots.get? slot = some l → l.marked.get? l.oldest = some tval →
    l.told = false →
    let s1 := s.notify p 0x45 (BitVec.ofNat 64 tval) { team := l.oldest, launch := l.addr, ends := some slot }
    exec (.teamEndReport p slot) s = .next (s1.modPart p fun x => { x with slots := x.slots.set slot { l with told := true } }))
  ∧ (∀ (s s1 : State) (r : Report) (rest : List Report), let x := s.part s.subject
    x.reports = r :: rest → x.trbase ≠ 0 → x.trmark - x.trtail < x.trsize →
    s.hwWrite s.subject noCore { va := 0, source := 7 } (x.trbase + 64 * (x.trmark % x.trsize)) r.bytes = .ok () s1 →
    let s2 := s1.hwAsked.modPart s.subject fun q => { q with reports := rest, trmark := q.trmark + 1, notice := false }
    (r.ends = none → exec .trapReportLanding s = .next s2)
    ∧ (∀ slot l, r.ends = some slot → (s2.part s.subject).slots.get? slot = some l →
      exec .trapReportLanding s = .next (s2.modPart s.subject fun x => { x with
        slots := if l.grid * l.teams ≤ l.oldest + 1 then x.slots.erase slot
          else x.slots.set slot { l with oldest := l.oldest + 1, marked := l.marked.erase l.oldest, told := false } })))
  ∧ (∀ (s s1 : State) (r : Report) (rest : List Report) (va : Nat), let x := s.part s.subject
    x.reports = r :: rest → x.trbase ≠ 0 → x.trmark - x.trtail < x.trsize → x.notice = false →
    let a := x.trbase + 64 * (x.trmark % x.trsize)
    s.hwWrite s.subject noCore { va := 0, source := 7 } a r.bytes = .fail va s1 →
    exec .trapReportLanding s = .next (s1.hwAsked.modPart s.subject fun q => { q with
      notice := true, strap := { tcause := 0x4E, tval := BitVec.ofNat 64 a }, msi := q.msi ++ [0] }))
  ∧ (∀ (s : State) (t : Trap), (s.group s.subject).pend = some t → s.inEngine s.subject = false →
    (∀ a, (s.group s.subject).asked = some a → a.fetch = true ∨ a.again = true) → s.released (s.group s.subject) = false →
    let s1 := s.withdrawBar s.subject
    let x := s1.group s.subject
    let pc := match x.win with | e :: _ => e.pc | [] => x.pc
    exec .trapEntry s = .next ((s1.setGroup s.subject { x with
      pc, pend := none, npr := if t.kind = 21 then none else x.npr }).takeTrap s.subject t))
  ∧ (∀ (s : State) (x : Group) (va : Word), s.others.get? s.subject = some x → x.status = .absent → x.sealed = [] →
    x.batch.failed = some va → x.batch.waited = false → x.batch.copies = 0 →
    exec .batchFailureReport s = .next (let s1 := s.notify (corePart x.core) 0x44 va { x.ident with tlm := 0x40, depth := 0 }
      { s1 with others := s1.others.erase s.subject }))
  ∧ (∀ (s : State) (x : Group), s.group? s.subject = some x → x.status = .exiting → x.win = [] →
    (∀ a ∈ (s.team x.team).latch, a.gid ≠ s.subject) →
    ∃ t, exec .groupExit s = .next t ∧ (t.group s.subject).status = .absent ∧ t.mem = s.mem)
  ∧ (∀ (p slot tval : Nat) (s : State) (l : Launch), (s.part p).slots.get? slot = some l → l.marked.get? l.oldest = some tval →
    l.told = false → ∃ t, exec (.teamEndReport p slot) s = .next t ∧ t.groups = s.groups ∧ t.mem = s.mem
      ∧ (t.part p).slots.get? slot = some { l with told := true }
      ∧ ∃ r ∈ (t.part p).reports, r.tcause = 0x45 ∧ r.tval = BitVec.ofNat 64 tval ∧ r.team = l.oldest ∧ r.launch = l.addr)
  ∧ (∀ (s s1 : State) (r : Report) (rest : List Report), let x := s.part s.subject
    x.reports = r :: rest → x.trbase ≠ 0 → x.trmark - x.trtail < x.trsize →
    s.hwWrite s.subject noCore { va := 0, source := 7 } (x.trbase + 64 * (x.trmark % x.trsize)) r.bytes = .ok () s1 →
    ∃ t, exec .trapReportLanding s = .next t ∧ (t.part s.subject).reports = rest
      ∧ (t.part s.subject).trmark = (s1.part s.subject).trmark + 1 ∧ t.mem = s1.mem)
  ∧ (∀ (s : State) (x : Group) (tr : Trap), s.group? s.subject = some x → x.status ≠ .absent → x.pend = some tr →
    s.inEngine s.subject = false → x.asked = none → x.bargen = none →
    ∃ t y, exec .trapEntry s = .next t ∧ t.group? s.subject = some y ∧ y.pend = none
      ∧ (x.toSteward (s.team x.team).steward tr.kind = true → y.status = .stopped)
      ∧ (x.toSteward (s.team x.team).steward tr.kind = false → y.depth = true ∧ y.pc = x.tvec.setWidth 52
        ∧ y.tcause = causeWord tr 1 false ∧ y.tval = tr.tval ∧ y.tlm = tr.tlm.setWidth 64))
  ∧ (∀ (s : State) (x : Group) (va : Word), s.others.get? s.subject = some x → x.status = .absent → x.batch.failed = some va →
    x.batch.waited = false → ∃ t, exec .batchFailureReport s = .next t ∧ t.mem = s.mem
      ∧ ∃ r ∈ (t.part (corePart x.core)).reports, r.tcause = 0x44 ∧ r.tval = va ∧ r.tlm = 0x40 ∧ r.depth = 0)

/-! ### Tenders (20/R317-R322, 22/R343-R352, 24/R364-R366) -/

/-- 20/R317-R322, 22/R343-R352, 24/R364-R366: `bidf` sets the formula; `tndr` queues its team, answers the status word once it
is there, traps where it asks for that, or waits its turn; `tacc` reads a team's record; the steps of a round: announcement,
sample, close, award, answer. That a withdrawal counts for benching when the award arrives, of a winner held in reset when the arbiter
learns of it, is log 37 (DEDUCED), and what a bid's inputs
R and D are where the event gives none is log 43 (DESIGN CHOICE). -/
def Obligations.Tenders : Prop :=
  (∀ (f : Form) (s s1 : State) (info : Info) (bs : List Byte) (fm : Formula), Clear (.bidf f) info f s →
    let x := s.me.scalar f.a + f.imm
    x.toNat % 64 = 0 → x.toNat < 2 ^ 52 → (s.part s.myPart).tender = none → s.me.splits.any (·.acq) = false →
    loadBytes (.bidf f) s x 64 (List.range 64) false = .ok (bs, s1) → formulaOf bs = some fm →
    Completes (.bidf f) s (s1.modPart s1.myPart fun p => { p with formula := some fm }))
  ∧ (∀ (f : Form) (s : State) (info : Info), Clear (.bidf f) info f s →
    let x := s.me.scalar f.a + f.imm
    x.toNat % 64 = 0 → x.toNat < 2 ^ 52 →
    ((s.part s.myPart).tender ≠ none ∨ s.me.splits.any (·.acq) = true → Waits (.bidf f) s .formula)
    ∧ ((s.part s.myPart).tender = none → s.me.splits.any (·.acq) = false →
      (∀ bs s1, loadBytes (.bidf f) s x 64 (List.range 64) false = .ok (bs, s1) → formulaOf bs = none →
        ∃ t, Traps (.bidf f) s t ∧ t.kind = 6)
      ∧ (loadBytes (.bidf f) s x 64 (List.range 64) false = .error (.wait .inbound) → Waits (.bidf f) s .image)
      ∧ (∀ w, w ≠ .inbound → loadBytes (.bidf f) s x 64 (List.range 64) false = .error (.wait w) → Waits (.bidf f) s .formula)
      ∧ (∀ w s1, loadBytes (.bidf f) s x 64 (List.range 64) false = .error (.held w s1) →
        exec (.bidf f) s = .next { s1 with me := s1.me.waitOn .formula s1.time })))
  ∧ (∀ (f : Form) (s : State) (info : Info) (w : Word), Clear (.tndr f) info f s → (s.me.scalar f.a).toNat < 2 ^ 22 →
    s.me.tres = some w → (f.imm2.getLsbD 16 = false ∨ (w.toNat % 256 ≠ 1 ∧ w.toNat % 256 ≠ 2)) →
    Completes (.tndr f) s (({ s with me := { s.me with tres := none } } : State).setScalar f.d w))
  ∧ (∀ (f : Form) (s : State) (info : Info) (w : Word), Clear (.tndr f) info f s → (s.me.scalar f.a).toNat < 2 ^ 22 →
    s.me.tres = some w → f.imm2.getLsbD 16 = true → w.toNat % 256 = 1 ∨ w.toNat % 256 = 2 →
    ∃ t, exec (.tndr f) s = .next (({ s with me := { s.me with tres := none } } : State).counted.takeTrap s.meId t)
      ∧ t.kind = 20 ∧ t.tval = w ∧ t.tlm = 0)
  ∧ (∀ (f : Form) (s : State) (info : Info), Clear (.tndr f) info f s → (s.me.scalar f.a).toNat < 2 ^ 22 →
    let v := (s.me.scalar f.a).toNat
    let slot := v / 2 ^ 16 % 64
    let team := v % 2 ^ 16
    let x := s.part s.myPart
    let queued : Prop := (∃ t, x.tender = some t ∧ t.gid = s.meId) ∨ ∃ t ∈ x.waiting, t.gid = s.meId
    s.me.tres = none →
    (queued → Waits (.tndr f) s .tender)
    ∧ (¬ queued → s.badTask s.myPart slot team = true → Completes (.tndr f) s (s.setScalar f.d 3))
    ∧ (¬ queued → s.badTask s.myPart slot team = false →
      ((x.slots.get slot {}).oldest + 255 < team → Waits (.tndr f) s .reorder)
      ∧ (team ≤ (x.slots.get slot {}).oldest + 255 →
        (f.imm = 0 → f.imm2.getLsbD 16 = false → Completes (.tndr f) s (s.setScalar f.d 1))
        ∧ (f.imm = 0 → f.imm2.getLsbD 16 = true → ∃ t, Traps (.tndr f) s t ∧ t.kind = 20 ∧ t.tval = 1 ∧ t.tlm = 0)
        ∧ (f.imm ≠ 0 → 16 ≤ x.waiting.length → Waits (.tndr f) s .tender)
        ∧ (f.imm ≠ 0 → x.waiting.length < 16 →
          let since := if s.me.wait = some .reorder then s.me.waited else s.time
          let t : Tender := { gid := s.meId, since := (since, s.me.index), slot, team, mask := f.imm, win := f.imm2.toNat % 0x2000 }
          exec (.tndr f) s = .next { s.modPart s.myPart fun x => { x with waiting := queueTender t x.waiting } with
            me := s.me.waitOn .tender s.time }))))
  ∧ (∀ (f : Form) (s : State) (info : Info), Clear (.tacc f) info f s → (s.me.scalar f.a).toNat < 2 ^ 22 →
    let v := (s.me.scalar f.a).toNat
    Completes (.tacc f) s (s.setScalar f.d (s.taccWord s.myPart (v / 2 ^ 16 % 64) (v % 2 ^ 16))))
  ∧ ∀ s : State, let p := s.subject
    let x := s.part p
    (∀ t rest, x.tender = none → x.waiting = t :: rest → s.formulaWaits p = false → exec .tenderAnnounce s = .next (s.modPart p fun x =>
      { x with tender := some { t with round := some s.time }, waiting := rest, reconf := false }))
    ∧ (x.tender = none → s.formulaWaits p = true → exec .tenderAnnounce s = .next s)
    ∧ (∀ q t a l fm rd, (s.part q).tender = some t → t.round = some a → (s.part q).slots.get? t.slot = some l →
      (s.part q).formula = some fm → t.sampled = false → a + 6 ≤ s.time →
      let bids : List Bid := ((List.range 64).filter fun i => t.mask.getLsbD i).filterMap fun i =>
        let c := partCore q i
        let seen := (rd.find? fun (z : Nat × Nat × Nat) => z.1 == c).map (·.2)
        s.bidOf fm l c (s.present l t.team c (seen.map (·.1))) (s.distance l t.team c (seen.map (·.2)))
      exec (.bidSample q rd) s = .next ((bids.foldl (fun (s : State) b => s.modCore b.core fun k =>
        { k with reserved := some t.slot }) { s with free := s.free + 1 }).modPart q fun x =>
          { x with tender := some { t with sampled := true, bids } }))
    ∧ (∀ t a, x.tender = some t → t.round = some a → t.sampled = true → t.award = none → a + t.win ≤ s.time →
      (winner t.bids x.pointer = none → exec .tenderWindowClose s = .next (s.endTender p t 1 0 0))
      ∧ ∀ b tie, winner t.bids x.pointer = some (b, tie) → exec .tenderWindowClose s =
        .next { (s.unreserve p (some b.core)).modPart p fun x => { x with
          tender := some { t with award := some b, bound := some s.order }, pointer := if tie then b.core + 1 else x.pointer } with
          order := s.order + 1 })
    ∧ (∀ t a b l, x.tender = some t → t.round = some a → t.award = some b → t.answer = none →
      x.slots.get? t.slot = some l → a + t.win + 3 ≤ s.time →
      let out := s.mustWithdraw p l b
      let mute := (s.core b.core).inReset
      let s1 := s.modPart p fun x => { x with tender := some { t with answer := some (!out, s.time), mute } }
      exec .awardArrival s = .next (if out && !mute then (s1.unreserve p none).withdrew b.core else s1))
    ∧ (∀ t, (s.core s.subject).benched = some t → t + 1100000 ≤ s.time →
      exec .benchExpiry s = .next (s.modCore s.subject fun k => { k with benched := none }))
    ∧ (∀ t b at_, x.tender = some t → t.award = some b → t.answer = some (false, at_) → at_ + 3 ≤ s.time →
      ∃ r, exec .withdrawalArrival s = .next r ∧ (∃ y ∈ (r.part p).reports, y.tcause = 0x46 ∧ y.tval = BitVec.ofNat 64 b.core)
        ∧ (t.wdraws < 2 → ∃ u, (r.part p).tender = some u ∧ u.wdraws = t.wdraws + 1 ∧ u.wdcore = b.core ∧ u.round = some s.time
          ∧ u.award = none ∧ u.bound = none ∧ ∀ i < 64, u.mask.getLsbD i = (t.mask.getLsbD i && partCore p i != b.core))
        ∧ (2 ≤ t.wdraws → (r.part p).tender = none))
    ∧ (∀ t b at_ l, x.tender = some t → t.award = some b → t.answer = some (true, at_) → x.slots.get? t.slot = some l →
      at_ + 7 ≤ s.time → ∃ r s1 : State, exec .acceptanceArrival s = .next (r.tryPlace s.nextId) ∧ s1 = s.endTender p t 0 b.bid b.core
        ∧ r.nextId = s1.nextId + 2 ∧ (r.team s.nextId).core = b.core ∧ (r.team s.nextId).state = .awarded
        ∧ (r.team s.nextId).index = t.team ∧ (r.team s.nextId).slot = t.slot
        ∧ (r.team s.nextId).order = t.bound.getD s1.order ∧ r.groups = s1.groups ∧ r.parts = s1.parts)

/-! ### Memory layer, host and module (26/R383-R390, 21/R327-R329, 28) -/

/-- 26/R383-R390: refresh and alerts keep a bank busy; scrubs correct, count and log; a failing beat is sent again up to three times,
2 cycles apart, and then tests its bus; an exchange moves a page granule by granule, each step once nothing that reached the old
place waits there and the banks are free, and replaces the leaf last (R384); a remap step takes a new map where the partition stands
still, and waits with its groups stopped where it does not (R385, R386). Whether a refresh is postponed and which retry succeeds are
free values (log 5); when retries run and what an exchange waits for, and
that an alert carries out the refreshes that have been postponed, are log 38, and what a remap step and the pass to full service wait for
are logs 39 and 62. -/
def Obligations.MemoryHardware : Prop :=
  (∀ (p b : Nat) (s : State), (s.bank p b).due + 4290 ≤ s.time → exec (.bankRefresh p b) s = .next (({ s with free := s.free + 1 } : State).modBank p b fun k =>
    if k.postponed < 8 ∧ (Config.freeWord s.free 0).getLsbD 0 = true then { k with due := s.time, postponed := k.postponed + 1 }
    else { k with due := s.time, busy := max k.busy s.time + 209 }))
  ∧ (∀ (p b : Nat) (s : State), (s.bank p b).busy ≤ s.time →
    exec (.refreshComplete p b) s = .next (s.modBank p b fun k => { k with busy := 0, alert := false }))
  ∧ (∀ (p b : Nat) (s : State), (s.bank p b).busy ≤ s.time → 0 < (s.bank p b).postponed → exec (.postponedRefresh p b) s =
    .next (s.modBank p b fun k => { k with postponed := k.postponed - 1, busy := s.time + 209 }))
  ∧ (∀ (p b : Nat) (s : State), ∃ t, exec (.activationAlert p b) s = .next t ∧ s.time < (t.bank p b).busy
    ∧ (s.bank p b).busy ≤ (t.bank p b).busy ∧ (t.bank p b).postponed ≤ (s.bank p b).postponed ∧ t.mem = s.mem)
  ∧ (∀ (p la syms b n : Nat) (s : State), s.bankAt la = some (p, b) → s.bankBusy la = false →
    let s1 := (s.damageColumn la syms).modPart p fun x => if (p + 1) * 2 ^ 34 - 64 ≤ la
      then { x with patrolAt := s.time, patrolCol := 0 } else { x with patrolCol := max x.patrolCol (la / 64 + 1) }
    (∀ w, s1.meetBeat la w = none) → s1.damaged.get? (la / 64) = some n →
    exec (.patrolScrub p la syms) s = .next (if n ≤ 3 then s1.correct p b (la / 64) n { va := 0, source := 5 }
      else s1.logArray p (64 * (la / 64)) 3 b n { va := 0, source := 5 }))
  ∧ (∀ (c off bits : Nat) (s : State), exec (.sramScrub c off bits) s =
    .next (if bits = 1 then s.modPart (corePart c) fun x => { x with sramcorr := x.sramcorr + 1 } else s))
  ∧ (∀ (p bus grp la : Nat) (s : State), (s.bus p bus).testing = none → (s.bus p bus).resend = none →
    exec (.beatParityFail p bus grp la) s = .next (s.modBus p bus fun b => { b with
      resend := some (s.time + 2, { col := la / 64, group := grp, retries := 0 }, (s.group? s.subject).map s.groupReport) }))
  ∧ (∀ (p bus grp la t : Nat) (e : Beat) (who : Option Report) (s : State), (s.bus p bus).testing = none →
    (s.bus p bus).resend = some (t, e, who) →
    let e1 := { e with retries := e.retries + 1 }
    (s.time < t → exec (.beatParityFail p bus grp la) s = .next s)
    ∧ (t ≤ s.time → ∃ r, exec (.beatParityFail p bus grp la) s = .next r ∧ r.mem = s.mem ∧ r.free = s.free + 1
      ∧ (r.bus p bus).failed = (s.bus p bus).failed
      ∧ ((Config.freeWord s.free 0).getLsbD 0 = true →
        (r.bus p bus).resend = none ∧ (r.bus p bus).testing = none ∧ (r.bus p bus).last = some s.time)
      ∧ ((Config.freeWord s.free 0).getLsbD 0 = false → e.retries + 1 < 3 →
        (r.bus p bus).resend = some (s.time + 2, e1, who) ∧ (r.bus p bus).testing = none)
      ∧ ((Config.freeWord s.free 0).getLsbD 0 = false → 3 ≤ e.retries + 1 →
        (r.bus p bus).resend = none ∧ (r.bus p bus).testing = some (s.time, e1, who))))
  ∧ (∀ (p bus t : Nat) (e : Beat) (who : Option Report) (line : Option Nat) (again : Bool) (s : State),
    (s.bus p bus).testing = some (t, e, who) → t + 2200 ≤ s.time →
    ∃ r, exec (.busLineTest p bus line again) s = .next r ∧ (r.bus p bus).testing = none ∧ r.mem = s.mem
      ∧ ((line = none ∨ (s.bus p bus).spares = 0) → (r.bus p bus).failed = (s.bus p bus).failed ++ [e])
      ∧ (∀ n, line = some n → n / 32 ≠ e.group → (r.bus p bus).failed = (s.bus p bus).failed ++ [e])
      ∧ (∀ n, line = some n → n / 32 = e.group → 0 < (s.bus p bus).spares → (r.bus p bus).spares = (s.bus p bus).spares - 1
        ∧ (again = false → (r.bus p bus).failed = (s.bus p bus).failed)
        ∧ (again = true → (r.bus p bus).failed =
          (s.bus p bus).failed ++ [{ e with line := n, spare := 8 - (s.bus p bus).spares }])))
  ∧ (∀ (p va la : Nat) (s : State), (s.part p).exch = none → exec (.pageExchange p va la) s = .next (s.startExchange p va la))
  ∧ (∀ (p va la : Nat) (s : State) (e : Exchange), (s.part p).exch = some e →
    (s.exchWaits p e = true → exec (.pageExchange p va la) s = .next s)
    ∧ (s.exchWaits p e = false → e.size ≤ 64 * e.done → exec (.pageExchange p va la) s = .next (s.endExchange p e))
    ∧ (s.exchWaits p e = false → 64 * e.done < e.size →
      exec (.pageExchange p va la) s =
        .next ((s.moveGranule e).modPart p fun x => { x with exch := some { e with done := e.done + 1 } })))
  ∧ (∀ (p : Nat) (map : Word) (s : State), 64 - (s.part p).rsv ≤ onBits map →
    (s.drained p = true → ∃ t, exec (.remapStep p map) s = .next t ∧ (t.part p).bankmap = map ∧ (t.part p).remapTo = none)
    ∧ (s.drained p = false → exec (.remapStep p map) s = .next (s.modPart p fun x => { x with remapTo := some map })))

/-- 18/R302, 21/R327-R329, 28/R405-R411: the host's writes and reads of its windows, which one link delivers in order: one that waits
holds those behind it; a write to the inbound window lands after the CONS writes of its cycle; the descriptors of the inbound queues,
the control page, the signal page, and the start and end of a partition's work. What START, RESTART and STOP clear and keep, and that
accesses are held in a reconfiguration, are the model's choices of logs 39 and 15. -/
def Obligations.HostSide : Prop :=
  (∀ (p off : Nat) (bs : List Byte) (s : State), s.hostQs.get (p / 24) [] = [] →
    exec (.hostRingWrite p off bs) s = .next { s with
      hostQs := (s.hostQs.erase (p / 24)).set (p / 24) [(p, .ring off bs s.time)] })
  ∧ (∀ (p off since : Nat) (b : Byte) (s : State), 0x1000 ≤ off → off < 0x1_0000 → s.standsDown p = false → since < s.time →
    s.hostQs.get (p / 24) [] = [(p, .ring off [b] since)] →
    let s1 : State := { s with hostQs := s.hostQs.erase (p / 24) }
    ((s.part p).ringAt off = none → s.hostDrain (p / 24) [] = s1.modPart p fun x => { x with ring := x.ring.set off b })
    ∧ (∀ n q q', (s.part p).ringAt off = some (n, q) → q.land (off - q.base) = some q' → s.hostDrain (p / 24) [] =
      (s1.modPart p fun x => { x with ring := x.ring.set off b }).modQueue p n fun _ => q')
    ∧ (∀ n q, (s.part p).ringAt off = some (n, q) → q.land (off - q.base) = none → s.hostDrain (p / 24) [] =
      (s1.modQueue p n fun q => { q with drop := q.drop + 1, ovf := true }).notify p 0x47 (BitVec.ofNat 64 off) { team := n }))
  ∧ (∀ (p q : Nat) (x : Word) (s : State), ∃ t, exec (.descriptorControlStore p q x) s = .next t ∧
    let old := (s.part p).queues.get q {}
    let new := (t.part p).queues.get q {}
    (old.on = false → new.size = x.toNat % 2 ^ 32) ∧ (old.on = true → new.size = old.size)
    ∧ (x.toNat / 2 ^ 32 % 256 = 0 → new.on = false) ∧ (x.getLsbD 40 = true → new.ovf = false)
    ∧ (x.toNat / 2 ^ 32 % 256 = 1 → old.on = false → (s.part p).queueOk q { old with ovf := new.ovf, size := new.size } = true →
      new.on = true ∧ new.mark = 0 ∧ new.cons = 0 ∧ new.drop = 0))
  ∧ (∀ (p q : Nat) (x : Word) (s : State), ∃ t, exec (.consWrite p q x) s = .next t ∧
    let old := (s.part p).queues.get q {}
    ((t.part p).queues.get q {}).cons = if x.toNat % 64 = 0 ∧ old.cons ≤ x.toNat ∧ x.toNat ≤ old.mark then x.toNat else old.cons)
  ∧ (∀ (p q off : Nat) (x : Word) (s : State), exec (.descriptorWrite p q off x) s =
    .next (s.modQueue p q fun d => if off = 0 ∧ d.on = false then { d with base := x.toNat } else d))
  ∧ (∀ (p off : Nat) (bs : List Byte) (s : State), let la := p * 2 ^ 34 + off
    s.hostQs.get (p / 24) [] = [] →
    (s.standsDown p = true ∨ s.rangeBusy la bs.length = true → exec (.hostWindowWrite p off bs) s =
      .next { s with hostQs := (s.hostQs.erase (p / 24)).set (p / 24) [(p, .write off bs)] })
    ∧ (s.standsDown p = false → s.windowOk p off bs.length = true → s.rangeBusy la bs.length = false → (∀ o < bs.length, s.located (la + o) = la + o
      ∧ s.damaged.get? ((la + o) / 64) = none ∧ s.coded s.zPages (la + o) = false) → (∀ c w, s.meetBeat c w = none) →
    ∃ t, exec (.hostWindowWrite p off bs) s = .next t ∧ t.groups = s.groups ∧ ∀ a, Memory.read t.mem a =
      if la ≤ a ∧ a < la + bs.length then bs.getD (a - la) 0 else Memory.read s.mem a))
  ∧ (∀ (p off n : Nat) (s : State), let la := p * 2 ^ 34 + off
    let s1 : State := { s with hostQs := s.hostQs.erase (p / 24) }
    s.hostQs.get (p / 24) [] = [] →
    (s.standsDown p = true ∨ s.rangeBusy la n = true → exec (.hostWindowRead p off n) s =
      .next { s with hostQs := s1.hostQs.set (p / 24) [(p, .read off n)] })
    ∧ (s.standsDown p = false → s.windowOk p off n = false → s.rangeBusy la n = false →
      exec (.hostWindowRead p off n) s = .next { s1 with outbox := s.outbox ++ [.hostData p off .unsupported []] })
    ∧ (s.standsDown p = false → s.windowOk p off n = true → s.rangeBusy la n = false → (∀ o < n, s.located (la + o) = la + o
      ∧ s.damaged.get? ((la + o) / 64) = none ∧ s.codeOf (la + o) = 0 ∧ ∀ w, s.meetBeat (64 * ((la + o) / 64)) w = none) →
      exec (.hostWindowRead p off n) s =
        .next { s1 with outbox := s.outbox ++ [.hostData p off .success (Memory.readN s.mem la n)] }))
  ∧ (∀ (p q : Nat) (r r' : HostReq) (s : State), p / 24 = q / 24 → s.hostQs.get (q / 24) [] = [(p, r)] → s.hostWaits p r = true →
    s.hostSend q r' = { s with hostQs := (s.hostQs.erase (q / 24)).set (q / 24) [(p, r), (q, r')] })
  ∧ (∀ (p off : Nat) (x : Word) (s : State), let idle := (s.part p).state = 0 ∨ (s.part p).state = 4
    (idle → off = 0x00 → exec (.controlPageWrite p off x) s = .next (s.modPart p fun y => { y with stewrec := x.toNat }))
    ∧ (idle → off = 0x08 → exec (.controlPageWrite p off x) s = .next (s.modPart p fun y => { y with root := x.toNat }))
    ∧ (idle → off = 0x18 → exec (.controlPageWrite p off x) s = .next (s.modPart p fun y => { y with winva := x.toNat }))
    ∧ (idle → off = 0x20 → exec (.controlPageWrite p off x) s = .next (s.modPart p fun y => { y with logva := x.toNat }))
    ∧ (idle → off = 0x28 → exec (.controlPageWrite p off x) s = .next (s.modPart p fun y => { y with sigva := x.toNat }))
    ∧ (¬ idle → off < 0x30 → exec (.controlPageWrite p off x) s = .next s)
    ∧ (off = 0x30 → exec (.controlPageWrite p off x) s = .next (if 1 ≤ x.toNat % 2 ^ 32 ∧ x.toNat % 2 ^ 32 ≤ 100
      then s.modPart p fun y => { y with cto := x.toNat % 2 ^ 32 } else s)))
  ∧ (∀ (p : Nat) (x : Word) (s : State), exec (.signalPageStore p x) s =
    .next (if x.toNat % 8 = 0 then s else s.modPart p fun y => { y with msi := y.msi ++ [x.toNat % 8] }))
  ∧ (∀ i ∈ [Instr.stop, .functionLevelReset], ∀ s : State, ∃ t, exec i s = .next t ∧ (t.part s.subject).state = 0
    ∧ (∀ g ∈ t.groups, corePart g.2.core ≠ s.subject) ∧ (∀ x ∈ t.teams, x.2.part ≠ s.subject) ∧ (t.part s.subject).slots = []
    ∧ (t.part s.subject).reports = [] ∧ t.mem = s.mem)
  ∧ (∀ s : State, let p := s.subject
    let s1 := (s.quit p).invalidatePart p 0 (2 ^ 52)
    (s.part p).state = 0 ∨ (s.part p).state = 4 →
    (∀ va, s1.startBusy p = false → s1.startAddress p = some va → ∃ t, exec .start s = .next t ∧ (t.part p).state = 4 ∧ (t.part p).strap.tcause = 0x48
      ∧ (t.part p).strap.tval = BitVec.ofNat 64 va)
    ∧ (exec .start s = .next ((s1.modPart p fun x => { x with
        state := 1, begun := false, service := s1.serviceNow p, cap := serviceCap (s1.serviceNow p), remaps := 0, cpages := []
        banks := x.banks.update fun _ k => { k with slots := [] } }).startSteward p)))
  ∧ (∀ s : State, let p := s.subject
    let old := s.teams.filter fun t => t.2.part == p && t.2.steward
    (s.part p).state = 2 ∨ (s.part p).state = 3 → exec .restart s =
      .next (((old.foldl (fun s t => s.endTeam t.1 1) s).modPart p fun x => { x with
        state := 1, begun := true, cmds := [] }).startSteward p))

/-- 17/R269, 18/R278, R279, 28/R401-R404, R407, R413, R414: requests of other modules, flits received and sent, answers and their
time limits, the messages of a port that goes down, which stay with it where no other port has room, the drain of an idle combining
buffer, cluster reset, the end of calibration, module reset, and the mailboxes' answers.
The numbers in the mailboxes' answers are log 40 (PRESUMED); the port that the ninth failure takes down, and what is acknowledged, are
log 41 (DEDUCED); what a reset, the pass to full service and a module reset keep and wait for are logs 39 and 62. -/
def Obligations.ModuleEvents : Prop :=
  (∀ (r : HomeReq) (s : State), (s.bankAt r.la).isSome = true →
    let source := match r.op with | .read _ | .gather _ | .write _ => 0 | _ => 3
    (s.waitsAtHome s.inbox r = true → exec (.homeRequest r) s = .next { s with inbox := s.inbox ++ [r] })
    ∧ (s.waitsAtHome s.inbox r = false →
      (∀ bs s1, (∃ n, r.op = .read n) ∨ (∃ o, r.op = .gather o) → s.sharesModule r.module r.la (homeSpan r.op) = true →
        s.applyHome r.la { va := 0, source } r.op = .ok (bs, s1) → exec (.homeRequest r) s = .next (s1.reply r true bs))
      ∧ ((∃ n, r.op = .read n) ∨ (∃ o, r.op = .gather o) → s.sharesModule r.module r.la (homeSpan r.op) = false →
        exec (.homeRequest r) s = .next ((s.refuse r.la).reply r false []))
      ∧ ((∀ n, r.op ≠ .read n) → (∀ o, r.op ≠ .gather o) →
        let kept (ok : Bool) (bs : List Byte) : Retry :=
          { module := r.module, part := r.part, group := r.group, home := r.la, seq := r.seq, ok, reply := bs }
        let keep (t : State) (ok : Bool) (bs : List Byte) : State := { t with retries := t.retries ++ [kept ok bs] }
        (∀ x, (s.retries.find? fun x => x.holds r) = some x → exec (.homeRequest r) s = .next (s.reply r x.ok x.reply))
        ∧ ((s.retries.find? fun x => x.holds r) = none →
          (s.sharesModule r.module r.la (homeSpan r.op) = false →
            exec (.homeRequest r) s = .next ((keep (s.refuse r.la) false []).reply r false []))
          ∧ (∀ bs s1, s.sharesModule r.module r.la (homeSpan r.op) = true →
            s.applyHome r.la { va := 0, source } r.op = .ok (bs, s1) →
            exec (.homeRequest r) s = .next ((keep s1 true bs).reply r true bs))))))
  ∧ (∀ (f : Flit) (s : State), let k := s.ports.get f.port {}
    k.up = true →
    (f.crcGood = true → f.seq = k.expect → exec (.flitReceive f) s =
      .next (((s.modPort f.port fun k => { k with expect := (k.expect + 1) % 2 ^ 32, resent := 0 }).ackFlit f.port f.seq true).deliver f.load))
    ∧ (f.crcGood = false → k.resent < 8 → exec (.flitReceive f) s =
      .next ((s.modPort f.port fun k => { k with resent := k.resent + 1 }).ackFlit f.port k.expect false))
    ∧ (f.crcGood = false → 8 ≤ k.resent → exec (.flitReceive f) s = .next (s.portDown f.port k.buffer)))
  ∧ (∀ (k m : Nat) (s : State), let x := s.ports.get k {}
    (s.routeOf m).contains k = true → x.buffer.length < 4096 → ((∀ k' n, Outgoing.flit k' n m ∉ s.outbox) ∨ s.stranded m = true) →
      s.sendFlit k m = { (s.unstrand m).modPort k fun x => { x with next := (x.next + 1) % 2 ^ 32, buffer := x.buffer ++ [(x.next, m)] } with
        outbox := s.outbox ++ [.flit k x.next m] })
  ∧ (∀ (k seq m : Nat) (before after : List (Nat × Nat)) (s : State), let x := s.ports.get k {}
    x.up = true → x.buffer = before ++ (seq, m) :: after → (∀ e ∈ before, e.1 ≠ seq) →
    s.flitHeard k seq true = s.modPort k (fun x => { x with buffer := after, fails := 0 })
    ∧ ((if before = [] then x.fails else 0) < 8 → s.flitHeard k seq false =
      { s.modPort k (fun y => { y with buffer := (seq, m) :: after, fails := (if before = [] then x.fails else 0) + 1 }) with
        outbox := s.outbox ++ ((seq, m) :: after).map fun f => .flit k f.1 f.2 })
    ∧ (before = [] → 8 ≤ x.fails → s.flitHeard k seq false = s.portDown k ((seq, m) :: after)
      ∧ ((s.flitHeard k seq false).ports.get k {}).up = false))
  ∧ (∀ (k : Nat) (left : List (Nat × Nat)) (s : State),
    (∀ e ∈ left, ∀ j, (s.routeOf e.2).contains j = true → j ≠ k → 4096 ≤ (s.ports.get j {}).buffer.length) →
    s.portDown k left = s.modPort k fun x => { x with up := false, buffer := left, fails := 0 })
  ∧ (∀ (g seq : Nat) (ok : Bool) (bs : List Byte) (s : State) (a : Asked), (s.group? g).isSome = true →
    (s.group g).asked = some a → a.seq = seq → a.answer = none → (a.due = 0 ∨ s.time < a.due) → ∃ t, exec (.deviceCompletion g seq ok bs) s = .next t
      ∧ (t.group g).asked = some { a with answer := some (ok, bs) } ∧ t.mem = s.mem)
  ∧ (∀ r ∈ [(Instr.remoteTimeout, true), (.deviceCompletionTimeout, false)], ∀ (s : State) (a : Asked), s.subject ≠ 0 →
    (s.group? s.subject).isSome = true → (s.group s.subject).asked = some a → a.due ≠ 0 → a.due ≤ s.time → a.answer = none →
    (s.outbox.any fun o => match o with | .remote h q .. => h == s.subject && q == a.seq | _ => false) = r.2 →
    ∃ t, exec r.1 s = .next t ∧ (t.group s.subject).asked = some { a with answer := some (false, []) } ∧ t.mem = s.mem)
  ∧ (∀ s : State, (∀ l ∈ (s.group s.subject).wc, l.last + 1100 ≤ s.time) → (s.group s.subject).wc ≠ [] →
    exec .wcIdleDrain s = .next (s.drainWc s.subject))
  ∧ (∀ (cl : Nat) (retire : Bool) (s : State), (s.cluster cl).reset = none → cl < 384 → ∃ t, exec (.clusterReset cl retire) s = .next t
    ∧ (t.cluster cl).reset.isSome = true ∧ (t.cluster cl).retiring = retire ∧ ∀ j < 8, (t.core (8 * cl + j)).inReset = true)
  ∧ (∀ s : State, let cl := s.subject
    let p := corePart (8 * cl)
    (s.cluster cl).reset.isSome = true → ∃ t, exec .clusterResetDone s = .next t ∧ (t.cluster cl).reset = none
      ∧ (∀ j < 8, (t.core (8 * cl + j)).inReset = false
        ∧ (t.core (8 * cl + j)).retired = ((s.core (8 * cl + j)).retired || (s.cluster cl).retiring))
      ∧ ∃ r ∈ (t.part p).reports, r.tcause = 0x4D ∧ r.tval = BitVec.ofNat 64 (cl + (s.cluster cl).retiring.toNat * 2 ^ 16))
  ∧ (∀ s : State, ∃ t, exec .calibrationEnd s = .next t ∧ t.calib.get s.subject false = true ∧ ∀ p, p / 4 = s.subject →
    (s.part p).service = 1 → s.drained p = true → (t.part p).service = 2 ∧ (t.part p).cap = 7)
  ∧ (∀ (b : Boot) (s : State), ∃ t, exec (.moduleReset b) s = .next t ∧ t.mem = s.mem ∧ t.damaged = s.damaged ∧ t.teams = []
    ∧ t.groups = [] ∧ t.cores = [] ∧ (∀ p, (t.part p).state = 0 ∧ (t.part p).bankmap = (s.part p).bankmap)
    ∧ (b.loaderGood = true → t.measured.get 1 0 = b.loader ∧ (b.firmGood = true → t.measured.get 2 0 = b.firmware))
    ∧ t.measured.get 3 0 = b.config)
  ∧ (∀ s : State, exec .getVersion s = .next { s with doe := s.doe ++ [.version s.subject 1 3] }
    ∧ exec .getCapabilities s = .next { s with doe := s.doe ++ [.capabilities s.subject [0, 1, 2, 3, 4, 5, 6]] }
    ∧ (∀ fn offer, exec (.negotiateAlgorithms fn offer) s = .next { s with doe := s.doe ++ [.algorithms fn (offer.contains 0)] })
    ∧ exec .getDigests s = .next { s with doe := s.doe ++ [.digests s.subject [0] (sha384 (Config.identityChain 0))] }
    ∧ (∀ fn slot, exec (.getCertificate fn slot) s = .next { s with
      doe := s.doe ++ [if slot = 0 then .certificate fn slot (Config.identityChain 0) else .error fn] })
    ∧ (∀ fn slot nonce, exec (.challenge fn slot nonce) s = .next { s with
      doe := s.doe ++ [if slot = 0 then .challenge fn slot nonce (Config.identitySign slot nonce) else .error fn] })
    ∧ (∀ fn index, let ms := (s.reported fn).filter fun m => index == 0xFF || m.1 == index
      exec (.getMeasurements fn index) s = .next { s with
        doe := s.doe ++ [if ms.isEmpty then .error fn else .measurements fn ms] }))

/-! ### Issue, decoding and the machine as a whole -/

/-- An instruction that is not well formed is illegal, with its first word in `tval` (05/R83, 08/R128). -/
def Sys2Proof.Claims.IllFormedTraps : Prop :=
  ∀ (i : Instr) (s : State) (info : Info) (f : Form), i.row = some (info, f) → s.me.win = [] → i.wellFormed = false →
    ∃ t, Traps i s t ∧ t.kind = 6 ∧ t.tval = BitVec.ofNat 64 (encode i % 2 ^ 32)

/-- Instructions whose own effect never traps. -/
def Sys2Proof.Claims.quiet : List (Form → Instr) :=
  [.nop, .pmov, .pand, .por, .pget, .pset, .mov, .add, .sub, .mul, .div, .and, .or, .xor, .shl, .shr, .cmp, .sel, .clz, .popc]

/-- 02/R31, R32, 04/R62, R68, 05/R83, 08/R128, R130: the traps of issue in their rank: every instruction of the opcode rows that is not
well formed and a reserved opcode are illegal, whatever the role, with the first word in `tval` (that `tlm` is `em` for a reserved
opcode is the model's choice of log 52); then, for samples of every family, the role, with the opcode; then the first register of a
block not held; a misaligned literal target stops an instruction that would complete. -/
def Obligations.IssueChecks : Prop :=
  IllFormedTraps
  ∧ (∀ mk ∈ quiet, ∀ (f : Form) (s : State) (info : Info) (x : Word), (mk f).row = some (info, f) →
    issueCheck (mk f) info f false s = .ok () → badTarget (mk f) s.me = some x →
    ∃ t, Traps (mk f) s t ∧ t.kind = 7 ∧ t.tval = x)
  ∧ (∀ (w : BitVec 32) (s : State), s.me.win = [] → ∃ t, Traps (.reservedOpcode w) s t ∧ t.kind = 6 ∧ t.tval = w.setWidth 64
    ∧ t.tlm = s.me.em)
  ∧ ∀ mk ∈ [Instr.add, .sub, .mul, .cmp, .vaddInt, .vaddFp, .vfma, .ld, .st, .mma, .cpy, .bar, .nbld, .mapc, .tret], ∀ (f : Form) (s : State)
    (info : Info), (mk f).row = some (info, f) → s.me.win = [] → badTarget (mk f) s.me = none →
    (mk f).wellFormed = true → (info.steward = true → s.myTeam.steward = true) → (s.part s.myPart).service ≠ 1 →
    (info.roles.permits s.me.role = false → ∃ t, Traps (mk f) s t ∧ t.kind = 11 ∧ t.tval = BitVec.ofNat 64 info.op)
    ∧ (info.roles.permits s.me.role = true → ∀ n, ((namedVectors info f).find? fun n => !s.me.holds (n / 8)) = some n →
      ∃ t, Traps (mk f) s t ∧ t.kind = 8 ∧ t.tval = BitVec.ofNat 64 n)

/-- 02/R18, R20, R21, 04/R67, 08/R131: where a completed instruction goes on, by its NX: the next word, a loop's head while its
count is above 1, a target, both paths of a divergence, the link register, the end of the group. -/
def Obligations.NextAddress : Prop :=
  (∀ (g : Group) (n : Nat), let next := g.pc + BitVec.ofNat 52 n
    g.advance .seq n = .ok { g with pc := next }
    ∧ g.advance .yield n = .ok { g with pc := next, yielded := true }
    ∧ (∀ off, g.advance (.jump off) n = .ok { g with pc := g.pc + off.setWidth 52 })
    ∧ (∀ off, g.advance (.call off) n = .ok { g with pc := g.pc + off.setWidth 52, sregs := g.sregs.set 63 (next.setWidth 64) })
    ∧ ((g.sreg 63).toNat % 4 = 0 → g.advance .ret n = .ok { g with pc := (g.sreg 63).setWidth 52 })
    ∧ g.advance .exit n = .ok { g with status := .exiting, rstack := [], lstack := [] }
    ∧ (g.lstack = [] → g.advance .loop n = .error .emptyLoop)
    ∧ (∀ e es, g.lstack = e :: es → g.advance .loop n = .ok (if 1 < e.count.toNat
      then { g with pc := e.head, lstack := { e with count := e.count - 1 } :: es } else { g with pc := next, lstack := es }))
    ∧ ∀ neg cp target join, let p := if neg then ~~~g.pred cp.toNat else g.pred cp.toNat
      (g.em &&& ~~~p = 0 → g.advance (.cond neg cp target join) n = .ok { g with pc := g.pc + target.signExtend 52 * 4 })
      ∧ (g.em &&& ~~~p ≠ 0 → g.em &&& p = 0 → g.advance (.cond neg cp target join) n = .ok { g with pc := next })
      ∧ (g.em &&& ~~~p ≠ 0 → g.em &&& p ≠ 0 → g.rstack.length < (if g.depth then 8 else 32) →
        g.advance (.cond neg cp target join) n = .ok { g with
          rstack := { join := g.pc + join.signExtend 52 * 4, resume := next, pmask := g.em &&& ~~~p, emd := g.em, fmc := g.fm
                      ldep := g.lstack.length, phase := false } :: g.rstack
          em := g.em &&& p, pc := g.pc + target.signExtend 52 * 4 })
      ∧ (g.em &&& ~~~p ≠ 0 → g.em &&& p ≠ 0 → (if g.depth then 8 else 32) ≤ g.rstack.length →
        g.advance (.cond neg cp target join) n = .error (.overflow (if g.depth then 2 else 0))))
  ∧ (∀ (s : State) (e : REntry) (es : List REntry), s.me.rstack = e :: es → e.join = s.me.pc → s.me.lstack.length = e.ldep →
    (e.phase = false → exec .joinArrival s = .next { s with me := { s.me with
      rstack := { e with phase := true } :: es, em := e.pmask, fm := e.fmc, pc := e.resume } })
    ∧ (e.phase = true → exec .joinArrival s = .next { s with me := { s.me with
      rstack := es, em := e.emd, fm := e.fmc, pc := e.join } }))
  ∧ (∀ (s : State) (e : REntry) (es : List REntry), s.me.rstack = e :: es → e.join = s.me.pc → s.me.lstack.length ≠ e.ldep →
    ∃ t, exec .joinArrival s = .next (s.takeTrap s.meId t) ∧ t.kind = 6 ∧ t.tval = s.me.pc.setWidth 64 ∧ t.op = 0)

/-- The scalar, predicate, mask, format and flag instructions. -/
def Sys2Proof.Claims.registerOnly : List (Form → Instr) :=
  [.nop, .lps, .pmov, .pand, .por, .pxor, .pandn, .pnot, .pget, .pset, .emget, .emset, .fmt, .fmtRnd, .fmtAb, .fmtFtz, .fmtCbs
    , .fmtTrp, .fmrd, .ffget, .ffclr, .mov, .add, .sub, .mul, .mulh, .mulhu, .div, .divu, .rem, .remu, .and, .or, .xor, .andn, .shl
    , .shr, .sra, .rol, .min, .max, .minu, .maxu, .cmp, .sel, .clz, .ctz, .popc, .sxt, .zxt, .trr, .trw, .npr, .epr, .qfree]

/-- What an instruction that only works on registers leaves as it was. Whether it completes, waits or traps: every byte of main
memory, every DRAM error, the culverts, the cohorts, the clusters, what has left the module, the time, the ports and the shares. Where
it neither traps nor ends its group, everything but the group itself: other groups, teams, cores, partitions, retry records among it. -/
def Obligations.RegisterOnlyFrame : Prop :=
  ∀ mk ∈ registerOnly, ∀ (f : Form) (s t : State), exec (mk f) s = .next t →
    t.mem = s.mem ∧ t.damaged = s.damaged ∧ t.culverts = s.culverts ∧ t.cohorts = s.cohorts ∧ t.clusters = s.clusters
    ∧ t.outbox = s.outbox ∧ t.time = s.time ∧ t.ports = s.ports ∧ t.shares = s.shares
    ∧ (t.me.status = .running → t.me.depth = s.me.depth → t = { s with me := t.me })

/-- 04/R56-R67: words written out from the encoding decode to the instruction they stand for, a few of every length: base words,
base words with a literal (an immediate, a condition block, a target), extended forms with a predicate, a type, an immediate, a
sub-function, and a form with both an extension and a literal; a reserved opcode; reserved specifiers and codes are rejected. -/
def Obligations.DecodeWords : Prop :=
  decodeBits 0 = .ok (.nop Form.blank)
  ∧ decodeBits (0x11 * 2 ^ 5 + 0x55 * 2 ^ 13 + 0x2A * 2 ^ 20 + 0x2B * 2 ^ 26)
    = .ok (.add { Form.blank with d := 0x95, a := 0x91, b := 0x92 })
  ∧ decodeBits (2 + 0x10 * 2 ^ 5 + 0x59 * 2 ^ 13 + 0x30 * 2 ^ 20 + 0x1234_5678_9ABC_DEF0 * 2 ^ 32)
    = .ok (.mov { Form.blank with len := .lit, d := 0x99, a := 0x89, imm := 0x1234_5678_9ABC_DEF0 })
  ∧ decodeBits (2 + 3 * 2 ^ 2 + (9 + 7 * 2 ^ 30 + 5 * 2 ^ 60 + 2 ^ 63) * 2 ^ 32)
    = .ok (.nop { Form.blank with len := .lit, nx := .cond true 5 7 9 })
  ∧ decodeBits (2 + 4 * 2 ^ 2 + 0x40 * 2 ^ 32) = .ok (.nop { Form.blank with len := .lit, nx := .call 0x40 })
  ∧ decodeBits (1 + 0x50 * 2 ^ 5 + 2 * 2 ^ 27 + 2 ^ 30 + 2 ^ 31 + 3 * 2 ^ 32 + 4 * 2 ^ 40 + 0x85 * 2 ^ 48)
    = .ok (.vaddFp { Form.blank with len := .ext, pred := some { neg := true, pn := 2 }, d := 3, a := 4, b := 0x85 })
  ∧ decodeBits (1 + 0x18 * 2 ^ 5 + 2 * 2 ^ 21 + 3 * 2 ^ 32 + 0x90 * 2 ^ 40 + 0xF5 * 2 ^ 48)
    = .ok (.cmp { Form.blank with len := .ext, fn := 2, d := 3, a := 0x90, b := 0xF5 })
  ∧ decodeBits (1 + 0x11 * 2 ^ 5 + 0x3F * 2 ^ 13 + 0x90 * 2 ^ 32 + 0x91 * 2 ^ 40 + 0x89 * 2 ^ 48 + 0xFFFF * 2 ^ 80)
    = .ok (.add { Form.blank with len := .ext, d := 0x90, a := 0x91, b := 0x89, imm := BitVec.ofInt 64 (-1) })
  ∧ decodeBits (3 + 2 * 2 ^ 2 + 0x10 * 2 ^ 5 + 0x92 * 2 ^ 32 + 0x93 * 2 ^ 40 + 5 * 2 ^ 80 + 77 * 2 ^ 96)
    = .ok (.mov { Form.blank with len := .extLit, nx := .jump 20, d := 0x92, a := 0x93, imm := 77 })
  ∧ decodeBits (0x08 * 2 ^ 5) = .ok (.reservedOpcode 0x100)
  ∧ decodeBits (0x11 * 2 ^ 5 + 0x49 * 2 ^ 13 + 0x2A * 2 ^ 20 + 0x2B * 2 ^ 26) = .error .badOperand
  ∧ decodeBits (2 * 2 ^ 2) = .error .badNext

/-- 04/R56-R68: every well-formed instruction of the opcode rows, with every operand at every value that its encoding admits,
decodes from its own words. -/
def Obligations.DecodeEncode : Prop :=
  ∀ i : Instr, i.wellFormed = true → (i.row.isSome = true ∨ ∃ w, i = .reservedOpcode w) → decodeBits (encode i) = .ok i

/-- A step runs the decoded instruction, on the state that the fetch leaves: for a group that the agenda lets run, which is its core's next
issuer; and, with nothing due, for the next issuer of the cycle. The step notes its port. Either has nothing uncommitted and stands at
no join, no older group's instruction commits first, and no step at the latch comes before it; nor has the cycle closed. -/
def Obligations.StepRunsDecoded : Prop :=
  (∀ (s s1 t : State) (g w : Nat) (port : Option Nat) (rest : List Act) (i : Instr), s.agenda = .run g :: rest →
    let s0 : State := { s with agenda := rest }
    let c := (s.group g).core
    s0.committer (· == c) = none → s0.issuerOn (· == c) = some (g, port) → s0.gangFirst g port false = false →
    (s0.turn g).me.win = [] → (s0.turn g).me.join = none → (s0.turn g).fetch = .word w s1 → decodeBits w = .ok i →
    exec i s1 = .next t → step s = .next (s0.noteIssue t g port))
  ∧ (∀ (s s1 t : State) (g w : Nat) (port : Option Nat) (i : Instr), s.agenda = [] → s.dueStep = none → s.judgeStep = none →
    s.closed = false → (s.committer fun _ => true) = none → s.issuer = some (g, port) → s.gangFirst g port false = false → (s.turn g).me.win = [] →
    (s.turn g).me.join = none → (s.turn g).fetch = .word w s1 → decodeBits w = .ok i → exec i s1 = .next t →
    step s = .next (s.noteIssue t g port))

/-- Every step keeps the canonical form of main memory. -/
def Obligations.StepKeepsMemoryForm : Prop :=
  ∀ s t : State, State.Inv s → step s = .next t → State.Inv t

/-- The state after reset meets the invariant, and holds the values that the spec gives: no group, no team, no partition at
work (28/R408), its completion timeout 10 ms, its level cap 7 (23/R357), all 64 banks live and 32 MiB of stripes (26/R374, R385). That
TRSIZE is 64 and TRBASE, TRMARK and TRTAIL are 0 is the model's choice of log 4 (DESIGN CHOICE), for the spec gives them no reset
value. -/
def Obligations.ResetState : Prop :=
  State.Inv State.reset ∧ State.reset.groups = [] ∧ State.reset.teams = [] ∧ ∀ p,
    let x := State.reset.part p
    x.state = 0 ∧ x.cto = 10 ∧ x.trbase = 0 ∧ x.trsize = 64 ∧ x.trmark = 0 ∧ x.trtail = 0 ∧ x.cap = 7
    ∧ x.bankmap = BitVec.allOnes 64 ∧ x.spool = 2 ^ 25 ∧ x.tender = none ∧ x.formula = none ∧ x.slots = []
end

