-- ==== Sys2Proof/Laws/Dispatch.lean ====
section
/-!
SUPPORT. The meaning that each instruction is dispatched to.
-/

namespace Sys2Proof.Machine

open Sys2Proof

@[simp] theorem exec_nop f (s : State) : exec (.nop f) s = execNop f s := rfl
@[simp] theorem exec_lps f (s : State) : exec (.lps f) s = execLps f s := rfl
@[simp] theorem exec_pmov f (s : State) : exec (.pmov f) s = execPmov f s := rfl
@[simp] theorem exec_pand f (s : State) : exec (.pand f) s = execPand f s := rfl
@[simp] theorem exec_por f (s : State) : exec (.por f) s = execPor f s := rfl
@[simp] theorem exec_pxor f (s : State) : exec (.pxor f) s = execPxor f s := rfl
@[simp] theorem exec_pandn f (s : State) : exec (.pandn f) s = execPandn f s := rfl
@[simp] theorem exec_pnot f (s : State) : exec (.pnot f) s = execPnot f s := rfl
@[simp] theorem exec_pget f (s : State) : exec (.pget f) s = execPget f s := rfl
@[simp] theorem exec_pset f (s : State) : exec (.pset f) s = execPset f s := rfl
@[simp] theorem exec_emget f (s : State) : exec (.emget f) s = execEmget f s := rfl
@[simp] theorem exec_emset f (s : State) : exec (.emset f) s = execEmset f s := rfl
@[simp] theorem exec_fmt f (s : State) : exec (.fmt f) s = execFmt f s := rfl
@[simp] theorem exec_fmtRnd f (s : State) : exec (.fmtRnd f) s = execFmtRnd f s := rfl
@[simp] theorem exec_fmtAb f (s : State) : exec (.fmtAb f) s = execFmtAb f s := rfl
@[simp] theorem exec_fmtFtz f (s : State) : exec (.fmtFtz f) s = execFmtFtz f s := rfl
@[simp] theorem exec_fmtCbs f (s : State) : exec (.fmtCbs f) s = execFmtCbs f s := rfl
@[simp] theorem exec_fmtTrp f (s : State) : exec (.fmtTrp f) s = execFmtTrp f s := rfl
@[simp] theorem exec_fmrd f (s : State) : exec (.fmrd f) s = execFmrd f s := rfl
@[simp] theorem exec_ffget f (s : State) : exec (.ffget f) s = execFfget f s := rfl
@[simp] theorem exec_ffclr f (s : State) : exec (.ffclr f) s = execFfclr f s := rfl
@[simp] theorem exec_mov f (s : State) : exec (.mov f) s = execMov f s := rfl
@[simp] theorem exec_add f (s : State) : exec (.add f) s = execAdd f s := rfl
@[simp] theorem exec_sub f (s : State) : exec (.sub f) s = execSub f s := rfl
@[simp] theorem exec_mul f (s : State) : exec (.mul f) s = execMul f s := rfl
@[simp] theorem exec_mulh f (s : State) : exec (.mulh f) s = execMulh f s := rfl
@[simp] theorem exec_mulhu f (s : State) : exec (.mulhu f) s = execMulhu f s := rfl
@[simp] theorem exec_div f (s : State) : exec (.div f) s = execDiv f s := rfl
@[simp] theorem exec_divu f (s : State) : exec (.divu f) s = execDivu f s := rfl
@[simp] theorem exec_rem f (s : State) : exec (.rem f) s = execRem f s := rfl
@[simp] theorem exec_remu f (s : State) : exec (.remu f) s = execRemu f s := rfl
@[simp] theorem exec_and f (s : State) : exec (.and f) s = execAnd f s := rfl
@[simp] theorem exec_or f (s : State) : exec (.or f) s = execOr f s := rfl
@[simp] theorem exec_xor f (s : State) : exec (.xor f) s = execXor f s := rfl
@[simp] theorem exec_andn f (s : State) : exec (.andn f) s = execAndn f s := rfl
@[simp] theorem exec_shl f (s : State) : exec (.shl f) s = execShl f s := rfl
@[simp] theorem exec_shr f (s : State) : exec (.shr f) s = execShr f s := rfl
@[simp] theorem exec_sra f (s : State) : exec (.sra f) s = execSra f s := rfl
@[simp] theorem exec_rol f (s : State) : exec (.rol f) s = execRol f s := rfl
@[simp] theorem exec_min f (s : State) : exec (.min f) s = execMin f s := rfl
@[simp] theorem exec_max f (s : State) : exec (.max f) s = execMax f s := rfl
@[simp] theorem exec_minu f (s : State) : exec (.minu f) s = execMinu f s := rfl
@[simp] theorem exec_maxu f (s : State) : exec (.maxu f) s = execMaxu f s := rfl
@[simp] theorem exec_cmp f (s : State) : exec (.cmp f) s = execCmp f s := rfl
@[simp] theorem exec_sel f (s : State) : exec (.sel f) s = execSel f s := rfl
@[simp] theorem exec_clz f (s : State) : exec (.clz f) s = execClz f s := rfl
@[simp] theorem exec_ctz f (s : State) : exec (.ctz f) s = execCtz f s := rfl
@[simp] theorem exec_popc f (s : State) : exec (.popc f) s = execPopc f s := rfl
@[simp] theorem exec_sxt f (s : State) : exec (.sxt f) s = execSxt f s := rfl
@[simp] theorem exec_zxt f (s : State) : exec (.zxt f) s = execZxt f s := rfl
@[simp] theorem exec_vget f (s : State) : exec (.vget f) s = execVget f s := rfl
@[simp] theorem exec_vmov f (s : State) : exec (.vmov f) s = execVmov f s := rfl
@[simp] theorem exec_vaddInt f (s : State) : exec (.vaddInt f) s = execVaddInt f s := rfl
@[simp] theorem exec_vsubInt f (s : State) : exec (.vsubInt f) s = execVsubInt f s := rfl
@[simp] theorem exec_vmulInt f (s : State) : exec (.vmulInt f) s = execVmulInt f s := rfl
@[simp] theorem exec_vmulh f (s : State) : exec (.vmulh f) s = execVmulh f s := rfl
@[simp] theorem exec_vmad f (s : State) : exec (.vmad f) s = execVmad f s := rfl
@[simp] theorem exec_vand f (s : State) : exec (.vand f) s = execVand f s := rfl
@[simp] theorem exec_vor f (s : State) : exec (.vor f) s = execVor f s := rfl
@[simp] theorem exec_vxor f (s : State) : exec (.vxor f) s = execVxor f s := rfl
@[simp] theorem exec_vandn f (s : State) : exec (.vandn f) s = execVandn f s := rfl
@[simp] theorem exec_vshl f (s : State) : exec (.vshl f) s = execVshl f s := rfl
@[simp] theorem exec_vshr f (s : State) : exec (.vshr f) s = execVshr f s := rfl
@[simp] theorem exec_vsra f (s : State) : exec (.vsra f) s = execVsra f s := rfl
@[simp] theorem exec_vminInt f (s : State) : exec (.vminInt f) s = execVminInt f s := rfl
@[simp] theorem exec_vmaxInt f (s : State) : exec (.vmaxInt f) s = execVmaxInt f s := rfl
@[simp] theorem exec_vcmpInt f (s : State) : exec (.vcmpInt f) s = execVcmpInt f s := rfl
@[simp] theorem exec_vcmppInt f (s : State) : exec (.vcmppInt f) s = execVcmppInt f s := rfl
@[simp] theorem exec_vsel f (s : State) : exec (.vsel f) s = execVsel f s := rfl
@[simp] theorem exec_vshflIdx f (s : State) : exec (.vshflIdx f) s = execVshflIdx f s := rfl
@[simp] theorem exec_vshflUp f (s : State) : exec (.vshflUp f) s = execVshflUp f s := rfl
@[simp] theorem exec_vshflDn f (s : State) : exec (.vshflDn f) s = execVshflDn f s := rfl
@[simp] theorem exec_vshflXor f (s : State) : exec (.vshflXor f) s = execVshflXor f s := rfl
@[simp] theorem exec_vshflBc f (s : State) : exec (.vshflBc f) s = execVshflBc f s := rfl
@[simp] theorem exec_qswz f (s : State) : exec (.qswz f) s = execQswz f s := rfl
@[simp] theorem exec_vpack f (s : State) : exec (.vpack f) s = execVpack f s := rfl
@[simp] theorem exec_vunpack f (s : State) : exec (.vunpack f) s = execVunpack f s := rfl
@[simp] theorem exec_vclz f (s : State) : exec (.vclz f) s = execVclz f s := rfl
@[simp] theorem exec_vpopc f (s : State) : exec (.vpopc f) s = execVpopc f s := rfl
@[simp] theorem exec_vsclget f (s : State) : exec (.vsclget f) s = execVsclget f s := rfl
@[simp] theorem exec_vsclset f (s : State) : exec (.vsclset f) s = execVsclset f s := rfl
@[simp] theorem exec_vaddFp f (s : State) : exec (.vaddFp f) s = execVaddFp f s := rfl
@[simp] theorem exec_vsubFp f (s : State) : exec (.vsubFp f) s = execVsubFp f s := rfl
@[simp] theorem exec_vmulFp f (s : State) : exec (.vmulFp f) s = execVmulFp f s := rfl
@[simp] theorem exec_vfma f (s : State) : exec (.vfma f) s = execVfma f s := rfl
@[simp] theorem exec_vminFp f (s : State) : exec (.vminFp f) s = execVminFp f s := rfl
@[simp] theorem exec_vmaxFp f (s : State) : exec (.vmaxFp f) s = execVmaxFp f s := rfl
@[simp] theorem exec_vcmpFp f (s : State) : exec (.vcmpFp f) s = execVcmpFp f s := rfl
@[simp] theorem exec_vcmppFp f (s : State) : exec (.vcmppFp f) s = execVcmppFp f s := rfl
@[simp] theorem exec_vabs f (s : State) : exec (.vabs f) s = execVabs f s := rfl
@[simp] theorem exec_vneg f (s : State) : exec (.vneg f) s = execVneg f s := rfl
@[simp] theorem exec_vcpsgn f (s : State) : exec (.vcpsgn f) s = execVcpsgn f s := rfl
@[simp] theorem exec_vrcp f (s : State) : exec (.vrcp f) s = execVrcp f s := rfl
@[simp] theorem exec_vrsq f (s : State) : exec (.vrsq f) s = execVrsq f s := rfl
@[simp] theorem exec_vsqrt f (s : State) : exec (.vsqrt f) s = execVsqrt f s := rfl
@[simp] theorem exec_vexp2 f (s : State) : exec (.vexp2 f) s = execVexp2 f s := rfl
@[simp] theorem exec_vlog2 f (s : State) : exec (.vlog2 f) s = execVlog2 f s := rfl
@[simp] theorem exec_vsin f (s : State) : exec (.vsin f) s = execVsin f s := rfl
@[simp] theorem exec_vcos f (s : State) : exec (.vcos f) s = execVcos f s := rfl
@[simp] theorem exec_vredAdd f (s : State) : exec (.vredAdd f) s = execVredAdd f s := rfl
@[simp] theorem exec_vredMin f (s : State) : exec (.vredMin f) s = execVredMin f s := rfl
@[simp] theorem exec_vredMax f (s : State) : exec (.vredMax f) s = execVredMax f s := rfl
@[simp] theorem exec_vcvt f (s : State) : exec (.vcvt f) s = execVcvt f s := rfl
@[simp] theorem exec_vseed f (s : State) : exec (.vseed f) s = execVseed f s := rfl
@[simp] theorem exec_vdot2 f (s : State) : exec (.vdot2 f) s = execVdot2 f s := rfl
@[simp] theorem exec_vdot4 f (s : State) : exec (.vdot4 f) s = execVdot4 f s := rfl
@[simp] theorem exec_vdot8 f (s : State) : exec (.vdot8 f) s = execVdot8 f s := rfl
@[simp] theorem exec_vrint f (s : State) : exec (.vrint f) s = execVrint f s := rfl
@[simp] theorem exec_cbld f (s : State) : exec (.cbld f) s = execCbld f s := rfl
@[simp] theorem exec_plc f (s : State) : exec (.plc f) s = execPlc f s := rfl
@[simp] theorem exec_qfree f (s : State) : exec (.qfree f) s = execQfree f s := rfl
@[simp] theorem exec_xchg f (s : State) : exec (.xchg f) s = execXchg f s := rfl
@[simp] theorem exec_pgr f (s : State) : exec (.pgr f) s = execPgr f s := rfl
@[simp] theorem exec_mma f (s : State) : exec (.mma f) s = execMma f s := rfl
@[simp] theorem exec_mmaSw f (s : State) : exec (.mmaSw f) s = execMmaSw f s := rfl
@[simp] theorem exec_mzero f (s : State) : exec (.mzero f) s = execMzero f s := rfl
@[simp] theorem exec_mzeroSw f (s : State) : exec (.mzeroSw f) s = execMzeroSw f s := rfl
@[simp] theorem exec_mdr f (s : State) : exec (.mdr f) s = execMdr f s := rfl
@[simp] theorem exec_mdrSp f (s : State) : exec (.mdrSp f) s = execMdrSp f s := rfl
@[simp] theorem exec_sdrDiff f (s : State) : exec (.sdrDiff f) s = execSdrDiff f s := rfl
@[simp] theorem exec_sdrRatio f (s : State) : exec (.sdrRatio f) s = execSdrRatio f s := rfl
@[simp] theorem exec_sdrAgree f (s : State) : exec (.sdrAgree f) s = execSdrAgree f s := rfl
@[simp] theorem exec_agset f (s : State) : exec (.agset f) s = execAgset f s := rfl
@[simp] theorem exec_gang f (s : State) : exec (.gang f) s = execGang f s := rfl
@[simp] theorem exec_racq f (s : State) : exec (.racq f) s = execRacq f s := rfl
@[simp] theorem exec_rrel f (s : State) : exec (.rrel f) s = execRrel f s := rfl
@[simp] theorem exec_rcfg f (s : State) : exec (.rcfg f) s = execRcfg f s := rfl
@[simp] theorem exec_cpy f (s : State) : exec (.cpy f) s = execCpy f s := rfl
@[simp] theorem exec_cpg f (s : State) : exec (.cpg f) s = execCpg f s := rfl
@[simp] theorem exec_cpm f (s : State) : exec (.cpm f) s = execCpm f s := rfl
@[simp] theorem exec_cseal f (s : State) : exec (.cseal f) s = execCseal f s := rfl
@[simp] theorem exec_cwait f (s : State) : exec (.cwait f) s = execCwait f s := rfl
@[simp] theorem exec_wmrdMark f (s : State) : exec (.wmrdMark f) s = execWmrdMark f s := rfl
@[simp] theorem exec_wmrdState f (s : State) : exec (.wmrdState f) s = execWmrdState f s := rfl
@[simp] theorem exec_wmrdBase f (s : State) : exec (.wmrdBase f) s = execWmrdBase f s := rfl
@[simp] theorem exec_wmrdLimit f (s : State) : exec (.wmrdLimit f) s = execWmrdLimit f s := rfl
@[simp] theorem exec_wmcfg f (s : State) : exec (.wmcfg f) s = execWmcfg f s := rfl
@[simp] theorem exec_ld f (s : State) : exec (.ld f) s = execLd f s := rfl
@[simp] theorem exec_st f (s : State) : exec (.st f) s = execSt f s := rfl
@[simp] theorem exec_ldSp f (s : State) : exec (.ldSp f) s = execLdSp f s := rfl
@[simp] theorem exec_stSp f (s : State) : exec (.stSp f) s = execStSp f s := rfl
@[simp] theorem exec_lds f (s : State) : exec (.lds f) s = execLds f s := rfl
@[simp] theorem exec_kwait f (s : State) : exec (.kwait f) s = execKwait f s := rfl
@[simp] theorem exec_atomAdd f (s : State) : exec (.atomAdd f) s = execAtomAdd f s := rfl
@[simp] theorem exec_atomMin f (s : State) : exec (.atomMin f) s = execAtomMin f s := rfl
@[simp] theorem exec_atomMax f (s : State) : exec (.atomMax f) s = execAtomMax f s := rfl
@[simp] theorem exec_atomAnd f (s : State) : exec (.atomAnd f) s = execAtomAnd f s := rfl
@[simp] theorem exec_atomOr f (s : State) : exec (.atomOr f) s = execAtomOr f s := rfl
@[simp] theorem exec_atomXor f (s : State) : exec (.atomXor f) s = execAtomXor f s := rfl
@[simp] theorem exec_atomExch f (s : State) : exec (.atomExch f) s = execAtomExch f s := rfl
@[simp] theorem exec_atomCas f (s : State) : exec (.atomCas f) s = execAtomCas f s := rfl
@[simp] theorem exec_xsum f (s : State) : exec (.xsum f) s = execXsum f s := rfl
@[simp] theorem exec_xrd f (s : State) : exec (.xrd f) s = execXrd f s := rfl
@[simp] theorem exec_xrdClr f (s : State) : exec (.xrdClr f) s = execXrdClr f s := rfl
@[simp] theorem exec_fence f (s : State) : exec (.fence f) s = execFence f s := rfl
@[simp] theorem exec_bar f (s : State) : exec (.bar f) s = execBar f s := rfl
@[simp] theorem exec_lnch f (s : State) : exec (.lnch f) s = execLnch f s := rfl
@[simp] theorem exec_tndr f (s : State) : exec (.tndr f) s = execTndr f s := rfl
@[simp] theorem exec_bidf f (s : State) : exec (.bidf f) s = execBidf f s := rfl
@[simp] theorem exec_tacc f (s : State) : exec (.tacc f) s = execTacc f s := rfl
@[simp] theorem exec_perf f (s : State) : exec (.perf f) s = execPerf f s := rfl
@[simp] theorem exec_pwrqLvl f (s : State) : exec (.pwrqLvl f) s = execPwrqLvl f s := rfl
@[simp] theorem exec_pwrqGate f (s : State) : exec (.pwrqGate f) s = execPwrqGate f s := rfl
@[simp] theorem exec_pwrqWeir f (s : State) : exec (.pwrqWeir f) s = execPwrqWeir f s := rfl
@[simp] theorem exec_pwrqTherm f (s : State) : exec (.pwrqTherm f) s = execPwrqTherm f s := rfl
@[simp] theorem exec_nbld f (s : State) : exec (.nbld f) s = execNbld f s := rfl
@[simp] theorem exec_nbfma f (s : State) : exec (.nbfma f) s = execNbfma f s := rfl
@[simp] theorem exec_nbdot f (s : State) : exec (.nbdot f) s = execNbdot f s := rfl
@[simp] theorem exec_nbst f (s : State) : exec (.nbst f) s = execNbst f s := rfl
@[simp] theorem exec_mapc f (s : State) : exec (.mapc f) s = execMapc f s := rfl
@[simp] theorem exec_unmapc f (s : State) : exec (.unmapc f) s = execUnmapc f s := rfl
@[simp] theorem exec_xinv f (s : State) : exec (.xinv f) s = execXinv f s := rfl
@[simp] theorem exec_fbsvc f (s : State) : exec (.fbsvc f) s = execFbsvc f s := rfl
@[simp] theorem exec_trap f (s : State) : exec (.trap f) s = execTrap f s := rfl
@[simp] theorem exec_tret f (s : State) : exec (.tret f) s = execTret f s := rfl
@[simp] theorem exec_trr f (s : State) : exec (.trr f) s = execTrr f s := rfl
@[simp] theorem exec_trw f (s : State) : exec (.trw f) s = execTrw f s := rfl
@[simp] theorem exec_spt f (s : State) : exec (.spt f) s = execSpt f s := rfl
@[simp] theorem exec_npr f (s : State) : exec (.npr f) s = execNpr f s := rfl
@[simp] theorem exec_epr f (s : State) : exec (.epr f) s = execEpr f s := rfl
@[simp] theorem exec_rbget f (s : State) : exec (.rbget f) s = execRbget f s := rfl
@[simp] theorem exec_rbput f (s : State) : exec (.rbput f) s = execRbput f s := rfl
@[simp] theorem exec_srr f (s : State) : exec (.srr f) s = execSrr f s := rfl
@[simp] theorem exec_srw f (s : State) : exec (.srw f) s = execSrw f s := rfl
@[simp] theorem exec_trmarkRead f (s : State) : exec (.trmarkRead f) s = execTrmarkRead f s := rfl
@[simp] theorem exec_trapRingSet f (s : State) : exec (.trapRingSet f) s = execTrapRingSet f s := rfl
@[simp] theorem exec_trtailWrite f (s : State) : exec (.trtailWrite f) s = execTrtailWrite f s := rfl
@[simp] theorem exec_sysregWrite f (s : State) : exec (.sysregWrite f) s = execSysregWrite f s := rfl
@[simp] theorem exec_preemptLight f (s : State) : exec (.preemptLight f) s = execPreemptLight f s := rfl
@[simp] theorem exec_preemptFull f (s : State) : exec (.preemptFull f) s = execPreemptFull f s := rfl
@[simp] theorem exec_restore f (s : State) : exec (.restore f) s = execRestore f s := rfl
@[simp] theorem exec_resume f (s : State) : exec (.resume f) s = execResume f s := rfl
@[simp] theorem exec_resumet f (s : State) : exec (.resumet f) s = execResumet f s := rfl
@[simp] theorem exec_endteam f (s : State) : exec (.endteam f) s = execEndteam f s := rfl
@[simp] theorem exec_cancel f (s : State) : exec (.cancel f) s = execCancel f s := rfl
@[simp] theorem exec_instructionCompletion g n (s : State) : exec (.instructionCompletion g n) s = execInstructionCompletion g n s := rfl
@[simp] theorem exec_ldsReply g n (s : State) : exec (.ldsReply g n) s = execLdsReply g n s := rfl
@[simp] theorem exec_homeRequest r (s : State) : exec (.homeRequest r) s = execHomeRequest r s := rfl
@[simp] theorem exec_teamEndReport p slot (s : State) : exec (.teamEndReport p slot) s = execTeamEndReport p slot s := rfl
@[simp] theorem exec_weirInterval cl used (s : State) : exec (.weirInterval cl used) s = execWeirInterval cl used s := rfl
@[simp] theorem exec_thermalPoll cl tclu tbase (s : State) : exec (.thermalPoll cl tclu tbase) s = execThermalPoll cl tclu tbase s := rfl
@[simp] theorem exec_droopDetected terrace ps (s : State) : exec (.droopDetected terrace ps) s = execDroopDetected terrace ps s := rfl
@[simp] theorem exec_copyLand c id n (s : State) : exec (.copyLand c id n) s = execCopyLand c id n s := rfl
@[simp] theorem exec_multicastLand c id pos n (s : State) : exec (.multicastLand c id pos n) s = execMulticastLand c id pos n s := rfl
@[simp] theorem exec_cohortBind p slot (s : State) : exec (.cohortBind p slot) s = execCohortBind p slot s := rfl
@[simp] theorem exec_hostRingWrite p off bytes (s : State) : exec (.hostRingWrite p off bytes) s = execHostRingWrite p off bytes s := rfl
@[simp] theorem exec_descriptorControlStore p q x (s : State) : exec (.descriptorControlStore p q x) s = execDescriptorControlStore p q x s := rfl
@[simp] theorem exec_consWrite p q x (s : State) : exec (.consWrite p q x) s = execConsWrite p q x s := rfl
@[simp] theorem exec_descriptorWrite p q off x (s : State) : exec (.descriptorWrite p q off x) s = execDescriptorWrite p q off x s := rfl
@[simp] theorem exec_bidSample p rd (s : State) : exec (.bidSample p rd) s = execBidSample p rd s := rfl
@[simp] theorem exec_flitReceive fl (s : State) : exec (.flitReceive fl) s = execFlitReceive fl s := rfl
@[simp] theorem exec_deviceCompletion g seq ok bytes (s : State) : exec (.deviceCompletion g seq ok bytes) s = execDeviceCompletion g seq ok bytes s := rfl
@[simp] theorem exec_clusterReset cl retire (s : State) : exec (.clusterReset cl retire) s = execClusterReset cl retire s := rfl
@[simp] theorem exec_remapStep p map (s : State) : exec (.remapStep p map) s = execRemapStep p map s := rfl
@[simp] theorem exec_pageExchange p va la (s : State) : exec (.pageExchange p va la) s = execPageExchange p va la s := rfl
@[simp] theorem exec_bankRefresh p b (s : State) : exec (.bankRefresh p b) s = execBankRefresh p b s := rfl
@[simp] theorem exec_activationAlert p b (s : State) : exec (.activationAlert p b) s = execActivationAlert p b s := rfl
@[simp] theorem exec_patrolScrub p la syms (s : State) : exec (.patrolScrub p la syms) s = execPatrolScrub p la syms s := rfl
@[simp] theorem exec_sramScrub c off bits (s : State) : exec (.sramScrub c off bits) s = execSramScrub c off bits s := rfl
@[simp] theorem exec_beatParityFail p bus grp la (s : State) : exec (.beatParityFail p bus grp la) s = execBeatParityFail p bus grp la s := rfl
@[simp] theorem exec_busLineTest p bus line again (s : State) : exec (.busLineTest p bus line again) s = execBusLineTest p bus line again s := rfl
@[simp] theorem exec_hostWindowWrite p off bytes (s : State) : exec (.hostWindowWrite p off bytes) s = execHostWindowWrite p off bytes s := rfl
@[simp] theorem exec_hostWindowRead p off n (s : State) : exec (.hostWindowRead p off n) s = execHostWindowRead p off n s := rfl
@[simp] theorem exec_controlPageWrite p off x (s : State) : exec (.controlPageWrite p off x) s = execControlPageWrite p off x s := rfl
@[simp] theorem exec_signalPageStore p x (s : State) : exec (.signalPageStore p x) s = execSignalPageStore p x s := rfl
@[simp] theorem exec_negotiateAlgorithms fn offer (s : State) : exec (.negotiateAlgorithms fn offer) s = execNegotiateAlgorithms fn offer s := rfl
@[simp] theorem exec_getCertificate fn slot (s : State) : exec (.getCertificate fn slot) s = execGetCertificate fn slot s := rfl
@[simp] theorem exec_challenge fn slot nonce (s : State) : exec (.challenge fn slot nonce) s = execChallenge fn slot nonce s := rfl
@[simp] theorem exec_getMeasurements fn index (s : State) : exec (.getMeasurements fn index) s = execGetMeasurements fn index s := rfl
@[simp] theorem exec_moduleReset boot (s : State) : exec (.moduleReset boot) s = execModuleReset boot s := rfl
@[simp] theorem exec_voltageReplan lowered (s : State) : exec (.voltageReplan lowered) s = execVoltageReplan lowered s := rfl
@[simp] theorem exec_reservedOpcode word (s : State) : exec (.reservedOpcode word) s = execReservedOpcode word s := rfl
@[simp] theorem exec_refreshComplete p b (s : State) : exec (.refreshComplete p b) s = execRefreshComplete p b s := rfl
@[simp] theorem exec_postponedRefresh p b (s : State) : exec (.postponedRefresh p b) s = execPostponedRefresh p b s := rfl
@[simp] theorem exec_joinArrival (s : State) : exec (.joinArrival) s = execJoinArrival s := rfl
@[simp] theorem exec_instructionCommit (s : State) : exec (.instructionCommit) s = execInstructionCommit s := rfl
@[simp] theorem exec_trapEntry (s : State) : exec (.trapEntry) s = execTrapEntry s := rfl
@[simp] theorem exec_trapReportLanding (s : State) : exec (.trapReportLanding) s = execTrapReportLanding s := rfl
@[simp] theorem exec_accessRestart (s : State) : exec (.accessRestart) s = execAccessRestart s := rfl
@[simp] theorem exec_culvertEntryArrival (s : State) : exec (.culvertEntryArrival) s = execCulvertEntryArrival s := rfl
@[simp] theorem exec_slotReturn (s : State) : exec (.slotReturn) s = execSlotReturn s := rfl
@[simp] theorem exec_groupExit (s : State) : exec (.groupExit) s = execGroupExit s := rfl
@[simp] theorem exec_emergencyBlockGrant (s : State) : exec (.emergencyBlockGrant) s = execEmergencyBlockGrant s := rfl
@[simp] theorem exec_heldRequestGrant (s : State) : exec (.heldRequestGrant) s = execHeldRequestGrant s := rfl
@[simp] theorem exec_gatingDischarged (s : State) : exec (.gatingDischarged) s = execGatingDischarged s := rfl
@[simp] theorem exec_holdEnd (s : State) : exec (.holdEnd) s = execHoldEnd s := rfl
@[simp] theorem exec_inrushSlot (s : State) : exec (.inrushSlot) s = execInrushSlot s := rfl
@[simp] theorem exec_wakeComplete (s : State) : exec (.wakeComplete) s = execWakeComplete s := rfl
@[simp] theorem exec_levelReached (s : State) : exec (.levelReached) s = execLevelReached s := rfl
@[simp] theorem exec_slewThrottleEnd (s : State) : exec (.slewThrottleEnd) s = execSlewThrottleEnd s := rfl
@[simp] theorem exec_nprTimeLimit (s : State) : exec (.nprTimeLimit) s = execNprTimeLimit s := rfl
@[simp] theorem exec_forcedSave (s : State) : exec (.forcedSave) s = execForcedSave s := rfl
@[simp] theorem exec_stallPreemption (s : State) : exec (.stallPreemption) s = execStallPreemption s := rfl
@[simp] theorem exec_groupFrameWrite (s : State) : exec (.groupFrameWrite) s = execGroupFrameWrite s := rfl
@[simp] theorem exec_teamSectionsWrite (s : State) : exec (.teamSectionsWrite) s = execTeamSectionsWrite s := rfl
@[simp] theorem exec_restorePlacement (s : State) : exec (.restorePlacement) s = execRestorePlacement s := rfl
@[simp] theorem exec_longWaitSwap (s : State) : exec (.longWaitSwap) s = execLongWaitSwap s := rfl
@[simp] theorem exec_yieldSwap (s : State) : exec (.yieldSwap) s = execYieldSwap s := rfl
@[simp] theorem exec_promotion (s : State) : exec (.promotion) s = execPromotion s := rfl
@[simp] theorem exec_swapComplete (s : State) : exec (.swapComplete) s = execSwapComplete s := rfl
@[simp] theorem exec_gangStepRelease (s : State) : exec (.gangStepRelease) s = execGangStepRelease s := rfl
@[simp] theorem exec_mmaStepComplete (s : State) : exec (.mmaStepComplete) s = execMmaStepComplete s := rfl
@[simp] theorem exec_batchFailureReport (s : State) : exec (.batchFailureReport) s = execBatchFailureReport s := rfl
@[simp] theorem exec_teamPlacement (s : State) : exec (.teamPlacement) s = execTeamPlacement s := rfl
@[simp] theorem exec_tenderAnnounce (s : State) : exec (.tenderAnnounce) s = execTenderAnnounce s := rfl
@[simp] theorem exec_tenderWindowClose (s : State) : exec (.tenderWindowClose) s = execTenderWindowClose s := rfl
@[simp] theorem exec_awardArrival (s : State) : exec (.awardArrival) s = execAwardArrival s := rfl
@[simp] theorem exec_benchExpiry (s : State) : exec (.benchExpiry) s = execBenchExpiry s := rfl
@[simp] theorem exec_withdrawalArrival (s : State) : exec (.withdrawalArrival) s = execWithdrawalArrival s := rfl
@[simp] theorem exec_acceptanceArrival (s : State) : exec (.acceptanceArrival) s = execAcceptanceArrival s := rfl
@[simp] theorem exec_remoteTimeout (s : State) : exec (.remoteTimeout) s = execRemoteTimeout s := rfl
@[simp] theorem exec_deviceCompletionTimeout (s : State) : exec (.deviceCompletionTimeout) s = execDeviceCompletionTimeout s := rfl
@[simp] theorem exec_wcIdleDrain (s : State) : exec (.wcIdleDrain) s = execWcIdleDrain s := rfl
@[simp] theorem exec_clusterResetDone (s : State) : exec (.clusterResetDone) s = execClusterResetDone s := rfl
@[simp] theorem exec_start (s : State) : exec (.start) s = execStart s := rfl
@[simp] theorem exec_stop (s : State) : exec (.stop) s = execStop s := rfl
@[simp] theorem exec_restart (s : State) : exec (.restart) s = execRestart s := rfl
@[simp] theorem exec_functionLevelReset (s : State) : exec (.functionLevelReset) s = execFunctionLevelReset s := rfl
@[simp] theorem exec_getVersion (s : State) : exec (.getVersion) s = execGetVersion s := rfl
@[simp] theorem exec_getCapabilities (s : State) : exec (.getCapabilities) s = execGetCapabilities s := rfl
@[simp] theorem exec_getDigests (s : State) : exec (.getDigests) s = execGetDigests s := rfl
@[simp] theorem exec_calibrationEnd (s : State) : exec (.calibrationEnd) s = execCalibrationEnd s := rfl
@[simp] theorem exec_gateCancelled (s : State) : exec (.gateCancelled) s = execGateCancelled s := rfl
@[simp] theorem exec_currentSlewExceeded (s : State) : exec (.currentSlewExceeded) s = execCurrentSlewExceeded s := rfl

end Sys2Proof.Machine
end

