-- ==== Sys2Proof/Laws/Map.lean ====
section
/-!
SUPPORT. Sparse tables: what a read gives after a write or an erasure.
-/

namespace Sys2Proof

variable {α : Type}

@[simp] theorem Map.get?_nil (k : Nat) : Map.get? ([] : Map α) k = none := rfl

@[simp] theorem Map.get_nil (k : Nat) (d : α) : Map.get ([] : Map α) k d = d := rfl

@[simp] theorem Map.get?_set_same (m : Map α) (k : Nat) (v : α) : Map.get? (Map.set m k v) k = some v := by
  induction m with
  | nil => simp [Map.set, Map.get?]
  | cons p m ih =>
    obtain ⟨j, w⟩ := p
    by_cases h1 : k = j
    · simp [Map.set, Map.get?, h1]
    · by_cases h2 : k < j
      · simp [Map.set, Map.get?, h1, h2]
      · simp [Map.set, Map.get?, h1, h2, Ne.symm h1, ih]

@[simp] theorem Map.get?_set_other (m : Map α) {k a : Nat} (v : α) (h : k ≠ a) :
    Map.get? (Map.set m k v) a = Map.get? m a := by
  induction m with
  | nil => simp [Map.set, Map.get?, h]
  | cons p m ih =>
    obtain ⟨j, w⟩ := p
    by_cases h1 : k = j
    · subst h1; simp [Map.set, Map.get?, h]
    · by_cases h2 : k < j
      · simp [Map.set, Map.get?, h1, h2, h]
      · simp [Map.set, Map.get?, h1, h2, ih]

theorem Map.get?_set (m : Map α) (k a : Nat) (v : α) :
    Map.get? (Map.set m k v) a = if k = a then some v else Map.get? m a := by
  by_cases h : k = a
  · subst h; simp
  · simp [h]

@[simp] theorem Map.get_set_same (m : Map α) (k : Nat) (v d : α) : Map.get (Map.set m k v) k d = v := by simp [Map.get]

@[simp] theorem Map.get_set_other (m : Map α) {k a : Nat} (v d : α) (h : k ≠ a) :
    Map.get (Map.set m k v) a d = Map.get m a d := by simp [Map.get, h]

theorem Map.get?_erase (m : Map α) (k a : Nat) : Map.get? (Map.erase m k) a = if k = a then none else Map.get? m a := by
  induction m with
  | nil => simp [Map.erase]
  | cons p m ih =>
    obtain ⟨j, w⟩ := p
    by_cases h1 : j = k
    · subst h1
      rw [show Map.erase ((j, w) :: m) j = Map.erase m j by simp [Map.erase], ih]
      by_cases h2 : j = a <;> simp [Map.get?, h2]
    · by_cases h2 : k = a
      · subst h2; simp [Map.erase, Map.get?, h1, ih]
      · simp [Map.erase, Map.get?, h1, h2, ih]

end Sys2Proof
end

