-- ==== Sys2Proof/Laws/State.lean ====
section
/-!
SUPPORT. What the updates of the state leave unchanged, field by field, and what the changed table holds at each key.
-/

namespace Sys2Proof.Machine

open Sys2Proof

/-! ### `modTeam` -/

@[simp] theorem State.modTeam_time (s : State) (k : Nat) (f : Team → Team) : (s.modTeam k f).time = s.time := rfl
@[simp] theorem State.modTeam_me (s : State) (k : Nat) (f : Team → Team) : (s.modTeam k f).me = s.me := rfl
@[simp] theorem State.modTeam_meId (s : State) (k : Nat) (f : Team → Team) : (s.modTeam k f).meId = s.meId := rfl
@[simp] theorem State.modTeam_others (s : State) (k : Nat) (f : Team → Team) : (s.modTeam k f).others = s.others := rfl
@[simp] theorem State.modTeam_cohorts (s : State) (k : Nat) (f : Team → Team) : (s.modTeam k f).cohorts = s.cohorts := rfl
@[simp] theorem State.modTeam_cores (s : State) (k : Nat) (f : Team → Team) : (s.modTeam k f).cores = s.cores := rfl
@[simp] theorem State.modTeam_clusters (s : State) (k : Nat) (f : Team → Team) : (s.modTeam k f).clusters = s.clusters := rfl
@[simp] theorem State.modTeam_culverts (s : State) (k : Nat) (f : Team → Team) : (s.modTeam k f).culverts = s.culverts := rfl
@[simp] theorem State.modTeam_parts (s : State) (k : Nat) (f : Team → Team) : (s.modTeam k f).parts = s.parts := rfl
@[simp] theorem State.modTeam_mem (s : State) (k : Nat) (f : Team → Team) : (s.modTeam k f).mem = s.mem := rfl
@[simp] theorem State.modTeam_damaged (s : State) (k : Nat) (f : Team → Team) : (s.modTeam k f).damaged = s.damaged := rfl
@[simp] theorem State.modTeam_codes (s : State) (k : Nat) (f : Team → Team) : (s.modTeam k f).codes = s.codes := rfl
@[simp] theorem State.modTeam_spDamage (s : State) (k : Nat) (f : Team → Team) : (s.modTeam k f).spDamage = s.spDamage := rfl
@[simp] theorem State.modTeam_retries (s : State) (k : Nat) (f : Team → Team) : (s.modTeam k f).retries = s.retries := rfl
@[simp] theorem State.modTeam_hwAsks (s : State) (k : Nat) (f : Team → Team) : (s.modTeam k f).hwAsks = s.hwAsks := rfl
@[simp] theorem State.modTeam_inbox (s : State) (k : Nat) (f : Team → Team) : (s.modTeam k f).inbox = s.inbox := rfl
@[simp] theorem State.modTeam_hostQs (s : State) (k : Nat) (f : Team → Team) : (s.modTeam k f).hostQs = s.hostQs := rfl
@[simp] theorem State.modTeam_shares (s : State) (k : Nat) (f : Team → Team) : (s.modTeam k f).shares = s.shares := rfl
@[simp] theorem State.modTeam_routes (s : State) (k : Nat) (f : Team → Team) : (s.modTeam k f).routes = s.routes := rfl
@[simp] theorem State.modTeam_outbound (s : State) (k : Nat) (f : Team → Team) : (s.modTeam k f).outbound = s.outbound := rfl
@[simp] theorem State.modTeam_ports (s : State) (k : Nat) (f : Team → Team) : (s.modTeam k f).ports = s.ports := rfl
@[simp] theorem State.modTeam_outbox (s : State) (k : Nat) (f : Team → Team) : (s.modTeam k f).outbox = s.outbox := rfl
@[simp] theorem State.modTeam_module (s : State) (k : Nat) (f : Team → Team) : (s.modTeam k f).module = s.module := rfl
@[simp] theorem State.modTeam_measured (s : State) (k : Nat) (f : Team → Team) : (s.modTeam k f).measured = s.measured := rfl
@[simp] theorem State.modTeam_doe (s : State) (k : Nat) (f : Team → Team) : (s.modTeam k f).doe = s.doe := rfl
@[simp] theorem State.modTeam_calib (s : State) (k : Nat) (f : Team → Team) : (s.modTeam k f).calib = s.calib := rfl
@[simp] theorem State.modTeam_issued (s : State) (k : Nat) (f : Team → Team) : (s.modTeam k f).issued = s.issued := rfl
@[simp] theorem State.modTeam_agenda (s : State) (k : Nat) (f : Team → Team) : (s.modTeam k f).agenda = s.agenda := rfl
@[simp] theorem State.modTeam_subject (s : State) (k : Nat) (f : Team → Team) : (s.modTeam k f).subject = s.subject := rfl
@[simp] theorem State.modTeam_free (s : State) (k : Nat) (f : Team → Team) : (s.modTeam k f).free = s.free := rfl
@[simp] theorem State.modTeam_order (s : State) (k : Nat) (f : Team → Team) : (s.modTeam k f).order = s.order := rfl
@[simp] theorem State.modTeam_nextId (s : State) (k : Nat) (f : Team → Team) : (s.modTeam k f).nextId = s.nextId := rfl

@[simp] theorem State.modTeam_same (s : State) (k : Nat) (f : Team → Team) : (s.modTeam k f).team k = f (s.team k) := by
  simp [State.modTeam, State.setTeam, State.team]

@[simp] theorem State.modTeam_other (s : State) {k a : Nat} (f : Team → Team) (h : k ≠ a) :
    (s.modTeam k f).team a = s.team a := by simp [State.modTeam, State.setTeam, State.team, h]

@[simp] theorem State.modTeam_cohort (s : State) (k a : Nat) (f : Team → Team) : (s.modTeam k f).cohort a = s.cohort a := rfl
@[simp] theorem State.modTeam_core (s : State) (k a : Nat) (f : Team → Team) : (s.modTeam k f).core a = s.core a := rfl
@[simp] theorem State.modTeam_cluster (s : State) (k a : Nat) (f : Team → Team) : (s.modTeam k f).cluster a = s.cluster a := rfl
@[simp] theorem State.modTeam_culvert (s : State) (k a : Nat) (f : Team → Team) : (s.modTeam k f).culvert a = s.culvert a := rfl
@[simp] theorem State.modTeam_part (s : State) (k a : Nat) (f : Team → Team) : (s.modTeam k f).part a = s.part a := rfl

/-! ### `modCohort` -/

@[simp] theorem State.modCohort_time (s : State) (k : Nat) (f : Cohort → Cohort) : (s.modCohort k f).time = s.time := rfl
@[simp] theorem State.modCohort_me (s : State) (k : Nat) (f : Cohort → Cohort) : (s.modCohort k f).me = s.me := rfl
@[simp] theorem State.modCohort_meId (s : State) (k : Nat) (f : Cohort → Cohort) : (s.modCohort k f).meId = s.meId := rfl
@[simp] theorem State.modCohort_others (s : State) (k : Nat) (f : Cohort → Cohort) : (s.modCohort k f).others = s.others := rfl
@[simp] theorem State.modCohort_teams (s : State) (k : Nat) (f : Cohort → Cohort) : (s.modCohort k f).teams = s.teams := rfl
@[simp] theorem State.modCohort_cores (s : State) (k : Nat) (f : Cohort → Cohort) : (s.modCohort k f).cores = s.cores := rfl
@[simp] theorem State.modCohort_clusters (s : State) (k : Nat) (f : Cohort → Cohort) : (s.modCohort k f).clusters = s.clusters := rfl
@[simp] theorem State.modCohort_culverts (s : State) (k : Nat) (f : Cohort → Cohort) : (s.modCohort k f).culverts = s.culverts := rfl
@[simp] theorem State.modCohort_parts (s : State) (k : Nat) (f : Cohort → Cohort) : (s.modCohort k f).parts = s.parts := rfl
@[simp] theorem State.modCohort_mem (s : State) (k : Nat) (f : Cohort → Cohort) : (s.modCohort k f).mem = s.mem := rfl
@[simp] theorem State.modCohort_damaged (s : State) (k : Nat) (f : Cohort → Cohort) : (s.modCohort k f).damaged = s.damaged := rfl
@[simp] theorem State.modCohort_codes (s : State) (k : Nat) (f : Cohort → Cohort) : (s.modCohort k f).codes = s.codes := rfl
@[simp] theorem State.modCohort_spDamage (s : State) (k : Nat) (f : Cohort → Cohort) : (s.modCohort k f).spDamage = s.spDamage := rfl
@[simp] theorem State.modCohort_retries (s : State) (k : Nat) (f : Cohort → Cohort) : (s.modCohort k f).retries = s.retries := rfl
@[simp] theorem State.modCohort_hwAsks (s : State) (k : Nat) (f : Cohort → Cohort) : (s.modCohort k f).hwAsks = s.hwAsks := rfl
@[simp] theorem State.modCohort_inbox (s : State) (k : Nat) (f : Cohort → Cohort) : (s.modCohort k f).inbox = s.inbox := rfl
@[simp] theorem State.modCohort_hostQs (s : State) (k : Nat) (f : Cohort → Cohort) : (s.modCohort k f).hostQs = s.hostQs := rfl
@[simp] theorem State.modCohort_shares (s : State) (k : Nat) (f : Cohort → Cohort) : (s.modCohort k f).shares = s.shares := rfl
@[simp] theorem State.modCohort_routes (s : State) (k : Nat) (f : Cohort → Cohort) : (s.modCohort k f).routes = s.routes := rfl
@[simp] theorem State.modCohort_outbound (s : State) (k : Nat) (f : Cohort → Cohort) : (s.modCohort k f).outbound = s.outbound := rfl
@[simp] theorem State.modCohort_ports (s : State) (k : Nat) (f : Cohort → Cohort) : (s.modCohort k f).ports = s.ports := rfl
@[simp] theorem State.modCohort_outbox (s : State) (k : Nat) (f : Cohort → Cohort) : (s.modCohort k f).outbox = s.outbox := rfl
@[simp] theorem State.modCohort_module (s : State) (k : Nat) (f : Cohort → Cohort) : (s.modCohort k f).module = s.module := rfl
@[simp] theorem State.modCohort_measured (s : State) (k : Nat) (f : Cohort → Cohort) : (s.modCohort k f).measured = s.measured := rfl
@[simp] theorem State.modCohort_doe (s : State) (k : Nat) (f : Cohort → Cohort) : (s.modCohort k f).doe = s.doe := rfl
@[simp] theorem State.modCohort_calib (s : State) (k : Nat) (f : Cohort → Cohort) : (s.modCohort k f).calib = s.calib := rfl
@[simp] theorem State.modCohort_issued (s : State) (k : Nat) (f : Cohort → Cohort) : (s.modCohort k f).issued = s.issued := rfl
@[simp] theorem State.modCohort_agenda (s : State) (k : Nat) (f : Cohort → Cohort) : (s.modCohort k f).agenda = s.agenda := rfl
@[simp] theorem State.modCohort_subject (s : State) (k : Nat) (f : Cohort → Cohort) : (s.modCohort k f).subject = s.subject := rfl
@[simp] theorem State.modCohort_free (s : State) (k : Nat) (f : Cohort → Cohort) : (s.modCohort k f).free = s.free := rfl
@[simp] theorem State.modCohort_order (s : State) (k : Nat) (f : Cohort → Cohort) : (s.modCohort k f).order = s.order := rfl
@[simp] theorem State.modCohort_nextId (s : State) (k : Nat) (f : Cohort → Cohort) : (s.modCohort k f).nextId = s.nextId := rfl

@[simp] theorem State.modCohort_same (s : State) (k : Nat) (f : Cohort → Cohort) : (s.modCohort k f).cohort k = f (s.cohort k) := by
  simp [State.modCohort, State.cohort]

@[simp] theorem State.modCohort_other (s : State) {k a : Nat} (f : Cohort → Cohort) (h : k ≠ a) :
    (s.modCohort k f).cohort a = s.cohort a := by simp [State.modCohort, State.cohort, h]

@[simp] theorem State.modCohort_team (s : State) (k a : Nat) (f : Cohort → Cohort) : (s.modCohort k f).team a = s.team a := rfl
@[simp] theorem State.modCohort_core (s : State) (k a : Nat) (f : Cohort → Cohort) : (s.modCohort k f).core a = s.core a := rfl
@[simp] theorem State.modCohort_cluster (s : State) (k a : Nat) (f : Cohort → Cohort) : (s.modCohort k f).cluster a = s.cluster a := rfl
@[simp] theorem State.modCohort_culvert (s : State) (k a : Nat) (f : Cohort → Cohort) : (s.modCohort k f).culvert a = s.culvert a := rfl
@[simp] theorem State.modCohort_part (s : State) (k a : Nat) (f : Cohort → Cohort) : (s.modCohort k f).part a = s.part a := rfl

/-! ### `modCore` -/

@[simp] theorem State.modCore_time (s : State) (k : Nat) (f : Core → Core) : (s.modCore k f).time = s.time := rfl
@[simp] theorem State.modCore_me (s : State) (k : Nat) (f : Core → Core) : (s.modCore k f).me = s.me := rfl
@[simp] theorem State.modCore_meId (s : State) (k : Nat) (f : Core → Core) : (s.modCore k f).meId = s.meId := rfl
@[simp] theorem State.modCore_others (s : State) (k : Nat) (f : Core → Core) : (s.modCore k f).others = s.others := rfl
@[simp] theorem State.modCore_teams (s : State) (k : Nat) (f : Core → Core) : (s.modCore k f).teams = s.teams := rfl
@[simp] theorem State.modCore_cohorts (s : State) (k : Nat) (f : Core → Core) : (s.modCore k f).cohorts = s.cohorts := rfl
@[simp] theorem State.modCore_clusters (s : State) (k : Nat) (f : Core → Core) : (s.modCore k f).clusters = s.clusters := rfl
@[simp] theorem State.modCore_culverts (s : State) (k : Nat) (f : Core → Core) : (s.modCore k f).culverts = s.culverts := rfl
@[simp] theorem State.modCore_parts (s : State) (k : Nat) (f : Core → Core) : (s.modCore k f).parts = s.parts := rfl
@[simp] theorem State.modCore_mem (s : State) (k : Nat) (f : Core → Core) : (s.modCore k f).mem = s.mem := rfl
@[simp] theorem State.modCore_damaged (s : State) (k : Nat) (f : Core → Core) : (s.modCore k f).damaged = s.damaged := rfl
@[simp] theorem State.modCore_codes (s : State) (k : Nat) (f : Core → Core) : (s.modCore k f).codes = s.codes := rfl
@[simp] theorem State.modCore_spDamage (s : State) (k : Nat) (f : Core → Core) : (s.modCore k f).spDamage = s.spDamage := rfl
@[simp] theorem State.modCore_retries (s : State) (k : Nat) (f : Core → Core) : (s.modCore k f).retries = s.retries := rfl
@[simp] theorem State.modCore_hwAsks (s : State) (k : Nat) (f : Core → Core) : (s.modCore k f).hwAsks = s.hwAsks := rfl
@[simp] theorem State.modCore_inbox (s : State) (k : Nat) (f : Core → Core) : (s.modCore k f).inbox = s.inbox := rfl
@[simp] theorem State.modCore_hostQs (s : State) (k : Nat) (f : Core → Core) : (s.modCore k f).hostQs = s.hostQs := rfl
@[simp] theorem State.modCore_shares (s : State) (k : Nat) (f : Core → Core) : (s.modCore k f).shares = s.shares := rfl
@[simp] theorem State.modCore_routes (s : State) (k : Nat) (f : Core → Core) : (s.modCore k f).routes = s.routes := rfl
@[simp] theorem State.modCore_outbound (s : State) (k : Nat) (f : Core → Core) : (s.modCore k f).outbound = s.outbound := rfl
@[simp] theorem State.modCore_ports (s : State) (k : Nat) (f : Core → Core) : (s.modCore k f).ports = s.ports := rfl
@[simp] theorem State.modCore_outbox (s : State) (k : Nat) (f : Core → Core) : (s.modCore k f).outbox = s.outbox := rfl
@[simp] theorem State.modCore_module (s : State) (k : Nat) (f : Core → Core) : (s.modCore k f).module = s.module := rfl
@[simp] theorem State.modCore_measured (s : State) (k : Nat) (f : Core → Core) : (s.modCore k f).measured = s.measured := rfl
@[simp] theorem State.modCore_doe (s : State) (k : Nat) (f : Core → Core) : (s.modCore k f).doe = s.doe := rfl
@[simp] theorem State.modCore_calib (s : State) (k : Nat) (f : Core → Core) : (s.modCore k f).calib = s.calib := rfl
@[simp] theorem State.modCore_issued (s : State) (k : Nat) (f : Core → Core) : (s.modCore k f).issued = s.issued := rfl
@[simp] theorem State.modCore_agenda (s : State) (k : Nat) (f : Core → Core) : (s.modCore k f).agenda = s.agenda := rfl
@[simp] theorem State.modCore_subject (s : State) (k : Nat) (f : Core → Core) : (s.modCore k f).subject = s.subject := rfl
@[simp] theorem State.modCore_free (s : State) (k : Nat) (f : Core → Core) : (s.modCore k f).free = s.free := rfl
@[simp] theorem State.modCore_order (s : State) (k : Nat) (f : Core → Core) : (s.modCore k f).order = s.order := rfl
@[simp] theorem State.modCore_nextId (s : State) (k : Nat) (f : Core → Core) : (s.modCore k f).nextId = s.nextId := rfl

@[simp] theorem State.modCore_same (s : State) (k : Nat) (f : Core → Core) : (s.modCore k f).core k = f (s.core k) := by
  simp [State.modCore, State.core]

@[simp] theorem State.modCore_other (s : State) {k a : Nat} (f : Core → Core) (h : k ≠ a) :
    (s.modCore k f).core a = s.core a := by simp [State.modCore, State.core, h]

@[simp] theorem State.modCore_team (s : State) (k a : Nat) (f : Core → Core) : (s.modCore k f).team a = s.team a := rfl
@[simp] theorem State.modCore_cohort (s : State) (k a : Nat) (f : Core → Core) : (s.modCore k f).cohort a = s.cohort a := rfl
@[simp] theorem State.modCore_cluster (s : State) (k a : Nat) (f : Core → Core) : (s.modCore k f).cluster a = s.cluster a := rfl
@[simp] theorem State.modCore_culvert (s : State) (k a : Nat) (f : Core → Core) : (s.modCore k f).culvert a = s.culvert a := rfl
@[simp] theorem State.modCore_part (s : State) (k a : Nat) (f : Core → Core) : (s.modCore k f).part a = s.part a := rfl

/-! ### `modCluster` -/

@[simp] theorem State.modCluster_time (s : State) (k : Nat) (f : Cluster → Cluster) : (s.modCluster k f).time = s.time := rfl
@[simp] theorem State.modCluster_me (s : State) (k : Nat) (f : Cluster → Cluster) : (s.modCluster k f).me = s.me := rfl
@[simp] theorem State.modCluster_meId (s : State) (k : Nat) (f : Cluster → Cluster) : (s.modCluster k f).meId = s.meId := rfl
@[simp] theorem State.modCluster_others (s : State) (k : Nat) (f : Cluster → Cluster) : (s.modCluster k f).others = s.others := rfl
@[simp] theorem State.modCluster_teams (s : State) (k : Nat) (f : Cluster → Cluster) : (s.modCluster k f).teams = s.teams := rfl
@[simp] theorem State.modCluster_cohorts (s : State) (k : Nat) (f : Cluster → Cluster) : (s.modCluster k f).cohorts = s.cohorts := rfl
@[simp] theorem State.modCluster_cores (s : State) (k : Nat) (f : Cluster → Cluster) : (s.modCluster k f).cores = s.cores := rfl
@[simp] theorem State.modCluster_culverts (s : State) (k : Nat) (f : Cluster → Cluster) : (s.modCluster k f).culverts = s.culverts := rfl
@[simp] theorem State.modCluster_parts (s : State) (k : Nat) (f : Cluster → Cluster) : (s.modCluster k f).parts = s.parts := rfl
@[simp] theorem State.modCluster_mem (s : State) (k : Nat) (f : Cluster → Cluster) : (s.modCluster k f).mem = s.mem := rfl
@[simp] theorem State.modCluster_damaged (s : State) (k : Nat) (f : Cluster → Cluster) : (s.modCluster k f).damaged = s.damaged := rfl
@[simp] theorem State.modCluster_codes (s : State) (k : Nat) (f : Cluster → Cluster) : (s.modCluster k f).codes = s.codes := rfl
@[simp] theorem State.modCluster_spDamage (s : State) (k : Nat) (f : Cluster → Cluster) : (s.modCluster k f).spDamage = s.spDamage := rfl
@[simp] theorem State.modCluster_retries (s : State) (k : Nat) (f : Cluster → Cluster) : (s.modCluster k f).retries = s.retries := rfl
@[simp] theorem State.modCluster_hwAsks (s : State) (k : Nat) (f : Cluster → Cluster) : (s.modCluster k f).hwAsks = s.hwAsks := rfl
@[simp] theorem State.modCluster_inbox (s : State) (k : Nat) (f : Cluster → Cluster) : (s.modCluster k f).inbox = s.inbox := rfl
@[simp] theorem State.modCluster_hostQs (s : State) (k : Nat) (f : Cluster → Cluster) : (s.modCluster k f).hostQs = s.hostQs := rfl
@[simp] theorem State.modCluster_shares (s : State) (k : Nat) (f : Cluster → Cluster) : (s.modCluster k f).shares = s.shares := rfl
@[simp] theorem State.modCluster_routes (s : State) (k : Nat) (f : Cluster → Cluster) : (s.modCluster k f).routes = s.routes := rfl
@[simp] theorem State.modCluster_outbound (s : State) (k : Nat) (f : Cluster → Cluster) : (s.modCluster k f).outbound = s.outbound := rfl
@[simp] theorem State.modCluster_ports (s : State) (k : Nat) (f : Cluster → Cluster) : (s.modCluster k f).ports = s.ports := rfl
@[simp] theorem State.modCluster_outbox (s : State) (k : Nat) (f : Cluster → Cluster) : (s.modCluster k f).outbox = s.outbox := rfl
@[simp] theorem State.modCluster_module (s : State) (k : Nat) (f : Cluster → Cluster) : (s.modCluster k f).module = s.module := rfl
@[simp] theorem State.modCluster_measured (s : State) (k : Nat) (f : Cluster → Cluster) : (s.modCluster k f).measured = s.measured := rfl
@[simp] theorem State.modCluster_doe (s : State) (k : Nat) (f : Cluster → Cluster) : (s.modCluster k f).doe = s.doe := rfl
@[simp] theorem State.modCluster_calib (s : State) (k : Nat) (f : Cluster → Cluster) : (s.modCluster k f).calib = s.calib := rfl
@[simp] theorem State.modCluster_issued (s : State) (k : Nat) (f : Cluster → Cluster) : (s.modCluster k f).issued = s.issued := rfl
@[simp] theorem State.modCluster_agenda (s : State) (k : Nat) (f : Cluster → Cluster) : (s.modCluster k f).agenda = s.agenda := rfl
@[simp] theorem State.modCluster_subject (s : State) (k : Nat) (f : Cluster → Cluster) : (s.modCluster k f).subject = s.subject := rfl
@[simp] theorem State.modCluster_free (s : State) (k : Nat) (f : Cluster → Cluster) : (s.modCluster k f).free = s.free := rfl
@[simp] theorem State.modCluster_order (s : State) (k : Nat) (f : Cluster → Cluster) : (s.modCluster k f).order = s.order := rfl
@[simp] theorem State.modCluster_nextId (s : State) (k : Nat) (f : Cluster → Cluster) : (s.modCluster k f).nextId = s.nextId := rfl

@[simp] theorem State.modCluster_same (s : State) (k : Nat) (f : Cluster → Cluster) : (s.modCluster k f).cluster k = f (s.cluster k) := by
  simp [State.modCluster, State.cluster]

@[simp] theorem State.modCluster_other (s : State) {k a : Nat} (f : Cluster → Cluster) (h : k ≠ a) :
    (s.modCluster k f).cluster a = s.cluster a := by simp [State.modCluster, State.cluster, h]

@[simp] theorem State.modCluster_team (s : State) (k a : Nat) (f : Cluster → Cluster) : (s.modCluster k f).team a = s.team a := rfl
@[simp] theorem State.modCluster_cohort (s : State) (k a : Nat) (f : Cluster → Cluster) : (s.modCluster k f).cohort a = s.cohort a := rfl
@[simp] theorem State.modCluster_core (s : State) (k a : Nat) (f : Cluster → Cluster) : (s.modCluster k f).core a = s.core a := rfl
@[simp] theorem State.modCluster_culvert (s : State) (k a : Nat) (f : Cluster → Cluster) : (s.modCluster k f).culvert a = s.culvert a := rfl
@[simp] theorem State.modCluster_part (s : State) (k a : Nat) (f : Cluster → Cluster) : (s.modCluster k f).part a = s.part a := rfl

/-! ### `modCulvert` -/

@[simp] theorem State.modCulvert_time (s : State) (k : Nat) (f : Culvert → Culvert) : (s.modCulvert k f).time = s.time := rfl
@[simp] theorem State.modCulvert_me (s : State) (k : Nat) (f : Culvert → Culvert) : (s.modCulvert k f).me = s.me := rfl
@[simp] theorem State.modCulvert_meId (s : State) (k : Nat) (f : Culvert → Culvert) : (s.modCulvert k f).meId = s.meId := rfl
@[simp] theorem State.modCulvert_others (s : State) (k : Nat) (f : Culvert → Culvert) : (s.modCulvert k f).others = s.others := rfl
@[simp] theorem State.modCulvert_teams (s : State) (k : Nat) (f : Culvert → Culvert) : (s.modCulvert k f).teams = s.teams := rfl
@[simp] theorem State.modCulvert_cohorts (s : State) (k : Nat) (f : Culvert → Culvert) : (s.modCulvert k f).cohorts = s.cohorts := rfl
@[simp] theorem State.modCulvert_cores (s : State) (k : Nat) (f : Culvert → Culvert) : (s.modCulvert k f).cores = s.cores := rfl
@[simp] theorem State.modCulvert_clusters (s : State) (k : Nat) (f : Culvert → Culvert) : (s.modCulvert k f).clusters = s.clusters := rfl
@[simp] theorem State.modCulvert_parts (s : State) (k : Nat) (f : Culvert → Culvert) : (s.modCulvert k f).parts = s.parts := rfl
@[simp] theorem State.modCulvert_mem (s : State) (k : Nat) (f : Culvert → Culvert) : (s.modCulvert k f).mem = s.mem := rfl
@[simp] theorem State.modCulvert_damaged (s : State) (k : Nat) (f : Culvert → Culvert) : (s.modCulvert k f).damaged = s.damaged := rfl
@[simp] theorem State.modCulvert_codes (s : State) (k : Nat) (f : Culvert → Culvert) : (s.modCulvert k f).codes = s.codes := rfl
@[simp] theorem State.modCulvert_spDamage (s : State) (k : Nat) (f : Culvert → Culvert) : (s.modCulvert k f).spDamage = s.spDamage := rfl
@[simp] theorem State.modCulvert_retries (s : State) (k : Nat) (f : Culvert → Culvert) : (s.modCulvert k f).retries = s.retries := rfl
@[simp] theorem State.modCulvert_hwAsks (s : State) (k : Nat) (f : Culvert → Culvert) : (s.modCulvert k f).hwAsks = s.hwAsks := rfl
@[simp] theorem State.modCulvert_inbox (s : State) (k : Nat) (f : Culvert → Culvert) : (s.modCulvert k f).inbox = s.inbox := rfl
@[simp] theorem State.modCulvert_hostQs (s : State) (k : Nat) (f : Culvert → Culvert) : (s.modCulvert k f).hostQs = s.hostQs := rfl
@[simp] theorem State.modCulvert_shares (s : State) (k : Nat) (f : Culvert → Culvert) : (s.modCulvert k f).shares = s.shares := rfl
@[simp] theorem State.modCulvert_routes (s : State) (k : Nat) (f : Culvert → Culvert) : (s.modCulvert k f).routes = s.routes := rfl
@[simp] theorem State.modCulvert_outbound (s : State) (k : Nat) (f : Culvert → Culvert) : (s.modCulvert k f).outbound = s.outbound := rfl
@[simp] theorem State.modCulvert_ports (s : State) (k : Nat) (f : Culvert → Culvert) : (s.modCulvert k f).ports = s.ports := rfl
@[simp] theorem State.modCulvert_outbox (s : State) (k : Nat) (f : Culvert → Culvert) : (s.modCulvert k f).outbox = s.outbox := rfl
@[simp] theorem State.modCulvert_module (s : State) (k : Nat) (f : Culvert → Culvert) : (s.modCulvert k f).module = s.module := rfl
@[simp] theorem State.modCulvert_measured (s : State) (k : Nat) (f : Culvert → Culvert) : (s.modCulvert k f).measured = s.measured := rfl
@[simp] theorem State.modCulvert_doe (s : State) (k : Nat) (f : Culvert → Culvert) : (s.modCulvert k f).doe = s.doe := rfl
@[simp] theorem State.modCulvert_calib (s : State) (k : Nat) (f : Culvert → Culvert) : (s.modCulvert k f).calib = s.calib := rfl
@[simp] theorem State.modCulvert_issued (s : State) (k : Nat) (f : Culvert → Culvert) : (s.modCulvert k f).issued = s.issued := rfl
@[simp] theorem State.modCulvert_agenda (s : State) (k : Nat) (f : Culvert → Culvert) : (s.modCulvert k f).agenda = s.agenda := rfl
@[simp] theorem State.modCulvert_subject (s : State) (k : Nat) (f : Culvert → Culvert) : (s.modCulvert k f).subject = s.subject := rfl
@[simp] theorem State.modCulvert_free (s : State) (k : Nat) (f : Culvert → Culvert) : (s.modCulvert k f).free = s.free := rfl
@[simp] theorem State.modCulvert_order (s : State) (k : Nat) (f : Culvert → Culvert) : (s.modCulvert k f).order = s.order := rfl
@[simp] theorem State.modCulvert_nextId (s : State) (k : Nat) (f : Culvert → Culvert) : (s.modCulvert k f).nextId = s.nextId := rfl

@[simp] theorem State.modCulvert_same (s : State) (k : Nat) (f : Culvert → Culvert) : (s.modCulvert k f).culvert k = f (s.culvert k) := by
  simp [State.modCulvert, State.culvert]

@[simp] theorem State.modCulvert_other (s : State) {k a : Nat} (f : Culvert → Culvert) (h : k ≠ a) :
    (s.modCulvert k f).culvert a = s.culvert a := by simp [State.modCulvert, State.culvert, h]

@[simp] theorem State.modCulvert_team (s : State) (k a : Nat) (f : Culvert → Culvert) : (s.modCulvert k f).team a = s.team a := rfl
@[simp] theorem State.modCulvert_cohort (s : State) (k a : Nat) (f : Culvert → Culvert) : (s.modCulvert k f).cohort a = s.cohort a := rfl
@[simp] theorem State.modCulvert_core (s : State) (k a : Nat) (f : Culvert → Culvert) : (s.modCulvert k f).core a = s.core a := rfl
@[simp] theorem State.modCulvert_cluster (s : State) (k a : Nat) (f : Culvert → Culvert) : (s.modCulvert k f).cluster a = s.cluster a := rfl
@[simp] theorem State.modCulvert_part (s : State) (k a : Nat) (f : Culvert → Culvert) : (s.modCulvert k f).part a = s.part a := rfl

/-! ### `modPart` -/

@[simp] theorem State.modPart_time (s : State) (k : Nat) (f : Partition → Partition) : (s.modPart k f).time = s.time := rfl
@[simp] theorem State.modPart_me (s : State) (k : Nat) (f : Partition → Partition) : (s.modPart k f).me = s.me := rfl
@[simp] theorem State.modPart_meId (s : State) (k : Nat) (f : Partition → Partition) : (s.modPart k f).meId = s.meId := rfl
@[simp] theorem State.modPart_others (s : State) (k : Nat) (f : Partition → Partition) : (s.modPart k f).others = s.others := rfl
@[simp] theorem State.modPart_teams (s : State) (k : Nat) (f : Partition → Partition) : (s.modPart k f).teams = s.teams := rfl
@[simp] theorem State.modPart_cohorts (s : State) (k : Nat) (f : Partition → Partition) : (s.modPart k f).cohorts = s.cohorts := rfl
@[simp] theorem State.modPart_cores (s : State) (k : Nat) (f : Partition → Partition) : (s.modPart k f).cores = s.cores := rfl
@[simp] theorem State.modPart_clusters (s : State) (k : Nat) (f : Partition → Partition) : (s.modPart k f).clusters = s.clusters := rfl
@[simp] theorem State.modPart_culverts (s : State) (k : Nat) (f : Partition → Partition) : (s.modPart k f).culverts = s.culverts := rfl
@[simp] theorem State.modPart_mem (s : State) (k : Nat) (f : Partition → Partition) : (s.modPart k f).mem = s.mem := rfl
@[simp] theorem State.modPart_damaged (s : State) (k : Nat) (f : Partition → Partition) : (s.modPart k f).damaged = s.damaged := rfl
@[simp] theorem State.modPart_codes (s : State) (k : Nat) (f : Partition → Partition) : (s.modPart k f).codes = s.codes := rfl
@[simp] theorem State.modPart_spDamage (s : State) (k : Nat) (f : Partition → Partition) : (s.modPart k f).spDamage = s.spDamage := rfl
@[simp] theorem State.modPart_retries (s : State) (k : Nat) (f : Partition → Partition) : (s.modPart k f).retries = s.retries := rfl
@[simp] theorem State.modPart_hwAsks (s : State) (k : Nat) (f : Partition → Partition) : (s.modPart k f).hwAsks = s.hwAsks := rfl
@[simp] theorem State.modPart_inbox (s : State) (k : Nat) (f : Partition → Partition) : (s.modPart k f).inbox = s.inbox := rfl
@[simp] theorem State.modPart_hostQs (s : State) (k : Nat) (f : Partition → Partition) : (s.modPart k f).hostQs = s.hostQs := rfl
@[simp] theorem State.modPart_shares (s : State) (k : Nat) (f : Partition → Partition) : (s.modPart k f).shares = s.shares := rfl
@[simp] theorem State.modPart_routes (s : State) (k : Nat) (f : Partition → Partition) : (s.modPart k f).routes = s.routes := rfl
@[simp] theorem State.modPart_outbound (s : State) (k : Nat) (f : Partition → Partition) : (s.modPart k f).outbound = s.outbound := rfl
@[simp] theorem State.modPart_ports (s : State) (k : Nat) (f : Partition → Partition) : (s.modPart k f).ports = s.ports := rfl
@[simp] theorem State.modPart_outbox (s : State) (k : Nat) (f : Partition → Partition) : (s.modPart k f).outbox = s.outbox := rfl
@[simp] theorem State.modPart_module (s : State) (k : Nat) (f : Partition → Partition) : (s.modPart k f).module = s.module := rfl
@[simp] theorem State.modPart_measured (s : State) (k : Nat) (f : Partition → Partition) : (s.modPart k f).measured = s.measured := rfl
@[simp] theorem State.modPart_doe (s : State) (k : Nat) (f : Partition → Partition) : (s.modPart k f).doe = s.doe := rfl
@[simp] theorem State.modPart_calib (s : State) (k : Nat) (f : Partition → Partition) : (s.modPart k f).calib = s.calib := rfl
@[simp] theorem State.modPart_issued (s : State) (k : Nat) (f : Partition → Partition) : (s.modPart k f).issued = s.issued := rfl
@[simp] theorem State.modPart_agenda (s : State) (k : Nat) (f : Partition → Partition) : (s.modPart k f).agenda = s.agenda := rfl
@[simp] theorem State.modPart_subject (s : State) (k : Nat) (f : Partition → Partition) : (s.modPart k f).subject = s.subject := rfl
@[simp] theorem State.modPart_free (s : State) (k : Nat) (f : Partition → Partition) : (s.modPart k f).free = s.free := rfl
@[simp] theorem State.modPart_order (s : State) (k : Nat) (f : Partition → Partition) : (s.modPart k f).order = s.order := rfl
@[simp] theorem State.modPart_nextId (s : State) (k : Nat) (f : Partition → Partition) : (s.modPart k f).nextId = s.nextId := rfl

@[simp] theorem State.modPart_same (s : State) (k : Nat) (f : Partition → Partition) : (s.modPart k f).part k = f (s.part k) := by
  simp [State.modPart, State.part]

@[simp] theorem State.modPart_other (s : State) {k a : Nat} (f : Partition → Partition) (h : k ≠ a) :
    (s.modPart k f).part a = s.part a := by simp [State.modPart, State.part, h]

@[simp] theorem State.modPart_team (s : State) (k a : Nat) (f : Partition → Partition) : (s.modPart k f).team a = s.team a := rfl
@[simp] theorem State.modPart_cohort (s : State) (k a : Nat) (f : Partition → Partition) : (s.modPart k f).cohort a = s.cohort a := rfl
@[simp] theorem State.modPart_core (s : State) (k a : Nat) (f : Partition → Partition) : (s.modPart k f).core a = s.core a := rfl
@[simp] theorem State.modPart_cluster (s : State) (k a : Nat) (f : Partition → Partition) : (s.modPart k f).cluster a = s.cluster a := rfl
@[simp] theorem State.modPart_culvert (s : State) (k a : Nat) (f : Partition → Partition) : (s.modPart k f).culvert a = s.culvert a := rfl

/-! ### `setTeam` -/

@[simp] theorem State.setTeam_time (s : State) (t : Nat) (x : Team) : (s.setTeam t x).time = s.time := rfl
@[simp] theorem State.setTeam_me (s : State) (t : Nat) (x : Team) : (s.setTeam t x).me = s.me := rfl
@[simp] theorem State.setTeam_meId (s : State) (t : Nat) (x : Team) : (s.setTeam t x).meId = s.meId := rfl
@[simp] theorem State.setTeam_others (s : State) (t : Nat) (x : Team) : (s.setTeam t x).others = s.others := rfl
@[simp] theorem State.setTeam_cohorts (s : State) (t : Nat) (x : Team) : (s.setTeam t x).cohorts = s.cohorts := rfl
@[simp] theorem State.setTeam_cores (s : State) (t : Nat) (x : Team) : (s.setTeam t x).cores = s.cores := rfl
@[simp] theorem State.setTeam_clusters (s : State) (t : Nat) (x : Team) : (s.setTeam t x).clusters = s.clusters := rfl
@[simp] theorem State.setTeam_culverts (s : State) (t : Nat) (x : Team) : (s.setTeam t x).culverts = s.culverts := rfl
@[simp] theorem State.setTeam_parts (s : State) (t : Nat) (x : Team) : (s.setTeam t x).parts = s.parts := rfl
@[simp] theorem State.setTeam_mem (s : State) (t : Nat) (x : Team) : (s.setTeam t x).mem = s.mem := rfl
@[simp] theorem State.setTeam_damaged (s : State) (t : Nat) (x : Team) : (s.setTeam t x).damaged = s.damaged := rfl
@[simp] theorem State.setTeam_codes (s : State) (t : Nat) (x : Team) : (s.setTeam t x).codes = s.codes := rfl
@[simp] theorem State.setTeam_spDamage (s : State) (t : Nat) (x : Team) : (s.setTeam t x).spDamage = s.spDamage := rfl
@[simp] theorem State.setTeam_retries (s : State) (t : Nat) (x : Team) : (s.setTeam t x).retries = s.retries := rfl
@[simp] theorem State.setTeam_hwAsks (s : State) (t : Nat) (x : Team) : (s.setTeam t x).hwAsks = s.hwAsks := rfl
@[simp] theorem State.setTeam_inbox (s : State) (t : Nat) (x : Team) : (s.setTeam t x).inbox = s.inbox := rfl
@[simp] theorem State.setTeam_hostQs (s : State) (t : Nat) (x : Team) : (s.setTeam t x).hostQs = s.hostQs := rfl
@[simp] theorem State.setTeam_shares (s : State) (t : Nat) (x : Team) : (s.setTeam t x).shares = s.shares := rfl
@[simp] theorem State.setTeam_routes (s : State) (t : Nat) (x : Team) : (s.setTeam t x).routes = s.routes := rfl
@[simp] theorem State.setTeam_outbound (s : State) (t : Nat) (x : Team) : (s.setTeam t x).outbound = s.outbound := rfl
@[simp] theorem State.setTeam_ports (s : State) (t : Nat) (x : Team) : (s.setTeam t x).ports = s.ports := rfl
@[simp] theorem State.setTeam_outbox (s : State) (t : Nat) (x : Team) : (s.setTeam t x).outbox = s.outbox := rfl
@[simp] theorem State.setTeam_module (s : State) (t : Nat) (x : Team) : (s.setTeam t x).module = s.module := rfl
@[simp] theorem State.setTeam_measured (s : State) (t : Nat) (x : Team) : (s.setTeam t x).measured = s.measured := rfl
@[simp] theorem State.setTeam_doe (s : State) (t : Nat) (x : Team) : (s.setTeam t x).doe = s.doe := rfl
@[simp] theorem State.setTeam_calib (s : State) (t : Nat) (x : Team) : (s.setTeam t x).calib = s.calib := rfl
@[simp] theorem State.setTeam_issued (s : State) (t : Nat) (x : Team) : (s.setTeam t x).issued = s.issued := rfl
@[simp] theorem State.setTeam_agenda (s : State) (t : Nat) (x : Team) : (s.setTeam t x).agenda = s.agenda := rfl
@[simp] theorem State.setTeam_subject (s : State) (t : Nat) (x : Team) : (s.setTeam t x).subject = s.subject := rfl
@[simp] theorem State.setTeam_free (s : State) (t : Nat) (x : Team) : (s.setTeam t x).free = s.free := rfl
@[simp] theorem State.setTeam_order (s : State) (t : Nat) (x : Team) : (s.setTeam t x).order = s.order := rfl
@[simp] theorem State.setTeam_nextId (s : State) (t : Nat) (x : Team) : (s.setTeam t x).nextId = s.nextId := rfl

@[simp] theorem State.setTeam_same (s : State) (t : Nat) (x : Team) : (s.setTeam t x).team t = x := by
  simp [State.setTeam, State.team]

@[simp] theorem State.setTeam_other (s : State) {t a : Nat} (x : Team) (h : t ≠ a) : (s.setTeam t x).team a = s.team a := by
  simp [State.setTeam, State.team, h]

/-! ### `setGroup`, `modGroup` -/

@[simp] theorem State.setGroup_time (s : State) (g : Nat) (x : Group) : (s.setGroup g x).time = s.time := by
  unfold State.setGroup; split <;> rfl
@[simp] theorem State.setGroup_meId (s : State) (g : Nat) (x : Group) : (s.setGroup g x).meId = s.meId := by
  unfold State.setGroup; split <;> rfl
@[simp] theorem State.setGroup_teams (s : State) (g : Nat) (x : Group) : (s.setGroup g x).teams = s.teams := by
  unfold State.setGroup; split <;> rfl
@[simp] theorem State.setGroup_cohorts (s : State) (g : Nat) (x : Group) : (s.setGroup g x).cohorts = s.cohorts := by
  unfold State.setGroup; split <;> rfl
@[simp] theorem State.setGroup_cores (s : State) (g : Nat) (x : Group) : (s.setGroup g x).cores = s.cores := by
  unfold State.setGroup; split <;> rfl
@[simp] theorem State.setGroup_clusters (s : State) (g : Nat) (x : Group) : (s.setGroup g x).clusters = s.clusters := by
  unfold State.setGroup; split <;> rfl
@[simp] theorem State.setGroup_culverts (s : State) (g : Nat) (x : Group) : (s.setGroup g x).culverts = s.culverts := by
  unfold State.setGroup; split <;> rfl
@[simp] theorem State.setGroup_parts (s : State) (g : Nat) (x : Group) : (s.setGroup g x).parts = s.parts := by
  unfold State.setGroup; split <;> rfl
@[simp] theorem State.setGroup_mem (s : State) (g : Nat) (x : Group) : (s.setGroup g x).mem = s.mem := by
  unfold State.setGroup; split <;> rfl
@[simp] theorem State.setGroup_damaged (s : State) (g : Nat) (x : Group) : (s.setGroup g x).damaged = s.damaged := by
  unfold State.setGroup; split <;> rfl
@[simp] theorem State.setGroup_codes (s : State) (g : Nat) (x : Group) : (s.setGroup g x).codes = s.codes := by
  unfold State.setGroup; split <;> rfl
@[simp] theorem State.setGroup_spDamage (s : State) (g : Nat) (x : Group) : (s.setGroup g x).spDamage = s.spDamage := by
  unfold State.setGroup; split <;> rfl
@[simp] theorem State.setGroup_retries (s : State) (g : Nat) (x : Group) : (s.setGroup g x).retries = s.retries := by
  unfold State.setGroup; split <;> rfl
@[simp] theorem State.setGroup_hwAsks (s : State) (g : Nat) (x : Group) : (s.setGroup g x).hwAsks = s.hwAsks := by
  unfold State.setGroup; split <;> rfl
@[simp] theorem State.setGroup_inbox (s : State) (g : Nat) (x : Group) : (s.setGroup g x).inbox = s.inbox := by
  unfold State.setGroup; split <;> rfl
@[simp] theorem State.setGroup_hostQs (s : State) (g : Nat) (x : Group) : (s.setGroup g x).hostQs = s.hostQs := by
  unfold State.setGroup; split <;> rfl
@[simp] theorem State.setGroup_shares (s : State) (g : Nat) (x : Group) : (s.setGroup g x).shares = s.shares := by
  unfold State.setGroup; split <;> rfl
@[simp] theorem State.setGroup_routes (s : State) (g : Nat) (x : Group) : (s.setGroup g x).routes = s.routes := by
  unfold State.setGroup; split <;> rfl
@[simp] theorem State.setGroup_outbound (s : State) (g : Nat) (x : Group) : (s.setGroup g x).outbound = s.outbound := by
  unfold State.setGroup; split <;> rfl
@[simp] theorem State.setGroup_ports (s : State) (g : Nat) (x : Group) : (s.setGroup g x).ports = s.ports := by
  unfold State.setGroup; split <;> rfl
@[simp] theorem State.setGroup_outbox (s : State) (g : Nat) (x : Group) : (s.setGroup g x).outbox = s.outbox := by
  unfold State.setGroup; split <;> rfl
@[simp] theorem State.setGroup_module (s : State) (g : Nat) (x : Group) : (s.setGroup g x).module = s.module := by
  unfold State.setGroup; split <;> rfl
@[simp] theorem State.setGroup_measured (s : State) (g : Nat) (x : Group) : (s.setGroup g x).measured = s.measured := by
  unfold State.setGroup; split <;> rfl
@[simp] theorem State.setGroup_doe (s : State) (g : Nat) (x : Group) : (s.setGroup g x).doe = s.doe := by
  unfold State.setGroup; split <;> rfl
@[simp] theorem State.setGroup_calib (s : State) (g : Nat) (x : Group) : (s.setGroup g x).calib = s.calib := by
  unfold State.setGroup; split <;> rfl
@[simp] theorem State.setGroup_issued (s : State) (g : Nat) (x : Group) : (s.setGroup g x).issued = s.issued := by
  unfold State.setGroup; split <;> rfl
@[simp] theorem State.setGroup_agenda (s : State) (g : Nat) (x : Group) : (s.setGroup g x).agenda = s.agenda := by
  unfold State.setGroup; split <;> rfl
@[simp] theorem State.setGroup_subject (s : State) (g : Nat) (x : Group) : (s.setGroup g x).subject = s.subject := by
  unfold State.setGroup; split <;> rfl
@[simp] theorem State.setGroup_free (s : State) (g : Nat) (x : Group) : (s.setGroup g x).free = s.free := by
  unfold State.setGroup; split <;> rfl
@[simp] theorem State.setGroup_order (s : State) (g : Nat) (x : Group) : (s.setGroup g x).order = s.order := by
  unfold State.setGroup; split <;> rfl
@[simp] theorem State.setGroup_nextId (s : State) (g : Nat) (x : Group) : (s.setGroup g x).nextId = s.nextId := by
  unfold State.setGroup; split <;> rfl

@[simp] theorem State.modGroup_time (s : State) (g : Nat) (f : Group → Group) : (s.modGroup g f).time = s.time := by
  unfold State.modGroup; split <;> simp
@[simp] theorem State.modGroup_meId (s : State) (g : Nat) (f : Group → Group) : (s.modGroup g f).meId = s.meId := by
  unfold State.modGroup; split <;> simp
@[simp] theorem State.modGroup_teams (s : State) (g : Nat) (f : Group → Group) : (s.modGroup g f).teams = s.teams := by
  unfold State.modGroup; split <;> simp
@[simp] theorem State.modGroup_cohorts (s : State) (g : Nat) (f : Group → Group) : (s.modGroup g f).cohorts = s.cohorts := by
  unfold State.modGroup; split <;> simp
@[simp] theorem State.modGroup_cores (s : State) (g : Nat) (f : Group → Group) : (s.modGroup g f).cores = s.cores := by
  unfold State.modGroup; split <;> simp
@[simp] theorem State.modGroup_clusters (s : State) (g : Nat) (f : Group → Group) : (s.modGroup g f).clusters = s.clusters := by
  unfold State.modGroup; split <;> simp
@[simp] theorem State.modGroup_culverts (s : State) (g : Nat) (f : Group → Group) : (s.modGroup g f).culverts = s.culverts := by
  unfold State.modGroup; split <;> simp
@[simp] theorem State.modGroup_parts (s : State) (g : Nat) (f : Group → Group) : (s.modGroup g f).parts = s.parts := by
  unfold State.modGroup; split <;> simp
@[simp] theorem State.modGroup_mem (s : State) (g : Nat) (f : Group → Group) : (s.modGroup g f).mem = s.mem := by
  unfold State.modGroup; split <;> simp
@[simp] theorem State.modGroup_damaged (s : State) (g : Nat) (f : Group → Group) : (s.modGroup g f).damaged = s.damaged := by
  unfold State.modGroup; split <;> simp
@[simp] theorem State.modGroup_codes (s : State) (g : Nat) (f : Group → Group) : (s.modGroup g f).codes = s.codes := by
  unfold State.modGroup; split <;> simp
@[simp] theorem State.modGroup_spDamage (s : State) (g : Nat) (f : Group → Group) : (s.modGroup g f).spDamage = s.spDamage := by
  unfold State.modGroup; split <;> simp
@[simp] theorem State.modGroup_retries (s : State) (g : Nat) (f : Group → Group) : (s.modGroup g f).retries = s.retries := by
  unfold State.modGroup; split <;> simp
@[simp] theorem State.modGroup_hwAsks (s : State) (g : Nat) (f : Group → Group) : (s.modGroup g f).hwAsks = s.hwAsks := by
  unfold State.modGroup; split <;> simp
@[simp] theorem State.modGroup_inbox (s : State) (g : Nat) (f : Group → Group) : (s.modGroup g f).inbox = s.inbox := by
  unfold State.modGroup; split <;> simp
@[simp] theorem State.modGroup_hostQs (s : State) (g : Nat) (f : Group → Group) : (s.modGroup g f).hostQs = s.hostQs := by
  unfold State.modGroup; split <;> simp
@[simp] theorem State.modGroup_shares (s : State) (g : Nat) (f : Group → Group) : (s.modGroup g f).shares = s.shares := by
  unfold State.modGroup; split <;> simp
@[simp] theorem State.modGroup_routes (s : State) (g : Nat) (f : Group → Group) : (s.modGroup g f).routes = s.routes := by
  unfold State.modGroup; split <;> simp
@[simp] theorem State.modGroup_outbound (s : State) (g : Nat) (f : Group → Group) : (s.modGroup g f).outbound = s.outbound := by
  unfold State.modGroup; split <;> simp
@[simp] theorem State.modGroup_ports (s : State) (g : Nat) (f : Group → Group) : (s.modGroup g f).ports = s.ports := by
  unfold State.modGroup; split <;> simp
@[simp] theorem State.modGroup_outbox (s : State) (g : Nat) (f : Group → Group) : (s.modGroup g f).outbox = s.outbox := by
  unfold State.modGroup; split <;> simp
@[simp] theorem State.modGroup_module (s : State) (g : Nat) (f : Group → Group) : (s.modGroup g f).module = s.module := by
  unfold State.modGroup; split <;> simp
@[simp] theorem State.modGroup_measured (s : State) (g : Nat) (f : Group → Group) : (s.modGroup g f).measured = s.measured := by
  unfold State.modGroup; split <;> simp
@[simp] theorem State.modGroup_doe (s : State) (g : Nat) (f : Group → Group) : (s.modGroup g f).doe = s.doe := by
  unfold State.modGroup; split <;> simp
@[simp] theorem State.modGroup_calib (s : State) (g : Nat) (f : Group → Group) : (s.modGroup g f).calib = s.calib := by
  unfold State.modGroup; split <;> simp
@[simp] theorem State.modGroup_issued (s : State) (g : Nat) (f : Group → Group) : (s.modGroup g f).issued = s.issued := by
  unfold State.modGroup; split <;> simp
@[simp] theorem State.modGroup_agenda (s : State) (g : Nat) (f : Group → Group) : (s.modGroup g f).agenda = s.agenda := by
  unfold State.modGroup; split <;> simp
@[simp] theorem State.modGroup_subject (s : State) (g : Nat) (f : Group → Group) : (s.modGroup g f).subject = s.subject := by
  unfold State.modGroup; split <;> simp
@[simp] theorem State.modGroup_free (s : State) (g : Nat) (f : Group → Group) : (s.modGroup g f).free = s.free := by
  unfold State.modGroup; split <;> simp
@[simp] theorem State.modGroup_order (s : State) (g : Nat) (f : Group → Group) : (s.modGroup g f).order = s.order := by
  unfold State.modGroup; split <;> simp
@[simp] theorem State.modGroup_nextId (s : State) (g : Nat) (f : Group → Group) : (s.modGroup g f).nextId = s.nextId := by
  unfold State.modGroup; split <;> simp

/-- A group that is not gone is what was put there. -/
theorem State.group?_setGroup (s : State) (g : Nat) (x : Group) (h : x.status ≠ .absent) : (s.setGroup g x).group? g = some x := by
  unfold State.setGroup State.group?
  split <;> simp [*]

/-- Another group is not touched. -/
theorem State.group?_setGroup_other (s : State) {g a : Nat} (x : Group) (h : g ≠ a) : (s.setGroup g x).group? a = s.group? a := by
  unfold State.setGroup State.group?
  by_cases h1 : g = s.meId
  · have h2 : a ≠ s.meId := fun e => h (h1.trans e.symm)
    simp [h1, h2]
  · simp [h1, h]

theorem State.setGroup_me (s : State) (x : Group) : s.setGroup s.meId x = { s with me := x } := by simp [State.setGroup]

/-! ### Scalar and predicate registers -/

@[simp] theorem State.setScalar_time (s : State) (d : BitVec 8) (x : Word) : (s.setScalar d x).time = s.time := by
  unfold State.setScalar; rfl
@[simp] theorem State.setScalar_meId (s : State) (d : BitVec 8) (x : Word) : (s.setScalar d x).meId = s.meId := by
  unfold State.setScalar; rfl
@[simp] theorem State.setScalar_others (s : State) (d : BitVec 8) (x : Word) : (s.setScalar d x).others = s.others := by
  unfold State.setScalar; rfl
@[simp] theorem State.setScalar_teams (s : State) (d : BitVec 8) (x : Word) : (s.setScalar d x).teams = s.teams := by
  unfold State.setScalar; rfl
@[simp] theorem State.setScalar_cohorts (s : State) (d : BitVec 8) (x : Word) : (s.setScalar d x).cohorts = s.cohorts := by
  unfold State.setScalar; rfl
@[simp] theorem State.setScalar_cores (s : State) (d : BitVec 8) (x : Word) : (s.setScalar d x).cores = s.cores := by
  unfold State.setScalar; rfl
@[simp] theorem State.setScalar_clusters (s : State) (d : BitVec 8) (x : Word) : (s.setScalar d x).clusters = s.clusters := by
  unfold State.setScalar; rfl
@[simp] theorem State.setScalar_culverts (s : State) (d : BitVec 8) (x : Word) : (s.setScalar d x).culverts = s.culverts := by
  unfold State.setScalar; rfl
@[simp] theorem State.setScalar_parts (s : State) (d : BitVec 8) (x : Word) : (s.setScalar d x).parts = s.parts := by
  unfold State.setScalar; rfl
@[simp] theorem State.setScalar_mem (s : State) (d : BitVec 8) (x : Word) : (s.setScalar d x).mem = s.mem := by
  unfold State.setScalar; rfl
@[simp] theorem State.setScalar_damaged (s : State) (d : BitVec 8) (x : Word) : (s.setScalar d x).damaged = s.damaged := by
  unfold State.setScalar; rfl
@[simp] theorem State.setScalar_codes (s : State) (d : BitVec 8) (x : Word) : (s.setScalar d x).codes = s.codes := by
  unfold State.setScalar; rfl
@[simp] theorem State.setScalar_spDamage (s : State) (d : BitVec 8) (x : Word) : (s.setScalar d x).spDamage = s.spDamage := by
  unfold State.setScalar; rfl
@[simp] theorem State.setScalar_retries (s : State) (d : BitVec 8) (x : Word) : (s.setScalar d x).retries = s.retries := by
  unfold State.setScalar; rfl
@[simp] theorem State.setScalar_hwAsks (s : State) (d : BitVec 8) (x : Word) : (s.setScalar d x).hwAsks = s.hwAsks := by
  unfold State.setScalar; rfl
@[simp] theorem State.setScalar_inbox (s : State) (d : BitVec 8) (x : Word) : (s.setScalar d x).inbox = s.inbox := by
  unfold State.setScalar; rfl
@[simp] theorem State.setScalar_hostQs (s : State) (d : BitVec 8) (x : Word) : (s.setScalar d x).hostQs = s.hostQs := by
  unfold State.setScalar; rfl
@[simp] theorem State.setScalar_shares (s : State) (d : BitVec 8) (x : Word) : (s.setScalar d x).shares = s.shares := by
  unfold State.setScalar; rfl
@[simp] theorem State.setScalar_routes (s : State) (d : BitVec 8) (x : Word) : (s.setScalar d x).routes = s.routes := by
  unfold State.setScalar; rfl
@[simp] theorem State.setScalar_outbound (s : State) (d : BitVec 8) (x : Word) : (s.setScalar d x).outbound = s.outbound := by
  unfold State.setScalar; rfl
@[simp] theorem State.setScalar_ports (s : State) (d : BitVec 8) (x : Word) : (s.setScalar d x).ports = s.ports := by
  unfold State.setScalar; rfl
@[simp] theorem State.setScalar_outbox (s : State) (d : BitVec 8) (x : Word) : (s.setScalar d x).outbox = s.outbox := by
  unfold State.setScalar; rfl
@[simp] theorem State.setScalar_module (s : State) (d : BitVec 8) (x : Word) : (s.setScalar d x).module = s.module := by
  unfold State.setScalar; rfl
@[simp] theorem State.setScalar_measured (s : State) (d : BitVec 8) (x : Word) : (s.setScalar d x).measured = s.measured := by
  unfold State.setScalar; rfl
@[simp] theorem State.setScalar_doe (s : State) (d : BitVec 8) (x : Word) : (s.setScalar d x).doe = s.doe := by
  unfold State.setScalar; rfl
@[simp] theorem State.setScalar_calib (s : State) (d : BitVec 8) (x : Word) : (s.setScalar d x).calib = s.calib := by
  unfold State.setScalar; rfl
@[simp] theorem State.setScalar_issued (s : State) (d : BitVec 8) (x : Word) : (s.setScalar d x).issued = s.issued := by
  unfold State.setScalar; rfl
@[simp] theorem State.setScalar_agenda (s : State) (d : BitVec 8) (x : Word) : (s.setScalar d x).agenda = s.agenda := by
  unfold State.setScalar; rfl
@[simp] theorem State.setScalar_subject (s : State) (d : BitVec 8) (x : Word) : (s.setScalar d x).subject = s.subject := by
  unfold State.setScalar; rfl
@[simp] theorem State.setScalar_free (s : State) (d : BitVec 8) (x : Word) : (s.setScalar d x).free = s.free := by
  unfold State.setScalar; rfl
@[simp] theorem State.setScalar_order (s : State) (d : BitVec 8) (x : Word) : (s.setScalar d x).order = s.order := by
  unfold State.setScalar; rfl
@[simp] theorem State.setScalar_nextId (s : State) (d : BitVec 8) (x : Word) : (s.setScalar d x).nextId = s.nextId := by
  unfold State.setScalar; rfl

@[simp] theorem State.setPred_time (s : State) (n : Nat) (x : BitVec 32) : (s.setPred n x).time = s.time := by
  unfold State.setPred; rfl
@[simp] theorem State.setPred_meId (s : State) (n : Nat) (x : BitVec 32) : (s.setPred n x).meId = s.meId := by
  unfold State.setPred; rfl
@[simp] theorem State.setPred_others (s : State) (n : Nat) (x : BitVec 32) : (s.setPred n x).others = s.others := by
  unfold State.setPred; rfl
@[simp] theorem State.setPred_teams (s : State) (n : Nat) (x : BitVec 32) : (s.setPred n x).teams = s.teams := by
  unfold State.setPred; rfl
@[simp] theorem State.setPred_cohorts (s : State) (n : Nat) (x : BitVec 32) : (s.setPred n x).cohorts = s.cohorts := by
  unfold State.setPred; rfl
@[simp] theorem State.setPred_cores (s : State) (n : Nat) (x : BitVec 32) : (s.setPred n x).cores = s.cores := by
  unfold State.setPred; rfl
@[simp] theorem State.setPred_clusters (s : State) (n : Nat) (x : BitVec 32) : (s.setPred n x).clusters = s.clusters := by
  unfold State.setPred; rfl
@[simp] theorem State.setPred_culverts (s : State) (n : Nat) (x : BitVec 32) : (s.setPred n x).culverts = s.culverts := by
  unfold State.setPred; rfl
@[simp] theorem State.setPred_parts (s : State) (n : Nat) (x : BitVec 32) : (s.setPred n x).parts = s.parts := by
  unfold State.setPred; rfl
@[simp] theorem State.setPred_mem (s : State) (n : Nat) (x : BitVec 32) : (s.setPred n x).mem = s.mem := by
  unfold State.setPred; rfl
@[simp] theorem State.setPred_damaged (s : State) (n : Nat) (x : BitVec 32) : (s.setPred n x).damaged = s.damaged := by
  unfold State.setPred; rfl
@[simp] theorem State.setPred_codes (s : State) (n : Nat) (x : BitVec 32) : (s.setPred n x).codes = s.codes := by
  unfold State.setPred; rfl
@[simp] theorem State.setPred_spDamage (s : State) (n : Nat) (x : BitVec 32) : (s.setPred n x).spDamage = s.spDamage := by
  unfold State.setPred; rfl
@[simp] theorem State.setPred_retries (s : State) (n : Nat) (x : BitVec 32) : (s.setPred n x).retries = s.retries := by
  unfold State.setPred; rfl
@[simp] theorem State.setPred_hwAsks (s : State) (n : Nat) (x : BitVec 32) : (s.setPred n x).hwAsks = s.hwAsks := by
  unfold State.setPred; rfl
@[simp] theorem State.setPred_inbox (s : State) (n : Nat) (x : BitVec 32) : (s.setPred n x).inbox = s.inbox := by
  unfold State.setPred; rfl
@[simp] theorem State.setPred_hostQs (s : State) (n : Nat) (x : BitVec 32) : (s.setPred n x).hostQs = s.hostQs := by
  unfold State.setPred; rfl
@[simp] theorem State.setPred_shares (s : State) (n : Nat) (x : BitVec 32) : (s.setPred n x).shares = s.shares := by
  unfold State.setPred; rfl
@[simp] theorem State.setPred_routes (s : State) (n : Nat) (x : BitVec 32) : (s.setPred n x).routes = s.routes := by
  unfold State.setPred; rfl
@[simp] theorem State.setPred_outbound (s : State) (n : Nat) (x : BitVec 32) : (s.setPred n x).outbound = s.outbound := by
  unfold State.setPred; rfl
@[simp] theorem State.setPred_ports (s : State) (n : Nat) (x : BitVec 32) : (s.setPred n x).ports = s.ports := by
  unfold State.setPred; rfl
@[simp] theorem State.setPred_outbox (s : State) (n : Nat) (x : BitVec 32) : (s.setPred n x).outbox = s.outbox := by
  unfold State.setPred; rfl
@[simp] theorem State.setPred_module (s : State) (n : Nat) (x : BitVec 32) : (s.setPred n x).module = s.module := by
  unfold State.setPred; rfl
@[simp] theorem State.setPred_measured (s : State) (n : Nat) (x : BitVec 32) : (s.setPred n x).measured = s.measured := by
  unfold State.setPred; rfl
@[simp] theorem State.setPred_doe (s : State) (n : Nat) (x : BitVec 32) : (s.setPred n x).doe = s.doe := by
  unfold State.setPred; rfl
@[simp] theorem State.setPred_calib (s : State) (n : Nat) (x : BitVec 32) : (s.setPred n x).calib = s.calib := by
  unfold State.setPred; rfl
@[simp] theorem State.setPred_issued (s : State) (n : Nat) (x : BitVec 32) : (s.setPred n x).issued = s.issued := by
  unfold State.setPred; rfl
@[simp] theorem State.setPred_agenda (s : State) (n : Nat) (x : BitVec 32) : (s.setPred n x).agenda = s.agenda := by
  unfold State.setPred; rfl
@[simp] theorem State.setPred_subject (s : State) (n : Nat) (x : BitVec 32) : (s.setPred n x).subject = s.subject := by
  unfold State.setPred; rfl
@[simp] theorem State.setPred_free (s : State) (n : Nat) (x : BitVec 32) : (s.setPred n x).free = s.free := by
  unfold State.setPred; rfl
@[simp] theorem State.setPred_order (s : State) (n : Nat) (x : BitVec 32) : (s.setPred n x).order = s.order := by
  unfold State.setPred; rfl
@[simp] theorem State.setPred_nextId (s : State) (n : Nat) (x : BitVec 32) : (s.setPred n x).nextId = s.nextId := by
  unfold State.setPred; rfl

end Sys2Proof.Machine
end

