-- ==== Sys2Proof/Laws/Group.lean ====
section
/-!
SUPPORT. What the writes of a group's registers and its next-address clause leave unchanged, field by field.
-/

namespace Sys2Proof.Machine

open Sys2Proof

@[simp] theorem State.setScalar_me (s : State) (d : BitVec 8) (x : Word) : (s.setScalar d x).me = s.me.setScalar d x := rfl

@[simp] theorem State.setPred_me (s : State) (n : Nat) (x : BitVec 32) : (s.setPred n x).me = s.me.setPred n x := rfl

@[simp] theorem Group.setScalar_status (g : Group) (d : BitVec 8) (x : Word) : (g.setScalar d x).status = g.status := by
  unfold Group.setScalar; split <;> rfl
@[simp] theorem Group.setScalar_team (g : Group) (d : BitVec 8) (x : Word) : (g.setScalar d x).team = g.team := by
  unfold Group.setScalar; split <;> rfl
@[simp] theorem Group.setScalar_index (g : Group) (d : BitVec 8) (x : Word) : (g.setScalar d x).index = g.index := by
  unfold Group.setScalar; split <;> rfl
@[simp] theorem Group.setScalar_core (g : Group) (d : BitVec 8) (x : Word) : (g.setScalar d x).core = g.core := by
  unfold Group.setScalar; split <;> rfl
@[simp] theorem Group.setScalar_role (g : Group) (d : BitVec 8) (x : Word) : (g.setScalar d x).role = g.role := by
  unfold Group.setScalar; split <;> rfl
@[simp] theorem Group.setScalar_pc (g : Group) (d : BitVec 8) (x : Word) : (g.setScalar d x).pc = g.pc := by
  unfold Group.setScalar; split <;> rfl
@[simp] theorem Group.setScalar_regs (g : Group) (d : BitVec 8) (x : Word) : (g.setScalar d x).regs = g.regs := by
  unfold Group.setScalar; split <;> rfl
@[simp] theorem Group.setScalar_ofile (g : Group) (d : BitVec 8) (x : Word) : (g.setScalar d x).ofile = g.ofile := by
  unfold Group.setScalar; split <;> rfl
@[simp] theorem Group.setScalar_lr (g : Group) (d : BitVec 8) (x : Word) : (g.setScalar d x).lr = g.lr := by
  unfold Group.setScalar; split <;> rfl
@[simp] theorem Group.setScalar_preds (g : Group) (d : BitVec 8) (x : Word) : (g.setScalar d x).preds = g.preds := by
  unfold Group.setScalar; split <;> rfl
@[simp] theorem Group.setScalar_em (g : Group) (d : BitVec 8) (x : Word) : (g.setScalar d x).em = g.em := by
  unfold Group.setScalar; split <;> rfl
@[simp] theorem Group.setScalar_fm (g : Group) (d : BitVec 8) (x : Word) : (g.setScalar d x).fm = g.fm := by
  unfold Group.setScalar; split <;> rfl
@[simp] theorem Group.setScalar_ff (g : Group) (d : BitVec 8) (x : Word) : (g.setScalar d x).ff = g.ff := by
  unfold Group.setScalar; split <;> rfl
@[simp] theorem Group.setScalar_cb (g : Group) (d : BitVec 8) (x : Word) : (g.setScalar d x).cb = g.cb := by
  unfold Group.setScalar; split <;> rfl
@[simp] theorem Group.setScalar_ctrs (g : Group) (d : BitVec 8) (x : Word) : (g.setScalar d x).ctrs = g.ctrs := by
  unfold Group.setScalar; split <;> rfl
@[simp] theorem Group.setScalar_rstack (g : Group) (d : BitVec 8) (x : Word) : (g.setScalar d x).rstack = g.rstack := by
  unfold Group.setScalar; split <;> rfl
@[simp] theorem Group.setScalar_lstack (g : Group) (d : BitVec 8) (x : Word) : (g.setScalar d x).lstack = g.lstack := by
  unfold Group.setScalar; split <;> rfl
@[simp] theorem Group.setScalar_tvec (g : Group) (d : BitVec 8) (x : Word) : (g.setScalar d x).tvec = g.tvec := by
  unfold Group.setScalar; split <;> rfl
@[simp] theorem Group.setScalar_tcause (g : Group) (d : BitVec 8) (x : Word) : (g.setScalar d x).tcause = g.tcause := by
  unfold Group.setScalar; split <;> rfl
@[simp] theorem Group.setScalar_tepc (g : Group) (d : BitVec 8) (x : Word) : (g.setScalar d x).tepc = g.tepc := by
  unfold Group.setScalar; split <;> rfl
@[simp] theorem Group.setScalar_tval (g : Group) (d : BitVec 8) (x : Word) : (g.setScalar d x).tval = g.tval := by
  unfold Group.setScalar; split <;> rfl
@[simp] theorem Group.setScalar_tlm (g : Group) (d : BitVec 8) (x : Word) : (g.setScalar d x).tlm = g.tlm := by
  unfold Group.setScalar; split <;> rfl
@[simp] theorem Group.setScalar_depth (g : Group) (d : BitVec 8) (x : Word) : (g.setScalar d x).depth = g.depth := by
  unfold Group.setScalar; split <;> rfl
@[simp] theorem Group.setScalar_tem (g : Group) (d : BitVec 8) (x : Word) : (g.setScalar d x).tem = g.tem := by
  unfold Group.setScalar; split <;> rfl
@[simp] theorem Group.setScalar_setR (g : Group) (d : BitVec 8) (x : Word) : (g.setScalar d x).setR = g.setR := by
  unfold Group.setScalar; split <;> rfl
@[simp] theorem Group.setScalar_setL (g : Group) (d : BitVec 8) (x : Word) : (g.setScalar d x).setL = g.setL := by
  unfold Group.setScalar; split <;> rfl
@[simp] theorem Group.setScalar_relief (g : Group) (d : BitVec 8) (x : Word) : (g.setScalar d x).relief = g.relief := by
  unfold Group.setScalar; split <;> rfl
@[simp] theorem Group.setScalar_held (g : Group) (d : BitVec 8) (x : Word) : (g.setScalar d x).held = g.held := by
  unfold Group.setScalar; split <;> rfl
@[simp] theorem Group.setScalar_emg (g : Group) (d : BitVec 8) (x : Word) : (g.setScalar d x).emg = g.emg := by
  unfold Group.setScalar; split <;> rfl
@[simp] theorem Group.setScalar_pmap (g : Group) (d : BitVec 8) (x : Word) : (g.setScalar d x).pmap = g.pmap := by
  unfold Group.setScalar; split <;> rfl
@[simp] theorem Group.setScalar_lqueues (g : Group) (d : BitVec 8) (x : Word) : (g.setScalar d x).lqueues = g.lqueues := by
  unfold Group.setScalar; split <;> rfl
@[simp] theorem Group.setScalar_words (g : Group) (d : BitVec 8) (x : Word) : (g.setScalar d x).words = g.words := by
  unfold Group.setScalar; split <;> rfl
@[simp] theorem Group.setScalar_npr (g : Group) (d : BitVec 8) (x : Word) : (g.setScalar d x).npr = g.npr := by
  unfold Group.setScalar; split <;> rfl
@[simp] theorem Group.setScalar_nprt (g : Group) (d : BitVec 8) (x : Word) : (g.setScalar d x).nprt = g.nprt := by
  unfold Group.setScalar; split <;> rfl
@[simp] theorem Group.setScalar_level (g : Group) (d : BitVec 8) (x : Word) : (g.setScalar d x).level = g.level := by
  unfold Group.setScalar; split <;> rfl
@[simp] theorem Group.setScalar_batch (g : Group) (d : BitVec 8) (x : Word) : (g.setScalar d x).batch = g.batch := by
  unfold Group.setScalar; split <;> rfl
@[simp] theorem Group.setScalar_sealed (g : Group) (d : BitVec 8) (x : Word) : (g.setScalar d x).sealed = g.sealed := by
  unfold Group.setScalar; split <;> rfl
@[simp] theorem Group.setScalar_nextb (g : Group) (d : BitVec 8) (x : Word) : (g.setScalar d x).nextb = g.nextb := by
  unfold Group.setScalar; split <;> rfl
@[simp] theorem Group.setScalar_wc (g : Group) (d : BitVec 8) (x : Word) : (g.setScalar d x).wc = g.wc := by
  unfold Group.setScalar; split <;> rfl
@[simp] theorem Group.setScalar_posted (g : Group) (d : BitVec 8) (x : Word) : (g.setScalar d x).posted = g.posted := by
  unfold Group.setScalar; split <;> rfl
@[simp] theorem Group.setScalar_splits (g : Group) (d : BitVec 8) (x : Word) : (g.setScalar d x).splits = g.splits := by
  unfold Group.setScalar; split <;> rfl
@[simp] theorem Group.setScalar_win (g : Group) (d : BitVec 8) (x : Word) : (g.setScalar d x).win = g.win := by
  unfold Group.setScalar; split <;> rfl
@[simp] theorem Group.setScalar_wait (g : Group) (d : BitVec 8) (x : Word) : (g.setScalar d x).wait = g.wait := by
  unfold Group.setScalar; split <;> rfl
@[simp] theorem Group.setScalar_waited (g : Group) (d : BitVec 8) (x : Word) : (g.setScalar d x).waited = g.waited := by
  unfold Group.setScalar; split <;> rfl
@[simp] theorem Group.setScalar_notBefore (g : Group) (d : BitVec 8) (x : Word) : (g.setScalar d x).notBefore = g.notBefore := by
  unfold Group.setScalar; split <;> rfl
@[simp] theorem Group.setScalar_pend (g : Group) (d : BitVec 8) (x : Word) : (g.setScalar d x).pend = g.pend := by
  unfold Group.setScalar; split <;> rfl
@[simp] theorem Group.setScalar_parked (g : Group) (d : BitVec 8) (x : Word) : (g.setScalar d x).parked = g.parked := by
  unfold Group.setScalar; split <;> rfl
@[simp] theorem Group.setScalar_granted (g : Group) (d : BitVec 8) (x : Word) : (g.setScalar d x).granted = g.granted := by
  unfold Group.setScalar; split <;> rfl
@[simp] theorem Group.setScalar_raised (g : Group) (d : BitVec 8) (x : Word) : (g.setScalar d x).raised = g.raised := by
  unfold Group.setScalar; split <;> rfl
@[simp] theorem Group.setScalar_asked (g : Group) (d : BitVec 8) (x : Word) : (g.setScalar d x).asked = g.asked := by
  unfold Group.setScalar; split <;> rfl
@[simp] theorem Group.setScalar_bargen (g : Group) (d : BitVec 8) (x : Word) : (g.setScalar d x).bargen = g.bargen := by
  unfold Group.setScalar; split <;> rfl
@[simp] theorem Group.setScalar_xw (g : Group) (d : BitVec 8) (x : Word) : (g.setScalar d x).xw = g.xw := by
  unfold Group.setScalar; split <;> rfl
@[simp] theorem Group.setScalar_fetched (g : Group) (d : BitVec 8) (x : Word) : (g.setScalar d x).fetched = g.fetched := by
  unfold Group.setScalar; split <;> rfl
@[simp] theorem Group.setScalar_sched (g : Group) (d : BitVec 8) (x : Word) : (g.setScalar d x).sched = g.sched := by
  unfold Group.setScalar; split <;> rfl
@[simp] theorem Group.setScalar_age (g : Group) (d : BitVec 8) (x : Word) : (g.setScalar d x).age = g.age := by
  unfold Group.setScalar; split <;> rfl
@[simp] theorem Group.setScalar_stay (g : Group) (d : BitVec 8) (x : Word) : (g.setScalar d x).stay = g.stay := by
  unfold Group.setScalar; split <;> rfl
@[simp] theorem Group.setScalar_ready (g : Group) (d : BitVec 8) (x : Word) : (g.setScalar d x).ready = g.ready := by
  unfold Group.setScalar; split <;> rfl
@[simp] theorem Group.setScalar_promo (g : Group) (d : BitVec 8) (x : Word) : (g.setScalar d x).promo = g.promo := by
  unfold Group.setScalar; split <;> rfl
@[simp] theorem Group.setScalar_yielded (g : Group) (d : BitVec 8) (x : Word) : (g.setScalar d x).yielded = g.yielded := by
  unfold Group.setScalar; split <;> rfl
@[simp] theorem Group.setScalar_stopAt (g : Group) (d : BitVec 8) (x : Word) : (g.setScalar d x).stopAt = g.stopAt := by
  unfold Group.setScalar; split <;> rfl
@[simp] theorem Group.setScalar_want (g : Group) (d : BitVec 8) (x : Word) : (g.setScalar d x).want = g.want := by
  unfold Group.setScalar; split <;> rfl
@[simp] theorem Group.setScalar_tres (g : Group) (d : BitVec 8) (x : Word) : (g.setScalar d x).tres = g.tres := by
  unfold Group.setScalar; split <;> rfl
@[simp] theorem Group.setScalar_ident (g : Group) (d : BitVec 8) (x : Word) : (g.setScalar d x).ident = g.ident := by
  unfold Group.setScalar; split <;> rfl

@[simp] theorem Group.setPred_status (g : Group) (n : Nat) (x : BitVec 32) : (g.setPred n x).status = g.status := rfl
@[simp] theorem Group.setPred_team (g : Group) (n : Nat) (x : BitVec 32) : (g.setPred n x).team = g.team := rfl
@[simp] theorem Group.setPred_index (g : Group) (n : Nat) (x : BitVec 32) : (g.setPred n x).index = g.index := rfl
@[simp] theorem Group.setPred_core (g : Group) (n : Nat) (x : BitVec 32) : (g.setPred n x).core = g.core := rfl
@[simp] theorem Group.setPred_role (g : Group) (n : Nat) (x : BitVec 32) : (g.setPred n x).role = g.role := rfl
@[simp] theorem Group.setPred_pc (g : Group) (n : Nat) (x : BitVec 32) : (g.setPred n x).pc = g.pc := rfl
@[simp] theorem Group.setPred_regs (g : Group) (n : Nat) (x : BitVec 32) : (g.setPred n x).regs = g.regs := rfl
@[simp] theorem Group.setPred_ofile (g : Group) (n : Nat) (x : BitVec 32) : (g.setPred n x).ofile = g.ofile := rfl
@[simp] theorem Group.setPred_lr (g : Group) (n : Nat) (x : BitVec 32) : (g.setPred n x).lr = g.lr := rfl
@[simp] theorem Group.setPred_sregs (g : Group) (n : Nat) (x : BitVec 32) : (g.setPred n x).sregs = g.sregs := rfl
@[simp] theorem Group.setPred_em (g : Group) (n : Nat) (x : BitVec 32) : (g.setPred n x).em = g.em := rfl
@[simp] theorem Group.setPred_fm (g : Group) (n : Nat) (x : BitVec 32) : (g.setPred n x).fm = g.fm := rfl
@[simp] theorem Group.setPred_ff (g : Group) (n : Nat) (x : BitVec 32) : (g.setPred n x).ff = g.ff := rfl
@[simp] theorem Group.setPred_cb (g : Group) (n : Nat) (x : BitVec 32) : (g.setPred n x).cb = g.cb := rfl
@[simp] theorem Group.setPred_ctrs (g : Group) (n : Nat) (x : BitVec 32) : (g.setPred n x).ctrs = g.ctrs := rfl
@[simp] theorem Group.setPred_rstack (g : Group) (n : Nat) (x : BitVec 32) : (g.setPred n x).rstack = g.rstack := rfl
@[simp] theorem Group.setPred_lstack (g : Group) (n : Nat) (x : BitVec 32) : (g.setPred n x).lstack = g.lstack := rfl
@[simp] theorem Group.setPred_tvec (g : Group) (n : Nat) (x : BitVec 32) : (g.setPred n x).tvec = g.tvec := rfl
@[simp] theorem Group.setPred_tcause (g : Group) (n : Nat) (x : BitVec 32) : (g.setPred n x).tcause = g.tcause := rfl
@[simp] theorem Group.setPred_tepc (g : Group) (n : Nat) (x : BitVec 32) : (g.setPred n x).tepc = g.tepc := rfl
@[simp] theorem Group.setPred_tval (g : Group) (n : Nat) (x : BitVec 32) : (g.setPred n x).tval = g.tval := rfl
@[simp] theorem Group.setPred_tlm (g : Group) (n : Nat) (x : BitVec 32) : (g.setPred n x).tlm = g.tlm := rfl
@[simp] theorem Group.setPred_depth (g : Group) (n : Nat) (x : BitVec 32) : (g.setPred n x).depth = g.depth := rfl
@[simp] theorem Group.setPred_tem (g : Group) (n : Nat) (x : BitVec 32) : (g.setPred n x).tem = g.tem := rfl
@[simp] theorem Group.setPred_setR (g : Group) (n : Nat) (x : BitVec 32) : (g.setPred n x).setR = g.setR := rfl
@[simp] theorem Group.setPred_setL (g : Group) (n : Nat) (x : BitVec 32) : (g.setPred n x).setL = g.setL := rfl
@[simp] theorem Group.setPred_relief (g : Group) (n : Nat) (x : BitVec 32) : (g.setPred n x).relief = g.relief := rfl
@[simp] theorem Group.setPred_held (g : Group) (n : Nat) (x : BitVec 32) : (g.setPred n x).held = g.held := rfl
@[simp] theorem Group.setPred_emg (g : Group) (n : Nat) (x : BitVec 32) : (g.setPred n x).emg = g.emg := rfl
@[simp] theorem Group.setPred_pmap (g : Group) (n : Nat) (x : BitVec 32) : (g.setPred n x).pmap = g.pmap := rfl
@[simp] theorem Group.setPred_lqueues (g : Group) (n : Nat) (x : BitVec 32) : (g.setPred n x).lqueues = g.lqueues := rfl
@[simp] theorem Group.setPred_words (g : Group) (n : Nat) (x : BitVec 32) : (g.setPred n x).words = g.words := rfl
@[simp] theorem Group.setPred_npr (g : Group) (n : Nat) (x : BitVec 32) : (g.setPred n x).npr = g.npr := rfl
@[simp] theorem Group.setPred_nprt (g : Group) (n : Nat) (x : BitVec 32) : (g.setPred n x).nprt = g.nprt := rfl
@[simp] theorem Group.setPred_level (g : Group) (n : Nat) (x : BitVec 32) : (g.setPred n x).level = g.level := rfl
@[simp] theorem Group.setPred_batch (g : Group) (n : Nat) (x : BitVec 32) : (g.setPred n x).batch = g.batch := rfl
@[simp] theorem Group.setPred_sealed (g : Group) (n : Nat) (x : BitVec 32) : (g.setPred n x).sealed = g.sealed := rfl
@[simp] theorem Group.setPred_nextb (g : Group) (n : Nat) (x : BitVec 32) : (g.setPred n x).nextb = g.nextb := rfl
@[simp] theorem Group.setPred_wc (g : Group) (n : Nat) (x : BitVec 32) : (g.setPred n x).wc = g.wc := rfl
@[simp] theorem Group.setPred_posted (g : Group) (n : Nat) (x : BitVec 32) : (g.setPred n x).posted = g.posted := rfl
@[simp] theorem Group.setPred_splits (g : Group) (n : Nat) (x : BitVec 32) : (g.setPred n x).splits = g.splits := rfl
@[simp] theorem Group.setPred_win (g : Group) (n : Nat) (x : BitVec 32) : (g.setPred n x).win = g.win := rfl
@[simp] theorem Group.setPred_wait (g : Group) (n : Nat) (x : BitVec 32) : (g.setPred n x).wait = g.wait := rfl
@[simp] theorem Group.setPred_waited (g : Group) (n : Nat) (x : BitVec 32) : (g.setPred n x).waited = g.waited := rfl
@[simp] theorem Group.setPred_notBefore (g : Group) (n : Nat) (x : BitVec 32) : (g.setPred n x).notBefore = g.notBefore := rfl
@[simp] theorem Group.setPred_pend (g : Group) (n : Nat) (x : BitVec 32) : (g.setPred n x).pend = g.pend := rfl
@[simp] theorem Group.setPred_parked (g : Group) (n : Nat) (x : BitVec 32) : (g.setPred n x).parked = g.parked := rfl
@[simp] theorem Group.setPred_granted (g : Group) (n : Nat) (x : BitVec 32) : (g.setPred n x).granted = g.granted := rfl
@[simp] theorem Group.setPred_raised (g : Group) (n : Nat) (x : BitVec 32) : (g.setPred n x).raised = g.raised := rfl
@[simp] theorem Group.setPred_asked (g : Group) (n : Nat) (x : BitVec 32) : (g.setPred n x).asked = g.asked := rfl
@[simp] theorem Group.setPred_bargen (g : Group) (n : Nat) (x : BitVec 32) : (g.setPred n x).bargen = g.bargen := rfl
@[simp] theorem Group.setPred_xw (g : Group) (n : Nat) (x : BitVec 32) : (g.setPred n x).xw = g.xw := rfl
@[simp] theorem Group.setPred_fetched (g : Group) (n : Nat) (x : BitVec 32) : (g.setPred n x).fetched = g.fetched := rfl
@[simp] theorem Group.setPred_sched (g : Group) (n : Nat) (x : BitVec 32) : (g.setPred n x).sched = g.sched := rfl
@[simp] theorem Group.setPred_age (g : Group) (n : Nat) (x : BitVec 32) : (g.setPred n x).age = g.age := rfl
@[simp] theorem Group.setPred_stay (g : Group) (n : Nat) (x : BitVec 32) : (g.setPred n x).stay = g.stay := rfl
@[simp] theorem Group.setPred_ready (g : Group) (n : Nat) (x : BitVec 32) : (g.setPred n x).ready = g.ready := rfl
@[simp] theorem Group.setPred_promo (g : Group) (n : Nat) (x : BitVec 32) : (g.setPred n x).promo = g.promo := rfl
@[simp] theorem Group.setPred_yielded (g : Group) (n : Nat) (x : BitVec 32) : (g.setPred n x).yielded = g.yielded := rfl
@[simp] theorem Group.setPred_stopAt (g : Group) (n : Nat) (x : BitVec 32) : (g.setPred n x).stopAt = g.stopAt := rfl
@[simp] theorem Group.setPred_want (g : Group) (n : Nat) (x : BitVec 32) : (g.setPred n x).want = g.want := rfl
@[simp] theorem Group.setPred_tres (g : Group) (n : Nat) (x : BitVec 32) : (g.setPred n x).tres = g.tres := rfl
@[simp] theorem Group.setPred_ident (g : Group) (n : Nat) (x : BitVec 32) : (g.setPred n x).ident = g.ident := rfl

@[simp] theorem Group.setMask_status (g : Group) (x : BitVec 32) : (g.setMask x).status = g.status := rfl
@[simp] theorem Group.setMask_team (g : Group) (x : BitVec 32) : (g.setMask x).team = g.team := rfl
@[simp] theorem Group.setMask_index (g : Group) (x : BitVec 32) : (g.setMask x).index = g.index := rfl
@[simp] theorem Group.setMask_core (g : Group) (x : BitVec 32) : (g.setMask x).core = g.core := rfl
@[simp] theorem Group.setMask_role (g : Group) (x : BitVec 32) : (g.setMask x).role = g.role := rfl
@[simp] theorem Group.setMask_pc (g : Group) (x : BitVec 32) : (g.setMask x).pc = g.pc := rfl
@[simp] theorem Group.setMask_regs (g : Group) (x : BitVec 32) : (g.setMask x).regs = g.regs := rfl
@[simp] theorem Group.setMask_ofile (g : Group) (x : BitVec 32) : (g.setMask x).ofile = g.ofile := rfl
@[simp] theorem Group.setMask_lr (g : Group) (x : BitVec 32) : (g.setMask x).lr = g.lr := rfl
@[simp] theorem Group.setMask_sregs (g : Group) (x : BitVec 32) : (g.setMask x).sregs = g.sregs := rfl
@[simp] theorem Group.setMask_preds (g : Group) (x : BitVec 32) : (g.setMask x).preds = g.preds := rfl
@[simp] theorem Group.setMask_fm (g : Group) (x : BitVec 32) : (g.setMask x).fm = g.fm := rfl
@[simp] theorem Group.setMask_ff (g : Group) (x : BitVec 32) : (g.setMask x).ff = g.ff := rfl
@[simp] theorem Group.setMask_cb (g : Group) (x : BitVec 32) : (g.setMask x).cb = g.cb := rfl
@[simp] theorem Group.setMask_ctrs (g : Group) (x : BitVec 32) : (g.setMask x).ctrs = g.ctrs := rfl
@[simp] theorem Group.setMask_rstack (g : Group) (x : BitVec 32) : (g.setMask x).rstack = g.rstack := rfl
@[simp] theorem Group.setMask_lstack (g : Group) (x : BitVec 32) : (g.setMask x).lstack = g.lstack := rfl
@[simp] theorem Group.setMask_tvec (g : Group) (x : BitVec 32) : (g.setMask x).tvec = g.tvec := rfl
@[simp] theorem Group.setMask_tcause (g : Group) (x : BitVec 32) : (g.setMask x).tcause = g.tcause := rfl
@[simp] theorem Group.setMask_tepc (g : Group) (x : BitVec 32) : (g.setMask x).tepc = g.tepc := rfl
@[simp] theorem Group.setMask_tval (g : Group) (x : BitVec 32) : (g.setMask x).tval = g.tval := rfl
@[simp] theorem Group.setMask_tlm (g : Group) (x : BitVec 32) : (g.setMask x).tlm = g.tlm := rfl
@[simp] theorem Group.setMask_depth (g : Group) (x : BitVec 32) : (g.setMask x).depth = g.depth := rfl
@[simp] theorem Group.setMask_tem (g : Group) (x : BitVec 32) : (g.setMask x).tem = g.tem := rfl
@[simp] theorem Group.setMask_setR (g : Group) (x : BitVec 32) : (g.setMask x).setR = g.setR := rfl
@[simp] theorem Group.setMask_setL (g : Group) (x : BitVec 32) : (g.setMask x).setL = g.setL := rfl
@[simp] theorem Group.setMask_relief (g : Group) (x : BitVec 32) : (g.setMask x).relief = g.relief := rfl
@[simp] theorem Group.setMask_held (g : Group) (x : BitVec 32) : (g.setMask x).held = g.held := rfl
@[simp] theorem Group.setMask_emg (g : Group) (x : BitVec 32) : (g.setMask x).emg = g.emg := rfl
@[simp] theorem Group.setMask_pmap (g : Group) (x : BitVec 32) : (g.setMask x).pmap = g.pmap := rfl
@[simp] theorem Group.setMask_lqueues (g : Group) (x : BitVec 32) : (g.setMask x).lqueues = g.lqueues := rfl
@[simp] theorem Group.setMask_words (g : Group) (x : BitVec 32) : (g.setMask x).words = g.words := rfl
@[simp] theorem Group.setMask_npr (g : Group) (x : BitVec 32) : (g.setMask x).npr = g.npr := rfl
@[simp] theorem Group.setMask_nprt (g : Group) (x : BitVec 32) : (g.setMask x).nprt = g.nprt := rfl
@[simp] theorem Group.setMask_level (g : Group) (x : BitVec 32) : (g.setMask x).level = g.level := rfl
@[simp] theorem Group.setMask_batch (g : Group) (x : BitVec 32) : (g.setMask x).batch = g.batch := rfl
@[simp] theorem Group.setMask_sealed (g : Group) (x : BitVec 32) : (g.setMask x).sealed = g.sealed := rfl
@[simp] theorem Group.setMask_nextb (g : Group) (x : BitVec 32) : (g.setMask x).nextb = g.nextb := rfl
@[simp] theorem Group.setMask_wc (g : Group) (x : BitVec 32) : (g.setMask x).wc = g.wc := rfl
@[simp] theorem Group.setMask_posted (g : Group) (x : BitVec 32) : (g.setMask x).posted = g.posted := rfl
@[simp] theorem Group.setMask_splits (g : Group) (x : BitVec 32) : (g.setMask x).splits = g.splits := rfl
@[simp] theorem Group.setMask_win (g : Group) (x : BitVec 32) : (g.setMask x).win = g.win := rfl
@[simp] theorem Group.setMask_wait (g : Group) (x : BitVec 32) : (g.setMask x).wait = g.wait := rfl
@[simp] theorem Group.setMask_waited (g : Group) (x : BitVec 32) : (g.setMask x).waited = g.waited := rfl
@[simp] theorem Group.setMask_notBefore (g : Group) (x : BitVec 32) : (g.setMask x).notBefore = g.notBefore := rfl
@[simp] theorem Group.setMask_pend (g : Group) (x : BitVec 32) : (g.setMask x).pend = g.pend := rfl
@[simp] theorem Group.setMask_parked (g : Group) (x : BitVec 32) : (g.setMask x).parked = g.parked := rfl
@[simp] theorem Group.setMask_granted (g : Group) (x : BitVec 32) : (g.setMask x).granted = g.granted := rfl
@[simp] theorem Group.setMask_raised (g : Group) (x : BitVec 32) : (g.setMask x).raised = g.raised := rfl
@[simp] theorem Group.setMask_asked (g : Group) (x : BitVec 32) : (g.setMask x).asked = g.asked := rfl
@[simp] theorem Group.setMask_bargen (g : Group) (x : BitVec 32) : (g.setMask x).bargen = g.bargen := rfl
@[simp] theorem Group.setMask_xw (g : Group) (x : BitVec 32) : (g.setMask x).xw = g.xw := rfl
@[simp] theorem Group.setMask_fetched (g : Group) (x : BitVec 32) : (g.setMask x).fetched = g.fetched := rfl
@[simp] theorem Group.setMask_sched (g : Group) (x : BitVec 32) : (g.setMask x).sched = g.sched := rfl
@[simp] theorem Group.setMask_age (g : Group) (x : BitVec 32) : (g.setMask x).age = g.age := rfl
@[simp] theorem Group.setMask_stay (g : Group) (x : BitVec 32) : (g.setMask x).stay = g.stay := rfl
@[simp] theorem Group.setMask_ready (g : Group) (x : BitVec 32) : (g.setMask x).ready = g.ready := rfl
@[simp] theorem Group.setMask_promo (g : Group) (x : BitVec 32) : (g.setMask x).promo = g.promo := rfl
@[simp] theorem Group.setMask_yielded (g : Group) (x : BitVec 32) : (g.setMask x).yielded = g.yielded := rfl
@[simp] theorem Group.setMask_stopAt (g : Group) (x : BitVec 32) : (g.setMask x).stopAt = g.stopAt := rfl
@[simp] theorem Group.setMask_want (g : Group) (x : BitVec 32) : (g.setMask x).want = g.want := rfl
@[simp] theorem Group.setMask_tres (g : Group) (x : BitVec 32) : (g.setMask x).tres = g.tres := rfl
@[simp] theorem Group.setMask_ident (g : Group) (x : BitVec 32) : (g.setMask x).ident = g.ident := rfl

@[simp] theorem Group.waitOn_status (g : Group) (w : Wait) (t : Nat) : (g.waitOn w t).status = g.status := by
  unfold Group.waitOn; split <;> rfl
@[simp] theorem Group.waitOn_team (g : Group) (w : Wait) (t : Nat) : (g.waitOn w t).team = g.team := by
  unfold Group.waitOn; split <;> rfl
@[simp] theorem Group.waitOn_index (g : Group) (w : Wait) (t : Nat) : (g.waitOn w t).index = g.index := by
  unfold Group.waitOn; split <;> rfl
@[simp] theorem Group.waitOn_core (g : Group) (w : Wait) (t : Nat) : (g.waitOn w t).core = g.core := by
  unfold Group.waitOn; split <;> rfl
@[simp] theorem Group.waitOn_role (g : Group) (w : Wait) (t : Nat) : (g.waitOn w t).role = g.role := by
  unfold Group.waitOn; split <;> rfl
@[simp] theorem Group.waitOn_pc (g : Group) (w : Wait) (t : Nat) : (g.waitOn w t).pc = g.pc := by
  unfold Group.waitOn; split <;> rfl
@[simp] theorem Group.waitOn_regs (g : Group) (w : Wait) (t : Nat) : (g.waitOn w t).regs = g.regs := by
  unfold Group.waitOn; split <;> rfl
@[simp] theorem Group.waitOn_ofile (g : Group) (w : Wait) (t : Nat) : (g.waitOn w t).ofile = g.ofile := by
  unfold Group.waitOn; split <;> rfl
@[simp] theorem Group.waitOn_lr (g : Group) (w : Wait) (t : Nat) : (g.waitOn w t).lr = g.lr := by
  unfold Group.waitOn; split <;> rfl
@[simp] theorem Group.waitOn_sregs (g : Group) (w : Wait) (t : Nat) : (g.waitOn w t).sregs = g.sregs := by
  unfold Group.waitOn; split <;> rfl
@[simp] theorem Group.waitOn_preds (g : Group) (w : Wait) (t : Nat) : (g.waitOn w t).preds = g.preds := by
  unfold Group.waitOn; split <;> rfl
@[simp] theorem Group.waitOn_em (g : Group) (w : Wait) (t : Nat) : (g.waitOn w t).em = g.em := by
  unfold Group.waitOn; split <;> rfl
@[simp] theorem Group.waitOn_fm (g : Group) (w : Wait) (t : Nat) : (g.waitOn w t).fm = g.fm := by
  unfold Group.waitOn; split <;> rfl
@[simp] theorem Group.waitOn_ff (g : Group) (w : Wait) (t : Nat) : (g.waitOn w t).ff = g.ff := by
  unfold Group.waitOn; split <;> rfl
@[simp] theorem Group.waitOn_cb (g : Group) (w : Wait) (t : Nat) : (g.waitOn w t).cb = g.cb := by
  unfold Group.waitOn; split <;> rfl
@[simp] theorem Group.waitOn_ctrs (g : Group) (w : Wait) (t : Nat) : (g.waitOn w t).ctrs = g.ctrs := by
  unfold Group.waitOn; split <;> rfl
@[simp] theorem Group.waitOn_rstack (g : Group) (w : Wait) (t : Nat) : (g.waitOn w t).rstack = g.rstack := by
  unfold Group.waitOn; split <;> rfl
@[simp] theorem Group.waitOn_lstack (g : Group) (w : Wait) (t : Nat) : (g.waitOn w t).lstack = g.lstack := by
  unfold Group.waitOn; split <;> rfl
@[simp] theorem Group.waitOn_tvec (g : Group) (w : Wait) (t : Nat) : (g.waitOn w t).tvec = g.tvec := by
  unfold Group.waitOn; split <;> rfl
@[simp] theorem Group.waitOn_tcause (g : Group) (w : Wait) (t : Nat) : (g.waitOn w t).tcause = g.tcause := by
  unfold Group.waitOn; split <;> rfl
@[simp] theorem Group.waitOn_tepc (g : Group) (w : Wait) (t : Nat) : (g.waitOn w t).tepc = g.tepc := by
  unfold Group.waitOn; split <;> rfl
@[simp] theorem Group.waitOn_tval (g : Group) (w : Wait) (t : Nat) : (g.waitOn w t).tval = g.tval := by
  unfold Group.waitOn; split <;> rfl
@[simp] theorem Group.waitOn_tlm (g : Group) (w : Wait) (t : Nat) : (g.waitOn w t).tlm = g.tlm := by
  unfold Group.waitOn; split <;> rfl
@[simp] theorem Group.waitOn_depth (g : Group) (w : Wait) (t : Nat) : (g.waitOn w t).depth = g.depth := by
  unfold Group.waitOn; split <;> rfl
@[simp] theorem Group.waitOn_tem (g : Group) (w : Wait) (t : Nat) : (g.waitOn w t).tem = g.tem := by
  unfold Group.waitOn; split <;> rfl
@[simp] theorem Group.waitOn_setR (g : Group) (w : Wait) (t : Nat) : (g.waitOn w t).setR = g.setR := by
  unfold Group.waitOn; split <;> rfl
@[simp] theorem Group.waitOn_setL (g : Group) (w : Wait) (t : Nat) : (g.waitOn w t).setL = g.setL := by
  unfold Group.waitOn; split <;> rfl
@[simp] theorem Group.waitOn_relief (g : Group) (w : Wait) (t : Nat) : (g.waitOn w t).relief = g.relief := by
  unfold Group.waitOn; split <;> rfl
@[simp] theorem Group.waitOn_held (g : Group) (w : Wait) (t : Nat) : (g.waitOn w t).held = g.held := by
  unfold Group.waitOn; split <;> rfl
@[simp] theorem Group.waitOn_emg (g : Group) (w : Wait) (t : Nat) : (g.waitOn w t).emg = g.emg := by
  unfold Group.waitOn; split <;> rfl
@[simp] theorem Group.waitOn_pmap (g : Group) (w : Wait) (t : Nat) : (g.waitOn w t).pmap = g.pmap := by
  unfold Group.waitOn; split <;> rfl
@[simp] theorem Group.waitOn_lqueues (g : Group) (w : Wait) (t : Nat) : (g.waitOn w t).lqueues = g.lqueues := by
  unfold Group.waitOn; split <;> rfl
@[simp] theorem Group.waitOn_words (g : Group) (w : Wait) (t : Nat) : (g.waitOn w t).words = g.words := by
  unfold Group.waitOn; split <;> rfl
@[simp] theorem Group.waitOn_npr (g : Group) (w : Wait) (t : Nat) : (g.waitOn w t).npr = g.npr := by
  unfold Group.waitOn; split <;> rfl
@[simp] theorem Group.waitOn_nprt (g : Group) (w : Wait) (t : Nat) : (g.waitOn w t).nprt = g.nprt := by
  unfold Group.waitOn; split <;> rfl
@[simp] theorem Group.waitOn_level (g : Group) (w : Wait) (t : Nat) : (g.waitOn w t).level = g.level := by
  unfold Group.waitOn; split <;> rfl
@[simp] theorem Group.waitOn_batch (g : Group) (w : Wait) (t : Nat) : (g.waitOn w t).batch = g.batch := by
  unfold Group.waitOn; split <;> rfl
@[simp] theorem Group.waitOn_sealed (g : Group) (w : Wait) (t : Nat) : (g.waitOn w t).sealed = g.sealed := by
  unfold Group.waitOn; split <;> rfl
@[simp] theorem Group.waitOn_nextb (g : Group) (w : Wait) (t : Nat) : (g.waitOn w t).nextb = g.nextb := by
  unfold Group.waitOn; split <;> rfl
@[simp] theorem Group.waitOn_wc (g : Group) (w : Wait) (t : Nat) : (g.waitOn w t).wc = g.wc := by
  unfold Group.waitOn; split <;> rfl
@[simp] theorem Group.waitOn_posted (g : Group) (w : Wait) (t : Nat) : (g.waitOn w t).posted = g.posted := by
  unfold Group.waitOn; split <;> rfl
@[simp] theorem Group.waitOn_splits (g : Group) (w : Wait) (t : Nat) : (g.waitOn w t).splits = g.splits := by
  unfold Group.waitOn; split <;> rfl
@[simp] theorem Group.waitOn_win (g : Group) (w : Wait) (t : Nat) : (g.waitOn w t).win = g.win := by
  unfold Group.waitOn; split <;> rfl
@[simp] theorem Group.waitOn_notBefore (g : Group) (w : Wait) (t : Nat) : (g.waitOn w t).notBefore = g.notBefore := by
  unfold Group.waitOn; split <;> rfl
@[simp] theorem Group.waitOn_pend (g : Group) (w : Wait) (t : Nat) : (g.waitOn w t).pend = g.pend := by
  unfold Group.waitOn; split <;> rfl
@[simp] theorem Group.waitOn_parked (g : Group) (w : Wait) (t : Nat) : (g.waitOn w t).parked = g.parked := by
  unfold Group.waitOn; split <;> rfl
@[simp] theorem Group.waitOn_granted (g : Group) (w : Wait) (t : Nat) : (g.waitOn w t).granted = g.granted := by
  unfold Group.waitOn; split <;> rfl
@[simp] theorem Group.waitOn_raised (g : Group) (w : Wait) (t : Nat) : (g.waitOn w t).raised = g.raised := by
  unfold Group.waitOn; split <;> rfl
@[simp] theorem Group.waitOn_asked (g : Group) (w : Wait) (t : Nat) : (g.waitOn w t).asked = g.asked := by
  unfold Group.waitOn; split <;> rfl
@[simp] theorem Group.waitOn_bargen (g : Group) (w : Wait) (t : Nat) : (g.waitOn w t).bargen = g.bargen := by
  unfold Group.waitOn; split <;> rfl
@[simp] theorem Group.waitOn_xw (g : Group) (w : Wait) (t : Nat) : (g.waitOn w t).xw = g.xw := by
  unfold Group.waitOn; split <;> rfl
@[simp] theorem Group.waitOn_fetched (g : Group) (w : Wait) (t : Nat) : (g.waitOn w t).fetched = g.fetched := by
  unfold Group.waitOn; split <;> rfl
@[simp] theorem Group.waitOn_sched (g : Group) (w : Wait) (t : Nat) : (g.waitOn w t).sched = g.sched := by
  unfold Group.waitOn; split <;> rfl
@[simp] theorem Group.waitOn_age (g : Group) (w : Wait) (t : Nat) : (g.waitOn w t).age = g.age := by
  unfold Group.waitOn; split <;> rfl
@[simp] theorem Group.waitOn_stay (g : Group) (w : Wait) (t : Nat) : (g.waitOn w t).stay = g.stay := by
  unfold Group.waitOn; split <;> rfl
@[simp] theorem Group.waitOn_ready (g : Group) (w : Wait) (t : Nat) : (g.waitOn w t).ready = g.ready := by
  unfold Group.waitOn; split <;> rfl
@[simp] theorem Group.waitOn_promo (g : Group) (w : Wait) (t : Nat) : (g.waitOn w t).promo = g.promo := by
  unfold Group.waitOn; split <;> rfl
@[simp] theorem Group.waitOn_yielded (g : Group) (w : Wait) (t : Nat) : (g.waitOn w t).yielded = g.yielded := by
  unfold Group.waitOn; split <;> rfl
@[simp] theorem Group.waitOn_stopAt (g : Group) (w : Wait) (t : Nat) : (g.waitOn w t).stopAt = g.stopAt := by
  unfold Group.waitOn; split <;> rfl
@[simp] theorem Group.waitOn_want (g : Group) (w : Wait) (t : Nat) : (g.waitOn w t).want = g.want := by
  unfold Group.waitOn; split <;> rfl
@[simp] theorem Group.waitOn_tres (g : Group) (w : Wait) (t : Nat) : (g.waitOn w t).tres = g.tres := by
  unfold Group.waitOn; split <;> rfl
@[simp] theorem Group.waitOn_ident (g : Group) (w : Wait) (t : Nat) : (g.waitOn w t).ident = g.ident := by
  unfold Group.waitOn; split <;> rfl

/-! The next-address clause, where it completes (04/R67). -/

/-- All that the clause can change. -/
theorem Group.advance_cases (g h : Group) (nx : Nx) (n : Nat) (e : g.advance nx n = .ok h) : ∃ pc y st rs ls sr em,
    h = { g with pc := pc, yielded := y, status := st, rstack := rs, lstack := ls, sregs := sr, em := em } := by
  unfold Group.advance at e
  cases nx <;> simp only [] at e
  case ret => split at e <;> cases e; exact ⟨_, _, _, _, _, _, _, rfl⟩
  case loop =>
    split at e
    · cases e
    · split at e <;> cases e <;> exact ⟨_, _, _, _, _, _, _, rfl⟩
  case cond neg _ _ _ =>
    cases neg <;> simp only [Bool.false_eq_true, if_true, if_false] at e
    all_goals split at e
    all_goals try (split at e)
    all_goals try (split at e)
    all_goals cases e <;> exact ⟨_, _, _, _, _, _, _, rfl⟩
  all_goals cases e; exact ⟨_, _, _, _, _, _, _, rfl⟩


end Sys2Proof.Machine
end

