-- ==== Sys2Proof/Laws/Memory.lean ====
section
/-!
SUPPORT. Main memory: a read after a write, and the canonical form, which every operation keeps.
-/

namespace Sys2Proof.Machine

open Sys2Proof

theorem Memory.read_write (m : Memory) (a x : Nat) (b : Byte) :
    Memory.read (Memory.write m a b) x = if a = x then b else Memory.read m x := by
  unfold Memory.read Memory.write Map.get
  split
  · next h => rw [Map.get?_erase]; split <;> simp [h]
  · rw [Map.get?_set]; split <;> simp

@[simp] theorem Memory.read_write_same (m : Memory) (a : Nat) (b : Byte) : Memory.read (Memory.write m a b) a = b := by
  simp [Memory.read_write]

@[simp] theorem Memory.read_write_other (m : Memory) {a x : Nat} (b : Byte) (h : a ≠ x) :
    Memory.read (Memory.write m a b) x = Memory.read m x := by simp [Memory.read_write, h]

theorem Memory.read_writeN (bs : List Byte) : ∀ (m : Memory) (a x : Nat), Memory.read (Memory.writeN m a bs) x =
    if a ≤ x ∧ x < a + bs.length then bs.getD (x - a) 0 else Memory.read m x := by
  induction bs with
  | nil => intro m a x; simp only [Memory.writeN, List.length_nil]; rw [if_neg (by omega)]
  | cons b bs ih =>
    intro m a x
    simp only [Memory.writeN, ih, Memory.read_write, List.length_cons]
    by_cases h1 : a = x
    · subst h1
      simp [show ¬ a + 1 ≤ a by omega]
    · by_cases h2 : a + 1 ≤ x ∧ x < a + 1 + bs.length
      · have h3 : a ≤ x ∧ x < a + (bs.length + 1) := by omega
        obtain ⟨d, rfl⟩ : ∃ d, x = a + 1 + d := ⟨x - (a + 1), by omega⟩
        have h4 : a + 1 + d - a = d + 1 := by omega
        simp [h2, h3, h4]
      · have h3 : ¬ (a ≤ x ∧ x < a + (bs.length + 1)) := by omega
        rw [if_neg h2, if_neg h1, if_neg h3]

/-- Every listed address is above `a`. -/
def Memory.above (a : Nat) (m : Memory) : Prop := ∀ c ∈ m, a < c.1

theorem Memory.wf_cons (a : Nat) (b : Byte) (m : Memory) :
    Memory.wf ((a, b) :: m) = true ↔ b ≠ Memory.unlisted ∧ Memory.above a m ∧ Memory.wf m = true := by
  induction m generalizing a b with
  | nil => simp [Memory.wf, Memory.above]
  | cons c m ih =>
    obtain ⟨a', b'⟩ := c
    simp only [Memory.wf, Bool.and_eq_true, decide_eq_true_eq, bne_iff_ne]
    constructor
    · rintro ⟨⟨h1, h2⟩, h3⟩
      refine ⟨h2, ?_, h3⟩
      intro c hc
      rcases List.mem_cons.1 hc with rfl | hc
      · exact h1
      · exact Nat.lt_trans h1 (((ih a' b').1 h3).2.1 c hc)
    · rintro ⟨h1, h2, h3⟩
      exact ⟨⟨h2 _ (List.mem_cons_self ..), h1⟩, h3⟩

theorem Memory.wf_filter (p : Host.Cell → Bool) (m : Memory) (h : Memory.wf m = true) : Memory.wf (m.filter p) = true := by
  induction m with
  | nil => rfl
  | cons c m ih =>
    obtain ⟨a, b⟩ := c
    obtain ⟨h1, h2, h3⟩ := (Memory.wf_cons a b m).1 h
    cases hp : p (a, b)
    · simpa [List.filter, hp] using ih h3
    · simp only [List.filter, hp]
      exact (Memory.wf_cons ..).2 ⟨h1, fun c hc => h2 c ((List.mem_filter.1 hc).1), ih h3⟩

theorem Memory.erase_eq (m : Memory) (k : Nat) : Map.erase m k = m.filter fun c => c.1 != k := by
  induction m with
  | nil => rfl
  | cons c m ih =>
    obtain ⟨a, b⟩ := c
    by_cases h : a = k
    · simp [Map.erase, h, ih]
    · simp [Map.erase, h, ih]

theorem Memory.mem_set (m : Memory) (k : Nat) (v : Byte) : ∀ c ∈ Map.set m k v, c = (k, v) ∨ c ∈ m := by
  induction m with
  | nil => simp [Map.set]
  | cons c m ih =>
    obtain ⟨a, b⟩ := c
    intro c hc
    simp only [Map.set] at hc
    split at hc
    · rcases List.mem_cons.1 hc with h | h <;> simp [h]
    · split at hc
      · rcases List.mem_cons.1 hc with h | h
        · simp [h]
        · exact .inr h
      · rcases List.mem_cons.1 hc with h | h
        · simp [h]
        · rcases ih c h with h | h <;> simp [h]

theorem Memory.wf_set (m : Memory) (k : Nat) (v : Byte) (hv : v ≠ Memory.unlisted) (h : Memory.wf m = true) :
    Memory.wf (Map.set m k v) = true := by
  induction m with
  | nil => simpa [Map.set, Memory.wf] using hv
  | cons c m ih =>
    obtain ⟨a, b⟩ := c
    obtain ⟨h1, h2, h3⟩ := (Memory.wf_cons a b m).1 h
    simp only [Map.set]
    split
    · next e => subst e; exact (Memory.wf_cons ..).2 ⟨hv, h2, h3⟩
    · split
      · next e =>
        refine (Memory.wf_cons ..).2 ⟨hv, ?_, h⟩
        intro c hc
        rcases List.mem_cons.1 hc with rfl | hc
        · exact e
        · exact Nat.lt_trans e (h2 c hc)
      · refine (Memory.wf_cons ..).2 ⟨h1, ?_, ih h3⟩
        intro c hc
        rcases Memory.mem_set m k v c hc with rfl | hc
        · show a < k; omega
        · exact h2 c hc

/-- A write keeps the canonical form. -/
theorem Memory.wf_write (m : Memory) (a : Nat) (b : Byte) (h : Memory.wf m = true) : Memory.wf (Memory.write m a b) = true := by
  unfold Memory.write
  split
  · rw [Memory.erase_eq]; exact Memory.wf_filter _ _ h
  · exact Memory.wf_set _ _ _ (by assumption) h

theorem Memory.wf_writeN (bs : List Byte) : ∀ (m : Memory) (a : Nat), Memory.wf m = true →
    Memory.wf (Memory.writeN m a bs) = true := by
  induction bs with
  | nil => intro m a h; exact h
  | cons b bs ih => intro m a h; exact ih _ _ (Memory.wf_write m a b h)

/-- The scattered writes of one granule keep the canonical form. -/
theorem Memory.wf_foldl_write (base : Nat) (bs : List (Nat × Byte)) : ∀ m : Memory, Memory.wf m = true →
    Memory.wf (bs.foldl (fun m b => Memory.write m (base + b.1) b.2) m) = true := by
  induction bs with
  | nil => intro m h; exact h
  | cons b bs ih => intro m h; exact ih _ (Memory.wf_write m _ _ h)

/-- A number stored in n bytes reads back modulo its width. -/
theorem numOf_bytesOf (n : Nat) : ∀ x, numOf (bytesOf x n) = x % 256 ^ n := by
  induction n with
  | zero => intro x; simp [bytesOf, numOf, Nat.mod_one]
  | succ n ih =>
    intro x
    rw [bytesOf, numOf, ih, BitVec.toNat_ofNat, show (2 : Nat) ^ 8 = 256 from rfl, Nat.pow_succ', Nat.mod_mul]

@[simp] theorem length_bytesOf (n : Nat) : ∀ x, (bytesOf x n).length = n := by
  induction n with
  | zero => intro x; rfl
  | succ n ih => intro x; simp [bytesOf, ih]

theorem reset_memory_wf : Memory.wf State.reset.mem = true := rfl

end Sys2Proof.Machine
end

