-- ==== Sys2Proof/Laws/Issue.lean ====
section
/-!
SUPPORT. The outcomes of an instruction's issue, and what filling the active set, taking a trap and completing leave unchanged.
-/

namespace Sys2Proof.Machine

open Sys2Proof

/-! ### Outcomes -/

/-- A clear instruction whose effect is done completes. -/
theorem run_ok {i : Instr} {info : Info} {f : Form} {s s' : State} (h : Clear i info f s)
    {e : Info → Form → Except Halt State} (he : e info f = .ok s') : run i s e = .next (retire i (s.me.active i.form) s') := by
  simp [run, runIf, settle, h.row, h.admitted, h.target, he]

/-- The same for an instruction that a value can make illegal and that this value does not. -/
theorem runIf_ok {i : Instr} {info : Info} {f : Form} {s s' : State} (h : Clear i info f s) {bad : Info → Form → Bool}
    (hb : bad info f = false) {e : Info → Form → Except Halt State} (he : e info f = .ok s') :
    runIf i s bad e = .next (retire i (s.me.active i.form) s') := by
  simp [runIf, settle, h.row, h.admitted, h.target, hb, he]

/-- A clear instruction whose effect ends in a halt has the outcome of that halt. -/
theorem run_halt {i : Instr} {info : Info} {f : Form} {s : State} (h : Clear i info f s)
    {e : Info → Form → Except Halt State} {x : Halt} (he : e info f = .error x) : run i s e = settle i s (.error x) := by
  simp [run, runIf, h.row, h.admitted, he]

theorem run_trap {i : Instr} {info : Info} {f : Form} {s : State} (h : Clear i info f s)
    {e : Info → Form → Except Halt State} {t : Trap} (he : e info f = .error (.trap t)) :
    run i s e = .next (s.counted.takeTrap s.meId t) := by simp [run_halt h he, settle, h.target]

theorem run_wait {i : Instr} {info : Info} {f : Form} {s : State} (h : Clear i info f s)
    {e : Info → Form → Except Halt State} {w : Wait} (he : e info f = .error (.wait w)) :
    run i s e = .next { s with me := s.me.waitOn w s.time } := by simp [run_halt h he, settle, h.target]

theorem run_held {i : Instr} {info : Info} {f : Form} {s s' : State} (h : Clear i info f s)
    {e : Info → Form → Except Halt State} {w : Wait} (he : e info f = .error (.held w s')) :
    run i s e = .next { s' with me := s'.me.waitOn w s'.time } := by simp [run_halt h he, settle, h.target]

/-- An instruction that a check of its issue stops has the outcome of that check. -/
theorem run_stopped {i : Instr} {info : Info} {f : Form} {s : State} (h : i.row = some (info, f)) {x : Halt}
    (ha : issueCheck i info f false s = .error x) (e : Info → Form → Except Halt State) : run i s e = settle i s (.error x) := by
  simp [run, runIf, h, ha]

/-- An ill-formed instruction traps as illegal, whatever its effect; the trap record holds its first word (04/R64, 08/R130). -/
theorem runIf_illFormed {i : Instr} {info : Info} {f : Form} {s : State} (h : i.row = some (info, f)) (hw : s.me.win = [])
    (hf : i.wellFormed = false) (bad : Info → Form → Bool) (e : Info → Form → Except Halt State) :
    runIf i s bad e = .next (s.counted.takeTrap s.meId (trapOf i s.me 6 (BitVec.ofNat 64 i.firstWord))) := by
  have : issueCheck i info f (bad info f) s = .error (illegal i s.me) := by simp [issueCheck, hw, hf]
  simp only [runIf, h, this, settle, illegal]
  cases badTarget i s.me <;> simp [outranksMisaligned, trapOf]

/-! ### Filling the active set (21/R341) -/

@[simp] theorem State.fillN_time (c n : Nat) : ∀ s : State, (s.fillN c n).time = s.time := by
  induction n with
  | zero => intro s; rfl
  | succ n ih =>
    intro s
    unfold State.fillN
    split
    · rfl
    · split <;> simp [ih, State.enter]

@[simp] theorem State.fill_time (s : State) (c : Nat) : (s.fill c).time = s.time := by simp [State.fill]

@[simp] theorem State.fillN_teams (c n : Nat) : ∀ s : State, (s.fillN c n).teams = s.teams := by
  induction n with
  | zero => intro s; rfl
  | succ n ih =>
    intro s
    unfold State.fillN
    split
    · rfl
    · split <;> simp [ih, State.enter]

@[simp] theorem State.fill_teams (s : State) (c : Nat) : (s.fill c).teams = s.teams := by simp [State.fill]

@[simp] theorem State.fillN_cohorts (c n : Nat) : ∀ s : State, (s.fillN c n).cohorts = s.cohorts := by
  induction n with
  | zero => intro s; rfl
  | succ n ih =>
    intro s
    unfold State.fillN
    split
    · rfl
    · split <;> simp [ih, State.enter]

@[simp] theorem State.fill_cohorts (s : State) (c : Nat) : (s.fill c).cohorts = s.cohorts := by simp [State.fill]

@[simp] theorem State.fillN_cores (c n : Nat) : ∀ s : State, (s.fillN c n).cores = s.cores := by
  induction n with
  | zero => intro s; rfl
  | succ n ih =>
    intro s
    unfold State.fillN
    split
    · rfl
    · split <;> simp [ih, State.enter]

@[simp] theorem State.fill_cores (s : State) (c : Nat) : (s.fill c).cores = s.cores := by simp [State.fill]

@[simp] theorem State.fillN_clusters (c n : Nat) : ∀ s : State, (s.fillN c n).clusters = s.clusters := by
  induction n with
  | zero => intro s; rfl
  | succ n ih =>
    intro s
    unfold State.fillN
    split
    · rfl
    · split <;> simp [ih, State.enter]

@[simp] theorem State.fill_clusters (s : State) (c : Nat) : (s.fill c).clusters = s.clusters := by simp [State.fill]

@[simp] theorem State.fillN_culverts (c n : Nat) : ∀ s : State, (s.fillN c n).culverts = s.culverts := by
  induction n with
  | zero => intro s; rfl
  | succ n ih =>
    intro s
    unfold State.fillN
    split
    · rfl
    · split <;> simp [ih, State.enter]

@[simp] theorem State.fill_culverts (s : State) (c : Nat) : (s.fill c).culverts = s.culverts := by simp [State.fill]

@[simp] theorem State.fillN_mem (c n : Nat) : ∀ s : State, (s.fillN c n).mem = s.mem := by
  induction n with
  | zero => intro s; rfl
  | succ n ih =>
    intro s
    unfold State.fillN
    split
    · rfl
    · split <;> simp [ih, State.enter]

@[simp] theorem State.fill_mem (s : State) (c : Nat) : (s.fill c).mem = s.mem := by simp [State.fill]

@[simp] theorem State.fillN_damaged (c n : Nat) : ∀ s : State, (s.fillN c n).damaged = s.damaged := by
  induction n with
  | zero => intro s; rfl
  | succ n ih =>
    intro s
    unfold State.fillN
    split
    · rfl
    · split <;> simp [ih, State.enter]

@[simp] theorem State.fill_damaged (s : State) (c : Nat) : (s.fill c).damaged = s.damaged := by simp [State.fill]

@[simp] theorem State.fillN_retries (c n : Nat) : ∀ s : State, (s.fillN c n).retries = s.retries := by
  induction n with
  | zero => intro s; rfl
  | succ n ih =>
    intro s
    unfold State.fillN
    split
    · rfl
    · split <;> simp [ih, State.enter]

@[simp] theorem State.fill_retries (s : State) (c : Nat) : (s.fill c).retries = s.retries := by simp [State.fill]

@[simp] theorem State.fillN_hwAsks (c n : Nat) : ∀ s : State, (s.fillN c n).hwAsks = s.hwAsks := by
  induction n with
  | zero => intro s; rfl
  | succ n ih =>
    intro s
    unfold State.fillN
    split
    · rfl
    · split <;> simp [ih, State.enter]

@[simp] theorem State.fill_hwAsks (s : State) (c : Nat) : (s.fill c).hwAsks = s.hwAsks := by simp [State.fill]

@[simp] theorem State.fillN_inbox (c n : Nat) : ∀ s : State, (s.fillN c n).inbox = s.inbox := by
  induction n with
  | zero => intro s; rfl
  | succ n ih =>
    intro s
    unfold State.fillN
    split
    · rfl
    · split <;> simp [ih, State.enter]

@[simp] theorem State.fill_inbox (s : State) (c : Nat) : (s.fill c).inbox = s.inbox := by simp [State.fill]

@[simp] theorem State.fillN_shares (c n : Nat) : ∀ s : State, (s.fillN c n).shares = s.shares := by
  induction n with
  | zero => intro s; rfl
  | succ n ih =>
    intro s
    unfold State.fillN
    split
    · rfl
    · split <;> simp [ih, State.enter]

@[simp] theorem State.fill_shares (s : State) (c : Nat) : (s.fill c).shares = s.shares := by simp [State.fill]

@[simp] theorem State.fillN_routes (c n : Nat) : ∀ s : State, (s.fillN c n).routes = s.routes := by
  induction n with
  | zero => intro s; rfl
  | succ n ih =>
    intro s
    unfold State.fillN
    split
    · rfl
    · split <;> simp [ih, State.enter]

@[simp] theorem State.fill_routes (s : State) (c : Nat) : (s.fill c).routes = s.routes := by simp [State.fill]

@[simp] theorem State.fillN_outbound (c n : Nat) : ∀ s : State, (s.fillN c n).outbound = s.outbound := by
  induction n with
  | zero => intro s; rfl
  | succ n ih =>
    intro s
    unfold State.fillN
    split
    · rfl
    · split <;> simp [ih, State.enter]

@[simp] theorem State.fill_outbound (s : State) (c : Nat) : (s.fill c).outbound = s.outbound := by simp [State.fill]

@[simp] theorem State.fillN_ports (c n : Nat) : ∀ s : State, (s.fillN c n).ports = s.ports := by
  induction n with
  | zero => intro s; rfl
  | succ n ih =>
    intro s
    unfold State.fillN
    split
    · rfl
    · split <;> simp [ih, State.enter]

@[simp] theorem State.fill_ports (s : State) (c : Nat) : (s.fill c).ports = s.ports := by simp [State.fill]

@[simp] theorem State.fillN_outbox (c n : Nat) : ∀ s : State, (s.fillN c n).outbox = s.outbox := by
  induction n with
  | zero => intro s; rfl
  | succ n ih =>
    intro s
    unfold State.fillN
    split
    · rfl
    · split <;> simp [ih, State.enter]

@[simp] theorem State.fill_outbox (s : State) (c : Nat) : (s.fill c).outbox = s.outbox := by simp [State.fill]

@[simp] theorem State.fillN_module (c n : Nat) : ∀ s : State, (s.fillN c n).module = s.module := by
  induction n with
  | zero => intro s; rfl
  | succ n ih =>
    intro s
    unfold State.fillN
    split
    · rfl
    · split <;> simp [ih, State.enter]

@[simp] theorem State.fill_module (s : State) (c : Nat) : (s.fill c).module = s.module := by simp [State.fill]

@[simp] theorem State.fillN_measured (c n : Nat) : ∀ s : State, (s.fillN c n).measured = s.measured := by
  induction n with
  | zero => intro s; rfl
  | succ n ih =>
    intro s
    unfold State.fillN
    split
    · rfl
    · split <;> simp [ih, State.enter]

@[simp] theorem State.fill_measured (s : State) (c : Nat) : (s.fill c).measured = s.measured := by simp [State.fill]

@[simp] theorem State.fillN_doe (c n : Nat) : ∀ s : State, (s.fillN c n).doe = s.doe := by
  induction n with
  | zero => intro s; rfl
  | succ n ih =>
    intro s
    unfold State.fillN
    split
    · rfl
    · split <;> simp [ih, State.enter]

@[simp] theorem State.fill_doe (s : State) (c : Nat) : (s.fill c).doe = s.doe := by simp [State.fill]

@[simp] theorem State.fillN_calib (c n : Nat) : ∀ s : State, (s.fillN c n).calib = s.calib := by
  induction n with
  | zero => intro s; rfl
  | succ n ih =>
    intro s
    unfold State.fillN
    split
    · rfl
    · split <;> simp [ih, State.enter]

@[simp] theorem State.fill_calib (s : State) (c : Nat) : (s.fill c).calib = s.calib := by simp [State.fill]

@[simp] theorem State.fillN_issued (c n : Nat) : ∀ s : State, (s.fillN c n).issued = s.issued := by
  induction n with
  | zero => intro s; rfl
  | succ n ih =>
    intro s
    unfold State.fillN
    split
    · rfl
    · split <;> simp [ih, State.enter]

@[simp] theorem State.fill_issued (s : State) (c : Nat) : (s.fill c).issued = s.issued := by simp [State.fill]

@[simp] theorem State.fillN_agenda (c n : Nat) : ∀ s : State, (s.fillN c n).agenda = s.agenda := by
  induction n with
  | zero => intro s; rfl
  | succ n ih =>
    intro s
    unfold State.fillN
    split
    · rfl
    · split <;> simp [ih, State.enter]

@[simp] theorem State.fill_agenda (s : State) (c : Nat) : (s.fill c).agenda = s.agenda := by simp [State.fill]

@[simp] theorem State.fillN_subject (c n : Nat) : ∀ s : State, (s.fillN c n).subject = s.subject := by
  induction n with
  | zero => intro s; rfl
  | succ n ih =>
    intro s
    unfold State.fillN
    split
    · rfl
    · split <;> simp [ih, State.enter]

@[simp] theorem State.fill_subject (s : State) (c : Nat) : (s.fill c).subject = s.subject := by simp [State.fill]

@[simp] theorem State.fillN_free (c n : Nat) : ∀ s : State, (s.fillN c n).free = s.free := by
  induction n with
  | zero => intro s; rfl
  | succ n ih =>
    intro s
    unfold State.fillN
    split
    · rfl
    · split <;> simp [ih, State.enter]

@[simp] theorem State.fill_free (s : State) (c : Nat) : (s.fill c).free = s.free := by simp [State.fill]

@[simp] theorem State.fillN_order (c n : Nat) : ∀ s : State, (s.fillN c n).order = s.order := by
  induction n with
  | zero => intro s; rfl
  | succ n ih =>
    intro s
    unfold State.fillN
    split
    · rfl
    · split <;> simp [ih, State.enter]

@[simp] theorem State.fill_order (s : State) (c : Nat) : (s.fill c).order = s.order := by simp [State.fill]

@[simp] theorem State.fillN_nextId (c n : Nat) : ∀ s : State, (s.fillN c n).nextId = s.nextId := by
  induction n with
  | zero => intro s; rfl
  | succ n ih =>
    intro s
    unfold State.fillN
    split
    · rfl
    · split <;> simp [ih, State.enter]

@[simp] theorem State.fill_nextId (s : State) (c : Nat) : (s.fill c).nextId = s.nextId := by simp [State.fill]

@[simp] theorem State.fillN_meId (c n : Nat) : ∀ s : State, (s.fillN c n).meId = s.meId := by
  induction n with
  | zero => intro s; rfl
  | succ n ih =>
    intro s
    unfold State.fillN
    split
    · rfl
    · split <;> simp [ih, State.enter]

@[simp] theorem State.fill_meId (s : State) (c : Nat) : (s.fill c).meId = s.meId := by simp [State.fill]

@[simp] theorem State.fillN_parts (c n : Nat) : ∀ s : State, (s.fillN c n).parts = s.parts := by
  induction n with
  | zero => intro s; rfl
  | succ n ih =>
    intro s
    unfold State.fillN
    split
    · rfl
    · split <;> simp [ih, State.enter]

@[simp] theorem State.fill_parts (s : State) (c : Nat) : (s.fill c).parts = s.parts := by simp [State.fill]

@[simp] theorem State.fillN_spDamage (c n : Nat) : ∀ s : State, (s.fillN c n).spDamage = s.spDamage := by
  induction n with
  | zero => intro s; rfl
  | succ n ih =>
    intro s
    unfold State.fillN
    split
    · rfl
    · split <;> simp [ih, State.enter]

@[simp] theorem State.fill_spDamage (s : State) (c : Nat) : (s.fill c).spDamage = s.spDamage := by simp [State.fill]

/-! ### Squashing (08/R126) -/

/-- A fold whose steps keep a part of the state keeps it. -/
theorem foldl_keeps {α β γ : Type} (f : β → α → β) (p : β → γ) (h : ∀ b a, p (f b a) = p b) (l : List α) :
    ∀ b, p (l.foldl f b) = p b := by
  induction l with
  | nil => intro b; rfl
  | cons a l ih => intro b; rw [List.foldl_cons, ih, h]

/-- Squashing changes the owners of bank registers and the core's fault buffer only. -/
theorem State.squash_rest (s : State) (g : Nat) :
    { s.squash g with parts := [], cores := [] } = { s with parts := [], cores := [] } := by
  unfold State.squash
  split
  · rfl
  · rename_i x _
    have keep := fun b => foldl_keeps (fun (s : State) (c : Nat × BitVec 32) =>
      if mapPlace c.2 == 2 && x.ownEntry c.1 != c.2
          && (((s.part (corePart x.core)).banks.get (bankOf c.2).1 {}).owner.get? (bankOf c.2).2) == some (g, c.1) then
        s.ownBank (corePart x.core) (bankOf c.2).1 (bankOf c.2).2 none else s)
      (fun t : State => { t with parts := [], cores := [] }) (by intro b a; split <;> rfl) x.claims b
    split
    · exact keep s
    · exact keep s

@[simp] theorem State.squash_time (s : State) (g : Nat) : (s.squash g).time = s.time := by
  have h := congrArg State.time (s.squash_rest g); exact h

@[simp] theorem State.squash_teams (s : State) (g : Nat) : (s.squash g).teams = s.teams := by
  have h := congrArg State.teams (s.squash_rest g); exact h

@[simp] theorem State.squash_cohorts (s : State) (g : Nat) : (s.squash g).cohorts = s.cohorts := by
  have h := congrArg State.cohorts (s.squash_rest g); exact h

@[simp] theorem State.squash_clusters (s : State) (g : Nat) : (s.squash g).clusters = s.clusters := by
  have h := congrArg State.clusters (s.squash_rest g); exact h

@[simp] theorem State.squash_culverts (s : State) (g : Nat) : (s.squash g).culverts = s.culverts := by
  have h := congrArg State.culverts (s.squash_rest g); exact h

@[simp] theorem State.squash_mem (s : State) (g : Nat) : (s.squash g).mem = s.mem := by
  have h := congrArg State.mem (s.squash_rest g); exact h

@[simp] theorem State.squash_damaged (s : State) (g : Nat) : (s.squash g).damaged = s.damaged := by
  have h := congrArg State.damaged (s.squash_rest g); exact h

@[simp] theorem State.squash_retries (s : State) (g : Nat) : (s.squash g).retries = s.retries := by
  have h := congrArg State.retries (s.squash_rest g); exact h

@[simp] theorem State.squash_hwAsks (s : State) (g : Nat) : (s.squash g).hwAsks = s.hwAsks := by
  have h := congrArg State.hwAsks (s.squash_rest g); exact h

@[simp] theorem State.squash_inbox (s : State) (g : Nat) : (s.squash g).inbox = s.inbox := by
  have h := congrArg State.inbox (s.squash_rest g); exact h

@[simp] theorem State.squash_shares (s : State) (g : Nat) : (s.squash g).shares = s.shares := by
  have h := congrArg State.shares (s.squash_rest g); exact h

@[simp] theorem State.squash_routes (s : State) (g : Nat) : (s.squash g).routes = s.routes := by
  have h := congrArg State.routes (s.squash_rest g); exact h

@[simp] theorem State.squash_outbound (s : State) (g : Nat) : (s.squash g).outbound = s.outbound := by
  have h := congrArg State.outbound (s.squash_rest g); exact h

@[simp] theorem State.squash_ports (s : State) (g : Nat) : (s.squash g).ports = s.ports := by
  have h := congrArg State.ports (s.squash_rest g); exact h

@[simp] theorem State.squash_outbox (s : State) (g : Nat) : (s.squash g).outbox = s.outbox := by
  have h := congrArg State.outbox (s.squash_rest g); exact h

@[simp] theorem State.squash_module (s : State) (g : Nat) : (s.squash g).module = s.module := by
  have h := congrArg State.module (s.squash_rest g); exact h

@[simp] theorem State.squash_measured (s : State) (g : Nat) : (s.squash g).measured = s.measured := by
  have h := congrArg State.measured (s.squash_rest g); exact h

@[simp] theorem State.squash_doe (s : State) (g : Nat) : (s.squash g).doe = s.doe := by
  have h := congrArg State.doe (s.squash_rest g); exact h

@[simp] theorem State.squash_calib (s : State) (g : Nat) : (s.squash g).calib = s.calib := by
  have h := congrArg State.calib (s.squash_rest g); exact h

@[simp] theorem State.squash_issued (s : State) (g : Nat) : (s.squash g).issued = s.issued := by
  have h := congrArg State.issued (s.squash_rest g); exact h

@[simp] theorem State.squash_agenda (s : State) (g : Nat) : (s.squash g).agenda = s.agenda := by
  have h := congrArg State.agenda (s.squash_rest g); exact h

@[simp] theorem State.squash_subject (s : State) (g : Nat) : (s.squash g).subject = s.subject := by
  have h := congrArg State.subject (s.squash_rest g); exact h

@[simp] theorem State.squash_free (s : State) (g : Nat) : (s.squash g).free = s.free := by
  have h := congrArg State.free (s.squash_rest g); exact h

@[simp] theorem State.squash_order (s : State) (g : Nat) : (s.squash g).order = s.order := by
  have h := congrArg State.order (s.squash_rest g); exact h

@[simp] theorem State.squash_nextId (s : State) (g : Nat) : (s.squash g).nextId = s.nextId := by
  have h := congrArg State.nextId (s.squash_rest g); exact h

@[simp] theorem State.squash_meId (s : State) (g : Nat) : (s.squash g).meId = s.meId := by
  have h := congrArg State.meId (s.squash_rest g); exact h

@[simp] theorem State.squash_me (s : State) (g : Nat) : (s.squash g).me = s.me := by
  have h := congrArg State.me (s.squash_rest g); exact h

@[simp] theorem State.squash_others (s : State) (g : Nat) : (s.squash g).others = s.others := by
  have h := congrArg State.others (s.squash_rest g); exact h

@[simp] theorem State.squash_spDamage (s : State) (g : Nat) : (s.squash g).spDamage = s.spDamage := by
  have h := congrArg State.spDamage (s.squash_rest g); exact h

/-! ### Taking a trap (08/R136-R138) -/

@[simp] theorem State.takeTrap_time (s : State) (g : Nat) (t : Trap) : (s.takeTrap g t).time = s.time := by
  unfold State.takeTrap
  split
  · rfl
  · simp only []
    split
    · simp
    · split <;> simp [State.addReport]

@[simp] theorem State.takeTrap_teams (s : State) (g : Nat) (t : Trap) : (s.takeTrap g t).teams = s.teams := by
  unfold State.takeTrap
  split
  · rfl
  · simp only []
    split
    · simp
    · split <;> simp [State.addReport]

@[simp] theorem State.takeTrap_cohorts (s : State) (g : Nat) (t : Trap) : (s.takeTrap g t).cohorts = s.cohorts := by
  unfold State.takeTrap
  split
  · rfl
  · simp only []
    split
    · simp
    · split <;> simp [State.addReport]

@[simp] theorem State.takeTrap_clusters (s : State) (g : Nat) (t : Trap) : (s.takeTrap g t).clusters = s.clusters := by
  unfold State.takeTrap
  split
  · rfl
  · simp only []
    split
    · simp
    · split <;> simp [State.addReport]

@[simp] theorem State.takeTrap_culverts (s : State) (g : Nat) (t : Trap) : (s.takeTrap g t).culverts = s.culverts := by
  unfold State.takeTrap
  split
  · rfl
  · simp only []
    split
    · simp
    · split <;> simp [State.addReport]

@[simp] theorem State.takeTrap_mem (s : State) (g : Nat) (t : Trap) : (s.takeTrap g t).mem = s.mem := by
  unfold State.takeTrap
  split
  · rfl
  · simp only []
    split
    · simp
    · split <;> simp [State.addReport]

@[simp] theorem State.takeTrap_damaged (s : State) (g : Nat) (t : Trap) : (s.takeTrap g t).damaged = s.damaged := by
  unfold State.takeTrap
  split
  · rfl
  · simp only []
    split
    · simp
    · split <;> simp [State.addReport]

@[simp] theorem State.takeTrap_retries (s : State) (g : Nat) (t : Trap) : (s.takeTrap g t).retries = s.retries := by
  unfold State.takeTrap
  split
  · rfl
  · simp only []
    split
    · simp
    · split <;> simp [State.addReport]

@[simp] theorem State.takeTrap_hwAsks (s : State) (g : Nat) (t : Trap) : (s.takeTrap g t).hwAsks = s.hwAsks := by
  unfold State.takeTrap
  split
  · rfl
  · simp only []
    split
    · simp
    · split <;> simp [State.addReport]

@[simp] theorem State.takeTrap_inbox (s : State) (g : Nat) (t : Trap) : (s.takeTrap g t).inbox = s.inbox := by
  unfold State.takeTrap
  split
  · rfl
  · simp only []
    split
    · simp
    · split <;> simp [State.addReport]

@[simp] theorem State.takeTrap_shares (s : State) (g : Nat) (t : Trap) : (s.takeTrap g t).shares = s.shares := by
  unfold State.takeTrap
  split
  · rfl
  · simp only []
    split
    · simp
    · split <;> simp [State.addReport]

@[simp] theorem State.takeTrap_routes (s : State) (g : Nat) (t : Trap) : (s.takeTrap g t).routes = s.routes := by
  unfold State.takeTrap
  split
  · rfl
  · simp only []
    split
    · simp
    · split <;> simp [State.addReport]

@[simp] theorem State.takeTrap_outbound (s : State) (g : Nat) (t : Trap) : (s.takeTrap g t).outbound = s.outbound := by
  unfold State.takeTrap
  split
  · rfl
  · simp only []
    split
    · simp
    · split <;> simp [State.addReport]

@[simp] theorem State.takeTrap_ports (s : State) (g : Nat) (t : Trap) : (s.takeTrap g t).ports = s.ports := by
  unfold State.takeTrap
  split
  · rfl
  · simp only []
    split
    · simp
    · split <;> simp [State.addReport]

@[simp] theorem State.takeTrap_outbox (s : State) (g : Nat) (t : Trap) : (s.takeTrap g t).outbox = s.outbox := by
  unfold State.takeTrap
  split
  · rfl
  · simp only []
    split
    · simp
    · split <;> simp [State.addReport]

@[simp] theorem State.takeTrap_module (s : State) (g : Nat) (t : Trap) : (s.takeTrap g t).module = s.module := by
  unfold State.takeTrap
  split
  · rfl
  · simp only []
    split
    · simp
    · split <;> simp [State.addReport]

@[simp] theorem State.takeTrap_measured (s : State) (g : Nat) (t : Trap) : (s.takeTrap g t).measured = s.measured := by
  unfold State.takeTrap
  split
  · rfl
  · simp only []
    split
    · simp
    · split <;> simp [State.addReport]

@[simp] theorem State.takeTrap_doe (s : State) (g : Nat) (t : Trap) : (s.takeTrap g t).doe = s.doe := by
  unfold State.takeTrap
  split
  · rfl
  · simp only []
    split
    · simp
    · split <;> simp [State.addReport]

@[simp] theorem State.takeTrap_calib (s : State) (g : Nat) (t : Trap) : (s.takeTrap g t).calib = s.calib := by
  unfold State.takeTrap
  split
  · rfl
  · simp only []
    split
    · simp
    · split <;> simp [State.addReport]

@[simp] theorem State.takeTrap_issued (s : State) (g : Nat) (t : Trap) : (s.takeTrap g t).issued = s.issued := by
  unfold State.takeTrap
  split
  · rfl
  · simp only []
    split
    · simp
    · split <;> simp [State.addReport]

@[simp] theorem State.takeTrap_agenda (s : State) (g : Nat) (t : Trap) : (s.takeTrap g t).agenda = s.agenda := by
  unfold State.takeTrap
  split
  · rfl
  · simp only []
    split
    · simp
    · split <;> simp [State.addReport]

@[simp] theorem State.takeTrap_subject (s : State) (g : Nat) (t : Trap) : (s.takeTrap g t).subject = s.subject := by
  unfold State.takeTrap
  split
  · rfl
  · simp only []
    split
    · simp
    · split <;> simp [State.addReport]

@[simp] theorem State.takeTrap_free (s : State) (g : Nat) (t : Trap) : (s.takeTrap g t).free = s.free := by
  unfold State.takeTrap
  split
  · rfl
  · simp only []
    split
    · simp
    · split <;> simp [State.addReport]

@[simp] theorem State.takeTrap_order (s : State) (g : Nat) (t : Trap) : (s.takeTrap g t).order = s.order := by
  unfold State.takeTrap
  split
  · rfl
  · simp only []
    split
    · simp
    · split <;> simp [State.addReport]

@[simp] theorem State.takeTrap_nextId (s : State) (g : Nat) (t : Trap) : (s.takeTrap g t).nextId = s.nextId := by
  unfold State.takeTrap
  split
  · rfl
  · simp only []
    split
    · simp
    · split <;> simp [State.addReport]

@[simp] theorem State.takeTrap_meId (s : State) (g : Nat) (t : Trap) : (s.takeTrap g t).meId = s.meId := by
  unfold State.takeTrap
  split
  · rfl
  · simp only []
    split
    · simp
    · split <;> simp [State.addReport]

/-! ### Completion (04/R67) -/

@[simp] theorem retire_time (i : Instr) (a : BitVec 32) (s : State) : (retire i a s).time = s.time := by
  unfold retire; simp only []; split <;> simp

@[simp] theorem retire_teams (i : Instr) (a : BitVec 32) (s : State) : (retire i a s).teams = s.teams := by
  unfold retire; simp only []; split <;> simp

@[simp] theorem retire_cohorts (i : Instr) (a : BitVec 32) (s : State) : (retire i a s).cohorts = s.cohorts := by
  unfold retire; simp only []; split <;> simp

@[simp] theorem retire_clusters (i : Instr) (a : BitVec 32) (s : State) : (retire i a s).clusters = s.clusters := by
  unfold retire; simp only []; split <;> simp

@[simp] theorem retire_culverts (i : Instr) (a : BitVec 32) (s : State) : (retire i a s).culverts = s.culverts := by
  unfold retire; simp only []; split <;> simp

@[simp] theorem retire_mem (i : Instr) (a : BitVec 32) (s : State) : (retire i a s).mem = s.mem := by
  unfold retire; simp only []; split <;> simp

@[simp] theorem retire_damaged (i : Instr) (a : BitVec 32) (s : State) : (retire i a s).damaged = s.damaged := by
  unfold retire; simp only []; split <;> simp

@[simp] theorem retire_retries (i : Instr) (a : BitVec 32) (s : State) : (retire i a s).retries = s.retries := by
  unfold retire; simp only []; split <;> simp

@[simp] theorem retire_hwAsks (i : Instr) (a : BitVec 32) (s : State) : (retire i a s).hwAsks = s.hwAsks := by
  unfold retire; simp only []; split <;> simp

@[simp] theorem retire_inbox (i : Instr) (a : BitVec 32) (s : State) : (retire i a s).inbox = s.inbox := by
  unfold retire; simp only []; split <;> simp

@[simp] theorem retire_shares (i : Instr) (a : BitVec 32) (s : State) : (retire i a s).shares = s.shares := by
  unfold retire; simp only []; split <;> simp

@[simp] theorem retire_routes (i : Instr) (a : BitVec 32) (s : State) : (retire i a s).routes = s.routes := by
  unfold retire; simp only []; split <;> simp

@[simp] theorem retire_outbound (i : Instr) (a : BitVec 32) (s : State) : (retire i a s).outbound = s.outbound := by
  unfold retire; simp only []; split <;> simp

@[simp] theorem retire_ports (i : Instr) (a : BitVec 32) (s : State) : (retire i a s).ports = s.ports := by
  unfold retire; simp only []; split <;> simp

@[simp] theorem retire_outbox (i : Instr) (a : BitVec 32) (s : State) : (retire i a s).outbox = s.outbox := by
  unfold retire; simp only []; split <;> simp

@[simp] theorem retire_module (i : Instr) (a : BitVec 32) (s : State) : (retire i a s).module = s.module := by
  unfold retire; simp only []; split <;> simp

@[simp] theorem retire_measured (i : Instr) (a : BitVec 32) (s : State) : (retire i a s).measured = s.measured := by
  unfold retire; simp only []; split <;> simp

@[simp] theorem retire_doe (i : Instr) (a : BitVec 32) (s : State) : (retire i a s).doe = s.doe := by
  unfold retire; simp only []; split <;> simp

@[simp] theorem retire_calib (i : Instr) (a : BitVec 32) (s : State) : (retire i a s).calib = s.calib := by
  unfold retire; simp only []; split <;> simp

@[simp] theorem retire_issued (i : Instr) (a : BitVec 32) (s : State) : (retire i a s).issued = s.issued := by
  unfold retire; simp only []; split <;> simp

@[simp] theorem retire_agenda (i : Instr) (a : BitVec 32) (s : State) : (retire i a s).agenda = s.agenda := by
  unfold retire; simp only []; split <;> simp

@[simp] theorem retire_subject (i : Instr) (a : BitVec 32) (s : State) : (retire i a s).subject = s.subject := by
  unfold retire; simp only []; split <;> simp

@[simp] theorem retire_free (i : Instr) (a : BitVec 32) (s : State) : (retire i a s).free = s.free := by
  unfold retire; simp only []; split <;> simp

@[simp] theorem retire_order (i : Instr) (a : BitVec 32) (s : State) : (retire i a s).order = s.order := by
  unfold retire; simp only []; split <;> simp

@[simp] theorem retire_nextId (i : Instr) (a : BitVec 32) (s : State) : (retire i a s).nextId = s.nextId := by
  unfold retire; simp only []; split <;> simp

@[simp] theorem retire_meId (i : Instr) (a : BitVec 32) (s : State) : (retire i a s).meId = s.meId := by
  unfold retire; simp only []; split <;> simp

end Sys2Proof.Machine
end

