-- ==== Sys2Proof/Tests/Slice0.lean ====
section
/-!
SUPPORT. Tests: words of the spec's encoding and what they decode to, terms that the checks refuse, and for every statement with
hypotheses a state and operands that meet them.
-/

namespace Sys2Proof.Tests

set_option Elab.async false

open Sys2Proof Sys2Proof.Machine

/-! ### States and instructions of the tests -/

/-- Every lane holds `x`, every scale byte `0x7F`. -/
def splat (x : Nat) : VReg := VReg.ofLanes (fun _ => x) fun _ => 0x7F

/-- Group 1: role V, all blocks held, `s1` to `s3` 64, 5 and 7, `v1` to `v3` 1.0, 2.0 and 3.0, `v5`
the lane numbers. -/
def vGroup : Group :=
  { team := 1, role := .v, pc := 0x1000, held := 0xFFFF, sched := .active
    sregs := [(1, 64), (2, 5), (3, 7)], preds := [(1, 0xFF), (2, 0xF0F0), (3, 0x10)]
    regs := [(1, splat 0x3F800000), (2, splat 0x40000000), (3, splat 0x40400000)
      , (5, VReg.ofLanes (fun l => l) fun q => q)], ofile := [(1, splat 9)] }

/-- Team 1 on core 0: one group, 64 KiB of scratchpad. -/
def aTeam : Team := { state := .placed, ngroups := 1, n := 1, m := 1 }

/-- Group 1 of team 1 has the turn. -/
def base : State := { State.reset with me := vGroup, meId := 1, teams := [(1, aTeam)], nextId := 2 }

/-- The state with the group in another role. -/
def inRole (r : Role) : State := { base with me := { vGroup with role := r } }

/-- An extended form with these specifiers. -/
def form (d a b c : Nat) : Form :=
  { Form.blank with len := .ext, d := BitVec.ofNat 8 d, a := BitVec.ofNat 8 a, b := BitVec.ofNat 8 b, c := BitVec.ofNat 8 c }

/-- The same with the sub-function of the constructor's row. -/
def fill (mk : Form → Instr) (f : Form) : Form :=
  { f with fn := BitVec.ofNat 6 (((mk f).row.map (·.1.fn)).getD 0) }

/-- The row of an instruction. -/
def infoOf (i : Instr) : Info := (i.row.map (·.1)).getD { op := 0, fn := 0 }

/-- The instruction is clear in the state. -/
def clear (i : Instr) (s : State) : Bool :=
  i.row.isSome && (issueCheck i (infoOf i) i.form false s).toBool && (badTarget i s.me).isNone

theorem clear_sound {i : Instr} {s : State} (h : clear i s = true) : Clear i (infoOf i) i.form s := by
  simp only [clear, Bool.and_eq_true] at h
  obtain ⟨⟨h1, h2⟩, h3⟩ := h
  obtain ⟨x, hx⟩ := Option.isSome_iff_exists.1 h1
  refine ⟨?_, ?_, Option.isNone_iff_eq_none.1 h3⟩
  · simp [infoOf, Instr.form, hx]
  · cases ha : issueCheck i (infoOf i) i.form false s with
    | ok _ => rfl
    | error _ => rw [ha] at h2; cases h2

/-- Every instruction `mk f`, with the sub-function of its row, is clear in the state. -/
def allClear (mks : List (Form → Instr)) (f : Form) (s : State) : Bool := mks.all fun mk => clear (mk (fill mk f)) s

/-- The state after an instruction. -/
def after (i : Instr) (s : State) : State := match exec i s with | .next t => t | _ => s

/-- The scalar `s4` after an instruction. -/
def sees (mk : Form → Instr) (f : Form) (s : State := base) : Word := (after (mk (fill mk f)) s).me.scalar 0x94

/-- Lane l of `v4` after an instruction. -/
def lane (mk : Form → Instr) (f : Form) (l : Nat) (s : State := base) : Nat :=
  ((after (mk (fill mk f)) s).me.regs.get 4 .fresh).lane l

/-- The kind and `tval` of the trap that the group has taken: `tvec` must name a handler. -/
def trapped (mk : Form → Instr) (f : Form) (s : State := base) : Word × Word :=
  let t := after (mk (fill mk f)) { s with me := { s.me with tvec := 0x2000 } }
  (t.me.tcause &&& 0xFF, t.me.tval)

/-- The state that the reading of an instruction's sources leaves. -/
def read (i : Instr) (s : State) (always : Bool := false) : State :=
  match readSources i (infoOf i) i.form always s with | .ok s1 => s1 | .error _ => s

/-- The sources of the instruction are read and its destination can take the result. -/
def taken (i : Instr) (s : State) (always : Bool := false) : Bool :=
  match readSources i (infoOf i) i.form always s with
  | .ok s1 => (destReady i (infoOf i) i.form s1).toBool
  | .error _ => false

/-- The same, and the write of its destination succeeds. -/
def writable (i : Instr) (s : State) (always : Bool := false) : Bool :=
  taken i s always && (writeReg i (read i s always) (Spec.of i.form.d) (laneWrite (BitVec.allOnes 32) fun _ => 0) true).toBool

/-- Every instruction `mk f` is clear and its destination takes its write. -/
def allWritable (mks : List (Form → Instr)) (f : Form) (s : State) : Bool :=
  mks.all fun mk => clear (mk (fill mk f)) s && writable (mk (fill mk f)) s

/-! ### Decoding: words written out from the encoding (04/R56-R67, 05/R79-R83) -/

/-- The blank extended form. -/
def ext : Form := { Form.blank with len := .ext }

/-- Sequencing: `emset` I = 5 (OP 05, FN 1). -/
theorem test_decode_control : decodeTableWord 96 (1 + 0x05 * 2 ^ 5 + 1 * 2 ^ 21 + 0x89 * 2 ^ 40 + 5 * 2 ^ 80) =
    some (.emset { ext with fn := 1, a := 0x89, imm := 5 }) := by decide +kernel

/-- Scalar: `rol` (OP 16, FN 3). -/
theorem test_decode_scalar : decodeTableWord 96 (1 + 0x16 * 2 ^ 5 + 3 * 2 ^ 21 + 0x94 * 2 ^ 32 + 0x91 * 2 ^ 40 + 0x92 * 2 ^ 48) =
    some (.rol { ext with fn := 3, d := 0x94, a := 0x91, b := 0x92 }) := by decide +kernel

/-- Vector integer: `vsub` under the negated predicate 5 (PEN 31, PNEG 30, PN 29-27). -/
theorem test_decode_vector_integer : decodeTableWord 96
    (1 + 0x32 * 2 ^ 5 + 5 * 2 ^ 27 + 2 ^ 30 + 2 ^ 31 + 4 * 2 ^ 32 + 1 * 2 ^ 40 + 2 * 2 ^ 48) =
    some (.vsubInt { ext with pred := some { neg := true, pn := 5 }, d := 4, a := 1, b := 2 }) := by decide +kernel

/-- Vector floating point: `vfma` FP64 (TYPE 1) with source C. -/
theorem test_decode_vector_float : decodeTableWord 96
    (1 + 0x53 * 2 ^ 5 + 4 * 2 ^ 32 + 6 * 2 ^ 40 + 8 * 2 ^ 48 + 10 * 2 ^ 56 + 1 * 2 ^ 64) =
    some (.vfma { ext with d := 4, a := 6, b := 8, c := 10, ty := 1 }) := by decide +kernel

/-- Places: `plc` to scratchpad slot 5 (PLC 1, bits 79-77). -/
theorem test_decode_place : decodeTableWord 96 (1 + 0x80 * 2 ^ 5 + 2 * 2 ^ 32 + 1 * 2 ^ 77 + 5 * 2 ^ 80) =
    some (.plc { ext with d := 2, plc := 1, imm := 5 }) := by decide +kernel

/-- Engine: `mma` into accumulator 0, K-step 4, its range word in `zero`. -/
theorem test_decode_engine : decodeTableWord 96
    (1 + 0x90 * 2 ^ 5 + 8 * 2 ^ 40 + 32 * 2 ^ 48 + 0x89 * 2 ^ 56 + 4 * 2 ^ 80) =
    some (.mma { ext with a := 8, b := 32, c := 0x89, imm := 4 }) := by decide +kernel

/-- Copies: `cpg` with an index type U32 (24). -/
theorem test_decode_copy : decodeTableWord 96
    (1 + 0xA1 * 2 ^ 5 + 1 * 2 ^ 32 + 0x91 * 2 ^ 40 + 0x92 * 2 ^ 48 + 5 * 2 ^ 56 + 24 * 2 ^ 64 + 2 * 2 ^ 80) =
    some (.cpg { ext with d := 1, a := 0x91, b := 0x92, c := 5, ty := 24, imm := 2 }) := by decide +kernel

/-- Memory: `lds` with its counter 3 (KC, bits 76-73); `fence` of ORD 1 (bits 20-19), SCOPE 3 (bits 72-70). -/
theorem test_decode_memory : decodeTableWord 96 (1 + 0xB4 * 2 ^ 5 + 4 * 2 ^ 32 + 0x93 * 2 ^ 40 + 0x89 * 2 ^ 48 + 3 * 2 ^ 73) =
      some (.lds { ext with d := 4, a := 0x93, b := 0x89, kc := 3 })
    ∧ decodeTableWord 96 (1 + 0xB9 * 2 ^ 5 + 1 * 2 ^ 19 + 3 * 2 ^ 70) = some (.fence { ext with ord := 1, scope := 3 }) := by
  decide +kernel

/-- Launch and tender: `tndr` with a literal mask and a window in IMM22 (LEN 11). -/
theorem test_decode_tender : decodeTableWord 160
    (3 + 0xD1 * 2 ^ 5 + 0x94 * 2 ^ 32 + 0x92 * 2 ^ 40 + 64 * 2 ^ 80 + 6 * 2 ^ 96) =
    some (.tndr { ext with len := .extLit, d := 0x94, a := 0x92, imm := 6, imm2 := 64 }) := by decide +kernel

/-- Near bank: `nbst`. -/
theorem test_decode_near_bank : decodeTableWord 96 (1 + 0xE3 * 2 ^ 5 + 4 * 2 ^ 32 + 0x91 * 2 ^ 40 + 0x89 * 2 ^ 48) =
    some (.nbst { ext with d := 4, a := 0x91, b := 0x89 }) := by decide +kernel

/-- System: register 0x24 with the immediate 0xF1 is the row of the light pre-emption; `yield` in NX (111). -/
theorem test_decode_system : decodeTableWord 96
    (1 + 7 * 2 ^ 2 + 0xEF * 2 ^ 5 + 1 * 2 ^ 21 + 0x94 * 2 ^ 32 + 0xF1 * 2 ^ 40 + 0x24 * 2 ^ 80) =
    some (.preemptLight { ext with nx := .yield, fn := 1, d := 0x94, a := 0xF1, imm := 0x24 }) := by decide +kernel

/-! ### Ill-formed terms (04/R68): one for each check -/

theorem test_rejects :
    (Instr.add { ext with d := 0x94, a := 0x91, b := 0x92, fn := 1 }).check = some .noSubFunction
    ∧ (Instr.add { ext with d := 0x94, a := 0x91, b := 0x92, ty := 1 }).check = some .badType
    ∧ (Instr.add { ext with d := 0x94, a := 0x91, b := 0x92, ord := 1 }).check = some .badOrder
    ∧ (Instr.add { ext with d := 0x94, a := 0x91, b := 0x92, scope := 1 }).check = some .badScope
    ∧ (Instr.add { ext with d := 0x94, a := 0x91, b := 0x92, pred := some ⟨false, 0⟩ }).check = some .badPredicate
    ∧ (Instr.add { ext with d := 0x94, a := 0x91, b := 0x92, kc := 1 }).check = some .unusedField
    ∧ (Instr.add { ext with d := 4, a := 0x91, b := 0x92 }).check = some .badOperand
    ∧ (Instr.sel { ext with d := 0x94, a := 0x91, b := 0x92, c := 0x93, imm := 1 }).check = some .badImmediate
    ∧ (Instr.add { Form.blank with d := 0x94, a := 0x91, b := 0x92, nx := .jump 8 }).check = some .badNext
    ∧ (Instr.mma { ext with a := 8, b := 32, c := 0x89 }).check = some .entryRule
    ∧ (Instr.add { Form.blank with d := 0x94, a := 0x91, b := 0x92, imm := 1 }).check = some .notEncodable
    ∧ (Instr.reservedOpcode 0).check = some .noSubFunction := by decide +kernel

/-! ### Results, computed by hand from the entries of 06 and 15 -/

/-- `s1` = 64, `s2` = 5; `0xEE` is the immediate -2, `0x89` is 0. -/
theorem test_scalar_results :
    [sees .add (form 0 0xEE 0x92 0 |> fun f => { f with d := 0x94 }), sees .sub (form 0x94 0x92 0x91 0), sees .mul (form 0x94 0xEE 0x92 0),
      sees .mulh (form 0x94 0xEE 0x92 0), sees .mulhu (form 0x94 0xEE 0x92 0)] = [3, -59, -10, -1, 4]
    ∧ [sees .and (form 0x94 0x91 0x92 0), sees .or (form 0x94 0x91 0x92 0), sees .xor (form 0x94 0xEE 0x92 0), sees .andn (form 0x94 0xEE 0x92 0)]
      = [0, 69, -5, -6]
    ∧ [sees .shl (form 0x94 0xEE 0x92 0), sees .shr (form 0x94 0xEE 0x92 0), sees .sra (form 0x94 0xEE 0x92 0), sees .rol (form 0x94 0xEE 0x92 0)]
      = [-64, 0x07FF_FFFF_FFFF_FFFF, -1, -33]
    ∧ [sees .min (form 0x94 0xEE 0x92 0), sees .minu (form 0x94 0xEE 0x92 0), sees .max (form 0x94 0xEE 0x92 0), sees .maxu (form 0x94 0xEE 0x92 0)]
      = [-2, 5, 5, -2] := by decide +kernel

/-- The result at the type's width, extended by its signedness (06/R92): I32 (23), U32 (24), U8 (20), I8 (19). -/
theorem test_scalar_width : sees .mov { form 0x94 0xEE 0 0 with ty := 23 } = -2
    ∧ sees .mov { form 0x94 0xEE 0 0 with ty := 24 } = 0xFFFF_FFFE
    ∧ sees .mulhu { form 0x94 0xEE 0xEE 0 with ty := 24 } = 0xFFFF_FFFC
    ∧ sees .sxt { form 0x94 0xEE 0 0 with ty := 20 } = -2 ∧ sees .zxt { form 0x94 0xEE 0 0 with ty := 19 } = 254 := by decide +kernel

/-- Division truncates toward zero; a divisor 0 gives all ones and the dividend (06/R94). -/
theorem test_division : [sees .div (form 0x94 0xED 0xF2 0), sees .rem (form 0x94 0xED 0xF2 0), sees .divu (form 0x94 0x91 0x92 0),
      sees .remu (form 0x94 0x91 0x92 0)] = [-1, -1, 12, 4]
    ∧ [sees .div (form 0x94 0x91 0x89 0), sees .rem (form 0x94 0x91 0x89 0), sees .divu (form 0x94 0x91 0x89 0), sees .remu (form 0x94 0x91 0x89 0)]
      = [-1, 64, -1, 64] := by decide +kernel

/-- `sel`, counts, `vget`, `pget`, `emget`. -/
theorem test_scalar_select : [sees .sel (form 0x94 0x91 0x92 0x93), sees .sel (form 0x94 0x91 0x92 0x89), sees .clz (form 0x94 0x91 0 0),
    sees .ctz (form 0x94 0x91 0 0), sees .popc (form 0x94 0xEE 0 0), sees .clz (form 0x94 0x89 0 0), sees .vget (form 0x94 1 0x92 0),
    sees .pget (form 0x94 2 0 0), sees .emget (form 0x94 0 0 0)] = [64, 5, 57, 6, 63, 64, 0x3F800000, 0xF0F0, 0xFFFFFFFF] := by decide +kernel

/-- `p1` = FF, `p2` = F0F0; `cmp` writes a whole predicate (06/R90, R95). -/
theorem test_predicates : (let p (mk : Form → Instr) (f : Form) := (after (mk (fill mk f)) base).me.pred 3
    [p .pmov (form 3 1 0 0), p .pand (form 3 1 2 0), p .por (form 3 1 2 0), p .pxor (form 3 1 2 0), p .pandn (form 3 1 2 0),
      p .pnot (form 3 1 0 0), p .pset (form 3 0x91 0 0), (after (.cmp { form 3 0xEE 0x92 0 with fn := 2 }) base).me.pred 3,
      (after (.cmp { form 3 0xEE 0x92 0 with fn := 2, ty := 26 }) base).me.pred 3])
    = [0xFF, 0xF0, 0xF0FF, 0xF00F, 0xF, 0xFFFF_FF00, 64, 0xFFFF_FFFF, 0] := by decide +kernel

/-- `lps` stores a count 0 as 1 and the head I words on; `emset` with no path mask (06/R89, R91). -/
theorem test_loop_and_mask : (after (.lps { form 0 0x89 0 0 with imm := 4 }) base).me.lstack = [{ head := 0x1010, count := 1 }]
    ∧ (after (.emset { form 0 0x91 0 0 with fn := 1, imm := 1 }) base).me.em = 65
    ∧ (after (.nop { ext with nx := .call 0x40 }) base).me.pc = 0x1040
    ∧ (after (.nop { ext with nx := .call 0x40 }) base).me.sreg 63 = 0x100C
    ∧ (after (.nop { ext with nx := .exit }) base).me.status = .exiting := by decide +kernel

/-- Lanes of `v4` from splats of 1.0, 2.0 and 3.0 as integers, and from lane numbers (06/R99-R105). -/
theorem test_vector_integer : [lane .vaddInt (form 4 1 2 0) 0, lane .vsubInt (form 4 1 2 0) 31, lane .vmulInt (form 4 0x8A 0x92 0) 7,
      lane .vmad (form 4 0x8A 0x92 0x93) 7, lane .vand (form 4 1 2 0) 0, lane .vor (form 4 1 2 0) 0, lane .vxor (form 4 1 2 0) 0,
      lane .vandn (form 4 1 2 0) 0] = [0x7F80_0000, 0xFF80_0000, 35, 42, 0, 0x7F80_0000, 0x7F80_0000, 0x3F80_0000]
    ∧ [lane .vshl (form 4 0x8A 0x92 0) 3, lane .vshr (form 4 0xEE 0x92 0) 3, lane .vsra (form 4 0xEE 0x92 0) 3, lane .vminInt (form 4 0xEE 0x92 0) 0,
      lane .vmaxInt (form 4 0xEE 0x92 0) 0, lane .vmulh (form 4 0xEE 0x92 0) 0, lane .vclz (form 4 0x8A 0 0) 7, lane .vpopc (form 4 0xEE 0 0) 0,
      lane .vsel (form 4 1 2 0x89) 0] = [96, 0x07FF_FFFF, 0xFFFF_FFFF, 0xFFFF_FFFE, 5, 0xFFFF_FFFF, 29, 31, 0x4000_0000] := by decide +kernel

/-- A predicate keeps the lanes outside it; lane moves, quads, packing and the scale bytes. -/
theorem test_vector_lanes : (let p : Form := { form 4 0x8A 0x92 0 with pred := some ⟨true, 1⟩ }; [lane .vaddInt p 7, lane .vaddInt p 8]) = [0, 13]
    ∧ [lane .vshflUp (form 4 5 0x92 0) 5, lane .vshflDn (form 4 5 0x92 0) 27, lane .vshflXor (form 4 5 0x92 0) 4,
      lane .vshflBc (form 4 5 0x92 0) 9, lane .vshflIdx (form 4 5 0x92 0) 9, lane .qswz { form 4 5 0 0 with imm := 0x1B } 4,
      lane .vpack (form 4 1 0 0) 0, lane .vpack { form 4 1 0 0 with ty := 22 } 0, lane .vunpack (form 4 1 0 0) 0, lane .vsclget (form 4 5 0 0) 9,
      lane .vmov (form 4 1 0 0) 3] = [0, 27, 1, 5, 5, 7, 0x7FFF, 0xFFFF, 0, 2, 0x3F80_0000]
    ∧ (after (.vcmppInt { form 2 0x8A 0x92 0 with fn := 2 }) base).me.pred 2 = 0x1F
    ∧ (after (.vcmpInt { form 4 0x8A 0x92 0 with fn := 4 }) base |> fun s => (s.me.regs.get 4 .fresh).lane 6) = 0xFFFF_FFFF := by
  decide +kernel


/-! ### Hypotheses that are met: scalars, predicates, lanes -/

/-- Binary forms on `s1`, `s2`; unary ones on `s1`. -/
def two : Form := form 0x94 0x91 0x92 0
def one : Form := form 0x94 0x91 0 0

theorem witness_ScalarArithmetic : allClear [.add, .sub, .mul, .mulh, .mulhu, .and, .or, .xor, .andn, .shl, .shr, .sra, .rol, .min,
    .max, .minu, .maxu] two base = true ∧ allClear [.mov] one base = true := by decide +kernel

theorem witness_Division : allClear [.div, .divu, .rem, .remu] two base = true
    ∧ allClear [.div, .divu, .rem, .remu] (form 0x94 0x91 0x89 0) base = true := by decide +kernel

theorem witness_CompareSelectCount : allClear [.cmp] (form 3 0x91 0x92 0) base = true
    ∧ allClear [.sel] (form 0x94 0x91 0x92 0x93) base = true ∧ allClear [.sxt, .zxt, .clz, .ctz, .popc] one base = true := by decide +kernel

theorem witness_Predicates : allClear [.pand, .por, .pxor, .pandn] (form 3 1 2 0) base = true
    ∧ allClear [.pmov, .pnot] (form 3 1 0 0) base = true ∧ allClear [.pget] (form 0x94 1 0 0) base = true
    ∧ allClear [.pset] (form 3 0x91 0 0) base = true := by decide +kernel

/-- The group with its loop stack full, as a handler (two entries) and otherwise (four). -/
def looped (h : Bool) : State :=
  { base with me := { vGroup with depth := h, lstack := List.replicate (if h then 2 else 4) { head := 0x1000, count := 3 } } }

theorem witness_SequencingAndMask : allClear [.nop] ext base = true ∧ allClear [.emget] (form 0x94 0 0 0) base = true
    ∧ allClear [.emset] (form 0 0x91 0 0) base = true
    ∧ allClear [.lps] { form 0 0x92 0 0 with imm := 4 } base = true ∧ base.me.lstack.length < 4
    ∧ allClear [.lps] { form 0 0x92 0 0 with imm := 4 } (looped false) = true ∧ (looped false).me.lstack.length = 4
    ∧ allClear [.lps] { form 0 0x92 0 0 with imm := 4 } (looped true) = true ∧ (looped true).me.lstack.length = 2 := by decide +kernel

theorem test_full_loop_stack : trapped .lps { form 0 0x92 0 0 with imm := 4 } (looped false) = (12, 1) := by decide +kernel

theorem witness_VectorInteger : allWritable [.vaddInt, .vsubInt, .vmulInt, .vmulh, .vand, .vor, .vxor, .vandn, .vshl, .vshr, .vsra,
      .vminInt, .vmaxInt, .vcmpInt] (form 4 1 2 0) base = true
    ∧ allWritable [.vmad, .vsel] (form 4 1 2 3) base = true ∧ allWritable [.vclz, .vpopc] (form 4 1 0 0) base = true := by decide +kernel

theorem witness_VectorLanes : clear (.vget (form 0x94 1 0x92 0)) base = true ∧ taken (.vget (form 0x94 1 0x92 0)) base true = true
    ∧ clear (.vcmppInt (form 2 1 2 0)) base = true ∧ taken (.vcmppInt (form 2 1 2 0)) base = true
    ∧ allWritable [.vshflIdx, .vshflUp, .vshflDn, .vshflXor, .vshflBc] (form 4 5 0x92 0) base = true
    ∧ allWritable [.vmov, .vpack, .vunpack, .qswz, .vsclget] (form 4 1 0 0) base = true := by decide +kernel

/-! ### Hypotheses that are met: floating point -/

/-- Floating-point results by hand: `v1` to `v3` are 1.0, 2.0, 3.0 (15/R233-R240). -/
theorem test_float_results : [lane .vaddFp (form 4 1 2 0) 0, lane .vsubFp (form 4 1 2 0) 0, lane .vmulFp (form 4 2 3 0) 0,
      lane .vfma (form 4 2 3 1) 0, lane .vminFp (form 4 1 2 0) 0, lane .vmaxFp (form 4 1 2 0) 0, lane .vabs (form 4 0xEE 0 0) 0,
      lane .vneg (form 4 1 0 0) 0, lane .vcpsgn (form 4 1 0xEE 0) 0] =
      [0x40400000, 0xBF800000, 0x40C00000, 0x40E00000, 0x3F800000, 0x40000000, 0x40000000, 0xBF800000, 0xBF800000]
    ∧ [lane .vrcp (form 4 2 0 0) 0, lane .vrsq (form 4 1 0 0) 0, lane .vsqrt (form 4 1 0 0) 0, lane .vexp2 (form 4 3 0 0) 0,
      lane .vlog2 (form 4 2 0 0) 0, lane .vsin (form 4 0x89 0 0) 0, lane .vcos (form 4 0x89 0 0) 0, lane .vrint (form 4 3 0 0) 0,
      lane .vrcp (form 4 0x89 0 0) 0] =
      [0x3F000000, 0x3F800000, 0x3F800000, 0x41000000, 0x3F800000, 0, 0x3F800000, 0x40400000, 0x7F800000] := by decide +kernel

/-- The sum of 32 ones; the dot of two packed BF16 pairs (2.0 is 0x4000); FP32 1.0 in BF16. -/
theorem test_float_reduce : [lane .vredAdd (form 4 1 0 0) 7, lane .vredMax (form 4 2 0 0) 0, lane .vredMin (form 4 2 0 0) 0,
      lane .vdot2 (form 4 2 2 0) 0] = [0x42000000, 0x40000000, 0x40000000, 0x40800000]
    ∧ (let t := after (.vcvt { form 4 1 0 0 with fn := 2, ty := 3 }) base; (t.me.regs.get 4 .fresh).lane 3 % 65536) = 0x3F80
    ∧ (after (.vcmppFp { form 3 1 2 0 with fn := 2 }) base).me.pred 3 = 0xFFFF_FFFF
    ∧ lane .vcmpFp (form 4 1 1 0) 0 = 0xFFFF_FFFF := by decide +kernel

/-- A group whose every floating-point trap is enabled. -/
def trapping : State := { base with me := { vGroup with fm := 0x1F, tvec := 0x2000 } }

/-- 1/0: division by zero is kind 2, `tval` the default result, every lane in `tlm`. -/
theorem test_float_trap : (let t := after (.vrcp (form 4 0x89 0 0)) trapping; (t.me.tcause &&& 0xFF, t.me.tval, t.me.tlm, t.me.pc)) =
    (2, 0x7F800000, 0xFFFF_FFFF, 0x2000) := by decide +kernel

/-- No enabled exception arises: `fm` enables none. -/
theorem no_float_trap (i : Instr) (info : Info) (f : Form) (res : List FRes) : fpTrap i info f base.me res = none := by
  have : fmTraps base.me.fm = 0 := by decide
  simp [fpTrap, this]

theorem witness_FloatResults : allWritable [.vaddFp, .vsubFp, .vmulFp, .vminFp, .vmaxFp, .vcmpFp, .vcpsgn] (form 4 1 2 0) base = true
    ∧ allWritable [.vfma] (form 4 1 2 3) base = true ∧ (arithMode base.me.fm).isSome = true
    ∧ allWritable [.vabs, .vneg, .vrcp, .vrsq, .vsqrt, .vexp2, .vlog2, .vsin, .vcos, .vrint] (form 4 1 0 0) base = true := by decide +kernel

theorem witness_FloatTraps : clear (.vrcp (form 4 0x89 0 0)) trapping = true ∧ taken (.vrcp (form 4 0x89 0 0)) trapping = true
    ∧ (∀ l < 32, laneOn (trapping.me.active (form 4 0x89 0 0)) l = true
      ∧ (((Claims.fpRows[10]'(by decide)).results (form 4 0x89 0 0) trapping).getD l ⟨0, 0⟩).flags = flDZ)
    ∧ trapping.me.fm.getLsbD 0 = true ∧ trapping.me.fm.getLsbD 1 = true := by decide +kernel

theorem witness_FloatReduceCompare : allWritable [.vredAdd, .vredMin, .vredMax] (form 4 1 0 0) base = true
    ∧ clear (.vcmppFp (form 3 1 2 0)) base = true ∧ taken (.vcmppFp (form 3 1 2 0)) base = true := by decide +kernel

theorem witness_DotProducts : allWritable [.vdot2, .vdot4, .vdot8] (form 4 1 2 0) base = true
    ∧ ([Instr.vdot2, .vdot4, .vdot8].all fun mk => !dotBad base.me (infoOf (mk (form 4 1 2 0))) (form 4 1 2 0)) = true := by decide +kernel

/-- A group whose RND is stochastic, for a narrow destination. -/
def stochastic : State := { base with me := { vGroup with fm := 0x80, ofile := [(7, splat 0x1234567)] } }

def cvtLegal (f : Form) (s : State) : Bool :=
  clear (.vcvt f) s && writable (.vcvt f) s && !cvtBad s.me ((Opcode.cvtSource f).getD .f32) (f.type .f32)

/-- FP32 to BF16 (plain, and under stochastic rounding), to MXE2M1 (blocks), from FP6. -/
theorem witness_Conversion : cvtLegal { form 4 1 0 0 with fn := 2, ty := 3 } base = true
    ∧ cvtLegal { form 4 1 0 0 with fn := 2, ty := 3 } stochastic = true ∧ stochastic.me.loading (.opf 7) = false
    ∧ cvtLegal { form 4 1 0 0 with fn := 2, ty := 15 } base = true
    ∧ cvtLegal { form 4 8 0 0 with fn := 7, ty := 6 } base = true := by decide +kernel

theorem witness_FormatAndFlags : allClear [.fmt, .fmtRnd, .fmtAb, .fmtFtz, .fmtCbs, .fmtTrp] (form 0 0x91 0 0) base = true
    ∧ allClear [.fmrd, .ffget] (form 0x94 0 0 0) base = true ∧ allClear [.ffclr] (form 0x92 0 0 0) base = true := by decide +kernel

theorem test_format : (after (.fmtRnd (fill .fmtRnd (form 0 0xF3 0 0))) base).me.fm = 0x60
    ∧ (after (.fmt (form 0 0xEF 0 0)) base).me.fm = 0x000F_FCFF
    ∧ (after (.ffclr (fill .ffclr (form 0x92 0 0 0))) { base with me := { vGroup with ff := 0x1F } }).me.ff = 0x1A := by decide +kernel

/-- For `vsclset`: all lanes are active, so lane 0 is each quad's lowest. -/
theorem witness_SeedScaleCodebook : clear (.vseed (form 0 1 0 0)) base = true ∧ taken (.vseed (form 0 1 0 0)) base = true
    ∧ base.me.loading (.opf 7) = false
    ∧ allWritable [.vsclset] (form 4 1 0 0) base = true
    ∧ (∀ q < 8, quadOn (base.me.active (form 4 1 0 0)) q = true ∧ laneOn (base.me.active (form 4 1 0 0)) (4 * q) = true)
    ∧ clear (.cbld (form 0 1 0 0)) base = true ∧ taken (.cbld (form 0 1 0 0)) base true = true := by decide +kernel

/-! ### Hypotheses that are met: matrix engine -/

def matrixS : State := inRole .m

/-- `mma` of the fragments in `v8` to `v23` and `v32` to `v55`, the range word 0 in `zero`. -/
def mmaForm : Form := { form 0 8 32 0x89 with imm := 4 }

theorem witness_MatrixArrival : allClear [.mma, .mmaSw] mmaForm matrixS = true ∧ matrixS.myTeam.inEngine matrixS.meId = false
    ∧ matrixS.myTeam.latch = [] ∧ matrixS.myTeam.gn = []
    ∧ rangeWord (matrixS.me.scalar mmaForm.cSpec).toNat = some (0, 16, 0, 24)
    ∧ encodings (mmaForm.type (infoOf (.mma mmaForm)).base) matrixS.me.fm = some (.bf16, .bf16)
    ∧ (∀ n ∈ (List.range 16).map (8 + ·) ++ (List.range 24).map (32 + ·), matrixS.me.holds (n / 8) = true
      ∧ mapPlace (matrixS.me.entry n) = 0 ∧ mapQKind (matrixS.me.entry n) = 0 ∧ matrixS.me.localHead n = none) := by decide +kernel

/-- The group has arrived with the first k fragments of A and all of B. -/
def arrival (k : Nat) : Arrival :=
  { gid := 1, index := 0, since := 0, form := mmaForm, swal := false, aenc := .bf16, benc := .bf16, first := (0, 0)
    afrag := List.replicate k .fresh, bfrag := List.replicate 24 .fresh }

def latched (k : Nat) : State :=
  { matrixS with subject := 1, teams := [(1, { aTeam with latch := [arrival k] })], me := { matrixS.me with wait := some .gang } }

/-- A released step that is due. -/
def released : State :=
  { matrixS with
    subject := 1, time := 100
    teams := [(1, { aTeam with engine := [{ members := [(1, mmaForm)], swal := false, flags := 0, due := 16 }] })] }

theorem witness_MatrixStep : ((latched 16).team 1).fullGang = some [arrival 16] ∧ ((latched 16).team 1).coverFault [arrival 16] = none
    ∧ (latched 16).bubble 0 = false ∧ ((latched 16).team 1).engine.isEmpty = true
    ∧ ((latched 15).team 1).fullGang = some [arrival 15] ∧ (((latched 15).team 1).coverFault [arrival 15]).isSome = true
    ∧ (released.team 1).engine.map (·.due) = [16] ∧ 16 ≤ released.time := by decide +kernel

/-- A fragment missing: each member takes kind 15. -/
theorem test_bad_cover : (match exec .gangStepRelease (latched 15) with
    | .next t => t.parts.map fun p => p.2.reports.map fun r => r.tcause &&& 0xFF
    | _ => []) = [[15]] := by decide +kernel

theorem witness_AccumulatorZero : allClear [.mzero, .mzeroSw] (form 2 0 0 0) matrixS = true := by decide +kernel

/-- The 96 values of row 3 of accumulator 2, whose contents are not defined, go to `v16` to `v18`, or to six registers. -/
def drains (f : Form) (wide : Bool) : Bool :=
  let xs := (matrixS.myTeam.promote 2).1.accVals matrixS.free 2 (96 * 3) 96
  clear (.mdr f) matrixS && matrixS.myTeam.widthOk 2 wide
    && (writeRange (.mdr f) (Claims.drained matrixS 2 1 0) (Spec.of f.d) 0
      (if wide then drainPairs (matrixS.me.active f) xs else drainWrites (matrixS.me.active f) xs)).toBool

def drainForm : Form := form 16 2 0xF3 0

theorem witness_MatrixDrain : drains drainForm false = true ∧ drains { drainForm with ty := 1 } true = true
    ∧ allClear [.sdrDiff, .sdrRatio, .sdrAgree] drainForm matrixS = true
    ∧ (writeRange (.sdrDiff drainForm) (Claims.drained matrixS 2 3 0) (.vec 16) 0
      (drainWrites (matrixS.me.active drainForm) (List.replicate 96 0))).toBool = true ∧ matrixS.me.scalar drainForm.b = 3
    ∧ (matrixS.myTeam.acc 2).valid = false ∧ (matrixS.myTeam.acc 3).valid = false
    ∧ allClear [.mdrSp] (form 1 2 0x89 0) matrixS = true ∧ matrixS.myTeam.inRegion 0 24576 = true
    ∧ (matrixS.core 0).copies = [] ∧ (matrixS.myTeam.wm 1).free = true := by decide +kernel

/-- A team with a ring of three slots, slot 0 in phase 1. -/
def ringed : State := matrixS.modTeam 1 fun t => { t with rings := [(1, { slots := 3, phase := 1 })] }

/-- Ring 1: slot 0 waits for phase 0 and passes at 1; slot 3 is out of range; ring 0 is not set up. -/
theorem witness_GangsAndRings : allClear [.racq, .rrel] (form 8 0 0 0) ringed = true ∧ allClear [.racq] { form 8 0 0 0 with imm := 1 } ringed = true
    ∧ allClear [.racq, .rrel] (form 11 0 0 0) ringed = true ∧ allClear [.racq] (form 0 0 0 0) ringed = true
    ∧ allClear [.rcfg] (form 1 0xF2 0 0) ringed = true ∧ allClear [.rcfg] (form 1 0xF9 0 0) ringed = true
    ∧ allClear [.agset] (form 1 0x92 0 0) ringed = true ∧ allClear [.gang] (form 0 0xF1 0 0) ringed = true
    ∧ (List.range 32).filter (ringed.me.scalar 0xF1).toNat.testBit = [0] ∧ ringed.myTeam.latch = []
    ∧ ringed.groups.map (fun g => (g.2.team, g.2.index, g.2.role)) = [(1, 0, .m)] := by decide +kernel

theorem test_rings : (after (.racq (form 8 0 0 0)) ringed).me.wait = some .ring
    ∧ (after (.racq { form 8 0 0 0 with imm := 1 }) ringed).me.wait = none
    ∧ ((after (.rrel (form 8 0 0 0)) ringed).myTeam.ring 1).phase = 0
    ∧ (trapped .rrel (form 11 0 0 0) ringed).1 = 6 := by decide +kernel

/-! ### Hypotheses that are met: copies and watermarks -/

/-- A shape register: 128 bytes in one run of each dimension; a gather of two runs of 16 bytes. -/
def shapeReg : VReg := VReg.ofLanes (fun l => if l = 0 then 128 else if l ≤ 4 then 1 else 0) fun _ => 0
def gatherReg : VReg :=
  VReg.ofLanes (fun l => if l = 0 then 16 else if l = 1 then 2 else if l = 2 then 1024 else if l = 16 then 16 else 0) fun _ => 0

/-- A group in role C, alone in its cohort, with bytes in its scratchpad. -/
def copyS : State :=
  { base with
    me := { vGroup with role := .c, regs := [(4, shapeReg), (6, gatherReg)], sregs := [(1, 0x100), (2, 0x200)] }
    cohorts := [(0, { teams := [(0, 1)], total := 1, m := [(0, 1)] })], teams := [(1, { aTeam with sp := [(0x200, 7), (0x201, 8)] })] }

def copyLegal (mk : Form → Instr) (kind : CopyKind) (f : Form) : Bool :=
  let cast := kind == .cpm
  clear (mk f) copyS && (readSources (mk f) (infoOf (mk f)) f true copyS).toBool
    && (match shapeOf (kind == .cpg) (if cast then 0 else f.imm.toNat / 4) (copyS.source f.cSpec .u32) with
      | some (n0, dims, list) => ((Claims.copyOf kind f copyS (read (mk f) copyS true) n0 dims list).check copyS).isNone
      | none => false)
    && (copyS.core 0).copies.isEmpty && (copyS.myTeam.wm f.d.toNat).free

/-- Within scratchpad, into global memory, a gather, a multicast. -/
theorem witness_CopyIssue : copyLegal .cpy .cpy { form 1 0x91 0x92 4 with imm := 2 } = true
    ∧ copyLegal .cpy .cpy { form 0 0x91 0x92 4 with imm := 1 } = true
    ∧ copyLegal .cpg .cpg { form 1 0x91 0x92 6 with imm := 2, ty := 24 } = true
    ∧ copyLegal .cpm .cpm { form 1 0x91 0x92 4 with imm := 1 + 0x10000 } = true := by decide +kernel

/-- The state in which the copy has been issued, with k bytes landed. -/
def copying (mk : Form → Instr) (imm : Word) (k : Nat) : State :=
  let s := after (mk { form 1 0x91 0x92 4 with imm }) copyS
  s.modCore 0 fun x => { x with copies := x.copies.map fun c => (c.1, { c.2 with landed := k, fronts := c.2.fronts.map fun p => (p.1, k) }) }

/-- Whether byte k of the only copy can land. -/
def lands (s : State) (k : Nat) : Bool :=
  match (s.core 0).copies with
  | (id, x) :: _ => id == 0 && x.frozen.isNone && x.ask.isNone && !x.global && k < x.total && s.mayLand 0 x && !s.landBlocked 0 x x.pos (x.dstAt k)
    && (match s.copyByte 0 x k with | .byte _ y _ => y.landed == x.landed && y.total == x.total | _ => false)
  | [] => false

/-- The first and the last byte of a copy of 128, of a multicast likewise. -/
theorem witness_CopyLanding : lands (copying .cpy 2 0) 0 = true ∧ lands (copying .cpy 2 127) 127 = true
    ∧ lands (copying .cpm (1 + 0x10000) 0) 0 = true ∧ lands (copying .cpm (1 + 0x10000) 127) 127 = true := by decide +kernel

/-- The last byte ends the copy; the first moves byte 0x200 to 0x100. -/
theorem test_copy_landing : ((after (.copyLand 0 0 1) (copying .cpy 2 127)).core 0).copies = []
    ∧ (after (.copyLand 0 0 1) (copying .cpy 2 0)).spRead 1 0x100 = 7 := by decide +kernel

/-- Batches 1 (complete) and 3 (one copy left); the next is numbered 17. -/
def batches : State :=
  { copyS with me := { copyS.me with
      batch := { copies := 2 }, nextb := 17, sealed := [(1, {}), (3, { copies := 1 })], sregs := [(1, 0x1000080), (2, 0x1000180)] } }

theorem witness_BatchesAndWatermarks : allClear [.cseal] (form 0x94 0 0 0) batches = true
    ∧ allClear [.cwait] (form 0 0xF1 0 0) batches = true ∧ allClear [.cwait] (form 0 0xF2 0 0) batches = true
    ∧ allClear [.cwait] (form 0 0xF3 0 0) batches = true
    ∧ allClear [.wmrdMark, .wmrdState, .wmrdBase, .wmrdLimit] (form 0x94 1 0 0) batches = true
    ∧ allClear [.wmcfg] (form 3 0x91 0x92 0) batches = true ∧ allClear [.wmcfg] (form 3 0x91 0x91 0) batches = true
    ∧ (batches.myTeam.wm 3).free = true ∧ batches.myTeam.inCohort 0x1000080 0x100 = true := by decide +kernel

theorem test_batches : (after (.cseal (form 0x94 0 0 0)) batches).me.scalar 0x94 = 1
    ∧ (after (.cwait (form 0 0xF3 0 0)) batches).me.wait = some .cwait ∧ (after (.cwait (form 0 0xF1 0 0)) batches).me.wait = none
    ∧ (after (.cwait (form 0 0xF2 0 0)) batches).me.pc = 0x100C
    ∧ (((after (.wmcfg (form 3 0x91 0x92 0)) batches).myTeam.wm 3).base, ((after (.wmcfg (form 3 0x91 0x92 0)) batches).myTeam.wm 3).mark)
      = (0x1000080, 0x1000080) := by decide +kernel

/-! ### Hypotheses that are met: memory -/

/-- The page at 0x10000 is cached as mapped to itself; a few bytes; `s1` and `s3` address them. -/
def memoryS : State :=
  { base with
    cores := [(0, { tlb := [{ base := 0x10000, large := false, entry := 0x10019 }] })]
    mem := [(0x10040, 0x85), (0x10041, 0x12), (0x10047, 0xFF), (0x10080, 3), (0x1009F, 0x77)]
    me := { vGroup with sregs := [(1, 0x10040), (2, 0x1000000000080090), (3, 0x10080)] } }

theorem memory_idle (a : Nat) : memoryS.bankBusy a = false := by unfold State.bankBusy; split <;> rfl

theorem memory_plain (la n : Nat) (h1 : memoryS.reaches 0 la n = true) (h2 : ∀ o < n, memoryS.located (la + o) = la + o) :
    Claims.PlainRam memoryS la n where
  reached := h1
  idle := by simp [State.busyBytes, memory_idle]
  still := h2
  sound := by intros; rfl
  beats := by intro o _ w; unfold State.meetBeat; split <;> rfl
  uncoded := by intros; rfl

/-- The accesses of the statements below: 8 bytes, 4 bytes and a 64 B cell at 0x10040, 128 bytes at 0x10080. -/
theorem memory_reaches (w r y : Bool) : Claims.Reaches memoryS 0x10040 8 w 0x10040 false r y
    ∧ Claims.Reaches memoryS 0x10040 4 w 0x10040 false r y ∧ Claims.Reaches memoryS 0x10040 64 w 0x10040 false r y
    ∧ Claims.Reaches memoryS 0x10080 128 w 0x10080 false r y := by
  cases w <;> cases r <;> cases y <;> refine ⟨⟨?_, ?_, ?_, ?_, ?_, ?_, memory_plain _ _ ?_ ?_⟩,
    ⟨?_, ?_, ?_, ?_, ?_, ?_, memory_plain _ _ ?_ ?_⟩, ⟨?_, ?_, ?_, ?_, ?_, ?_, memory_plain _ _ ?_ ?_⟩,
    ⟨?_, ?_, ?_, ?_, ?_, ?_, memory_plain _ _ ?_ ?_⟩⟩ <;> first | rfl | decide +kernel

theorem witness_GlobalLoad : clear (.ld { form 0x95 0x91 0x89 0 with ty := 26 }) memoryS = true
    ∧ (memoryS.me.address { form 0x95 0x91 0x89 0 with ty := 26 }) = 0x10040
    ∧ clear (.ld { form 4 0x93 0x89 0 with ty := 28 }) memoryS = true ∧ writable (.ld { form 4 0x93 0x89 0 with ty := 28 }) memoryS = true
    ∧ (memoryS.me.address { form 4 0x93 0x89 0 with ty := 28 }) = 0x10080
    ∧ memoryS.me.active { form 4 0x93 0x89 0 with ty := 28 } ≠ 0
    ∧ writable (.ld { form 4 0x93 0x89 0 with ty := 28, pred := some ⟨false, 0⟩ }) memoryS = true
    ∧ memoryS.me.active { form 4 0x93 0x89 0 with ty := 28, pred := some ⟨false, 0⟩ } = 0 := by decide +kernel

/-- 0x…FF.. at byte 7: the U64, the I8 sign-extended, lane 7 of the vector. -/
theorem test_loads : sees .ld { form 0x94 0x91 0x89 0 with ty := 26 } memoryS = 0xFF00000000001285
    ∧ sees .ld { form 0x94 0x91 0x89 0 with ty := 19 } memoryS = -123
    ∧ lane .ld { form 4 0x93 0x89 0 with ty := 28 } 7 memoryS = 0x77000000
    ∧ trapped .ld { form 0x94 0x92 0x89 0 with ty := 26 } memoryS = (19, 0x1000000000080090) := by decide +kernel

/-- The vector store has an active lane, and none in the second form. -/
theorem witness_GlobalStore : clear (.st { form 0x92 0x91 0x89 0 with ty := 26 }) memoryS = true
    ∧ taken (.st { form 0x92 0x91 0x89 0 with ty := 26 }) memoryS = true
    ∧ clear (.st { form 2 0x93 0x89 0 with ty := 28, pred := some ⟨false, 2⟩ }) memoryS = true
    ∧ taken (.st { form 2 0x93 0x89 0 with ty := 28, pred := some ⟨false, 2⟩ }) memoryS = true
    ∧ memoryS.me.active { form 2 0x93 0x89 0 with ty := 28, pred := some ⟨false, 2⟩ } = 0xF0F0
    ∧ clear (.st { form 2 0x93 0x89 0 with ty := 28, pred := some ⟨false, 0⟩ }) memoryS = true
    ∧ memoryS.me.active { form 2 0x93 0x89 0 with ty := 28, pred := some ⟨false, 0⟩ } = 0
    ∧ (memoryS.me.returned true).toBool = true := by decide +kernel

theorem test_stores : (after (.st { form 0x92 0x91 0x89 0 with ty := 22 }) memoryS).mem =
    [(0x10040, 0x90), (0x10047, 0xFF), (0x10080, 3), (0x1009F, 0x77)] := by decide +kernel

/-- The same team with bytes in its scratchpad at 0x40 and 0x80. -/
def scratchS : State :=
  { memoryS with
    teams := [(1, { aTeam with sp := [(0x40, 0x85), (0x41, 7), (0x80, 9), (0xFF, 3)] })]
    me := { memoryS.me with sregs := [(1, 0x40), (2, 0x85), (3, 0x80)] } }

theorem witness_ScratchpadAccess : clear (.ldSp { form 0x95 0x91 0x89 0 with ty := 26 }) scratchS = true
    ∧ clear (.ldSp { form 4 0x93 0x89 0 with ty := 28 }) scratchS = true ∧ writable (.ldSp { form 4 0x93 0x89 0 with ty := 28 }) scratchS = true
    ∧ clear (.stSp { form 0x92 0x91 0x89 0 with ty := 26 }) scratchS = true ∧ taken (.stSp { form 0x92 0x91 0x89 0 with ty := 26 }) scratchS = true
    ∧ clear (.stSp { form 2 0x93 0x89 0 with ty := 28 }) scratchS = true ∧ taken (.stSp { form 2 0x93 0x89 0 with ty := 28 }) scratchS = true
    ∧ scratchS.myTeam.inRegion 0x40 8 = true ∧ scratchS.myTeam.inRegion 0x80 128 = true
    ∧ (∀ r ∈ [(form 0x95 0x91 0x89 0, Ty.u64), (form 4 0x93 0x89 0, .v)],
      let bytes := touchedBytes scratchS.me r.1 r.2 (scratchS.me.address r.1).toNat
      gateBytes (scratchS.gates 1) bytes = .go ∧ scratchS.spBadAt 1 bytes = false ∧ storeGated (scratchS.gates 1) bytes = false) := by
  decide +kernel

/-- Without an active lane. -/
theorem witness_ScratchpadAccess_none : (let f : Form := { form 4 0x93 0x89 0 with ty := 28, pred := some ⟨false, 0⟩ }
    clear (.ldSp f) scratchS && clear (.stSp f) scratchS && writable (.ldSp f) scratchS && scratchS.me.active f == 0) = true := by
  decide +kernel

theorem test_scratchpad : sees .ldSp { form 0x94 0x91 0x89 0 with ty := 22 } scratchS = 0x785
    ∧ (trapped .ldSp { form 0x94 0x92 0x89 0 with ty := 22 } scratchS) = (7, 0x85)
    ∧ ((after (.stSp { form 0x92 0x91 0x89 0 with ty := 22 }) scratchS).spReadN 1 0x40 2) = [0x85, 0] := by decide +kernel

/-- `lds` of 128 bytes under predicate 2. -/
def ldsForm : Form := { form 4 0x93 0x89 0 with kc := 3, pred := some ⟨false, 2⟩ }

/-- The state in which its request is on its way. -/
def splitS : State := after (.lds ldsForm) memoryS

theorem witness_SplitPhase : clear (.lds ldsForm) memoryS = true ∧ memoryS.me.active ldsForm = 0xF0F0
    ∧ memoryS.me.loading (.vec 4) = false ∧ (memoryS.me.ctr 3).count = 0
    ∧ (match translated (.lds ldsForm) memoryS 0x10080 false with
      | .ok (h, _, s1) => (splitAllowed (.lds ldsForm) s1 0x10080 h).toBool && (s1.me.inOrder h 128 false).toBool
      | .error _ => false) = true
    ∧ clear (.lds { ldsForm with pred := some ⟨false, 0⟩ }) memoryS = true ∧ memoryS.me.active { ldsForm with pred := some ⟨false, 0⟩ } = 0
    ∧ ((splitS.group 1).splits.any fun l => (splitS.splitFinds (splitS.group 1) l).isSome) = true
    ∧ clear (.kwait (form 0 3 0x89 0)) memoryS = true ∧ clear (.kwait (form 0 3 0x89 0)) splitS = true ∧ (splitS.me.ctr 3).count = 1 := by
  decide +kernel

theorem test_split : (after (.kwait (form 0 3 0x89 0)) splitS).me.wait = some .kwait
    ∧ ((after (.ldsReply 1 0) splitS).me.ctr 3).count = 0
    ∧ ((after (.ldsReply 1 0) splitS).me.regs.get 4 .fresh).lane 7 = 0x77000000 := by decide +kernel

theorem witness_ScalarAtomic : allClear [.atomAdd, .atomMin, .atomMax, .atomAnd, .atomOr, .atomXor, .atomExch, .atomCas]
      { form 0x94 0x91 0x89 0x92 with ty := 24 } memoryS = true
    ∧ (memoryS.me.address { form 0x94 0x91 0x89 0x92 with ty := 24 }) = 0x10040 ∧ Spec.of 0x94 = .sca 4 := by decide +kernel

/-- Old value 0x1285, operand 0x80090. -/
theorem test_atomics : (let new (mk : Form → Instr) := let t := after (mk (fill mk { form 0x94 0x91 0x89 0x92 with ty := 24 })) memoryS
      (t.me.scalar 0x94, numOf (Memory.readN t.mem 0x10040 4))
    [new .atomAdd, new .atomMin, new .atomMax, new .atomAnd, new .atomOr, new .atomXor, new .atomExch]) =
    [(0x1285, 0x81315), (0x1285, 0x1285), (0x1285, 0x80090), (0x1285, 0x80), (0x1285, 0x81295), (0x1285, 0x81215), (0x1285, 0x80090)] := by
  decide +kernel

/-- Offsets of the lanes in `v6`. -/
def lanesS : State := { memoryS with me := { memoryS.me with regs := memoryS.me.regs ++ [(6, VReg.ofLanes (fun l => 4 * (l % 20)) fun _ => 0)] } }

/-- A vector atomic, and what its statement asks of it. -/
def atomLegal (mk : Form → Instr) : Bool :=
  let f := fill mk { form 4 0x91 6 2 with ty := 24, pred := some ⟨false, 2⟩ }
  let i := mk f
  let op (k : Granule) : HomeOp := .atoms (infoOf i).fn .u32 (k.lanes.map fun l =>
    (l.2, BitVec.ofNat 64 ((lanesS.source f.cSpec .u32).lane l.1), BitVec.ofNat 64 ((lanesS.source f.d .u32).lane l.1)))
  clear i lanesS && taken i lanesS && lanesS.me.active f == 0xF0F0
    && ((atomLanes lanesS f).all fun p => p.2.toNat % 4 == 0 && p.2.toNat < 2 ^ 52)
    && (match lanesHomes i .u32 lanesS (atomLanes lanesS f) with
      | .ok (hs, sc, s1) => (granulesOf hs).all (!·.home.away) && (s1.me.returned ((f.releases || sc) && f.wide)).toBool
        && (match awayGranules i op (s1.release (f.releases || sc) f.wide) [] with
          | .ok (got, _) => got.isEmpty
          | .error _ => false)
        && (match nearGranules i op (s1.release (f.releases || sc) f.wide) [] (granulesOf hs) with
          | .ok (olds, s2) => (readSources i (infoOf i) f false s2).toBool
            && (writeReg i s2 (Spec.of f.d) (laneWrite (s2.me.active f) fun l => olds.get l 0) false).toBool
          | .error _ => false)
      | .error _ => false)

theorem witness_VectorAtomic : (Claims.atomics.all atomLegal) = true
    ∧ (let f : Form := { form 4 0x91 6 2 with ty := 24, pred := some ⟨false, 0⟩ }
      allWritable Claims.atomics f lanesS && lanesS.me.active f == 0 && (lanesS.me.returned true).toBool) = true := by decide +kernel

theorem witness_ExactSums : clear (.xsum { form 0x92 0x91 0x89 0 with ty := 2 }) memoryS = true
    ∧ taken (.xsum { form 0x92 0x91 0x89 0 with ty := 2 }) memoryS = true
    ∧ clear (.xsum { form 2 0x91 0x89 0 with ty := 2 }) memoryS = true ∧ taken (.xsum { form 2 0x91 0x89 0 with ty := 2 }) memoryS = true
    ∧ memoryS.me.active { form 2 0x91 0x89 0 with ty := 2 } ≠ 0
    ∧ (let f : Form := { form 2 0x91 0x89 0 with ty := 2, pred := some ⟨false, 0⟩ }
      clear (.xsum f) memoryS && memoryS.me.active f == 0) = true
    ∧ allClear [.xrd, .xrdClr] { form 0x95 0x91 0x89 0 with ty := 2 } memoryS = true
    ∧ allClear [.xrd, .xrdClr] { form 0x95 0x91 0x89 0 with ty := 1 } memoryS = true ∧ (arithMode memoryS.me.fm).isSome = true := by
  decide +kernel

/-- 32 lanes of 2.0 added to an empty cell read 64.0; `xrd.clr` leaves zeros. -/
theorem test_exact_sum : (let s := after (.xsum { form 2 0x91 0x89 0 with ty := 2 }) { memoryS with mem := [] }
    let t := after (.xrdClr (fill .xrdClr { form 0x94 0x91 0x89 0 with ty := 2 })) { s with me := { s.me with pc := 0x1000 } }
    (t.me.scalar 0x94, t.mem)) = (0x42800000, []) := by decide +kernel

/-- A second group of the team. -/
def pairS : State := { memoryS with others := [(2, { vGroup with index := 1 })], teams := [(1, { aTeam with ngroups := 2 })] }

def barForm : Form := { form 0 0 0 0 with scope := 2, imm := 3 }

/-- A barrier of one is done at once; of two, it waits; the second group finds it released. -/
theorem witness_FenceAndBarrier : allClear [.fence] ext memoryS = true ∧ allClear [.fence] { ext with ord := 1, scope := 2 } memoryS = true
    ∧ clear (.bar { barForm with imm := 0 }) memoryS = true ∧ (memoryS.barMask memoryS.me false 0).isSome = true
    ∧ clear (.bar barForm) pairS = true ∧ (pairS.barMask pairS.me false 3).isSome = true ∧ (pairS.barrier pairS.me false).mask = 0
    ∧ pairS.me.bargen = none ∧ (pairS.barrier pairS.me false).gen ≠ 4 ∧ memoryS.me.splits.isEmpty = true
    ∧ allClear [.fence] { ext with scope := 2 } splitS = true ∧ splitS.me.splits.length = 1 := by decide +kernel

/-- The barrier's generation is still the one the group waits in; it is not complete, and it is in a team of one. -/
theorem witness_FenceAndBarrier_waiting : (let s : State := { pairS with
        me := { pairS.me with bargen := some 0 }, teams := [(1, { aTeam with ngroups := 2, bar := { arrived := [0], mask := 3 } })] }
      clear (.bar barForm) s && !s.barDone s.me false (s.barrier s.me false)) = true
    ∧ (let s : State := { memoryS with
        me := { memoryS.me with bargen := some 0 }, teams := [(1, { aTeam with bar := { arrived := [0], mask := 1 } })] }
      clear (.bar { barForm with imm := 0 }) s && (s.barrier s.me false).gen == 0 && s.barDone s.me false (s.barrier s.me false)) = true := by
  decide +kernel

/-- A release at `.sy` behind a write by PCI Express that has not been acknowledged, and the same at `.dv`. -/
theorem witness_FenceAndBarrier_posted : (let s : State := { memoryS with me := { memoryS.me with posted := [(7, 0x10040)] } }
    [5, 4].map fun n => let f := { ext with scope := n }; (clear (.fence f) s, f.sys, s.me.posted.length)) = [(true, true, 1), (true, false, 1)] := by
  decide +kernel

theorem test_barrier : (after (.bar { barForm with imm := 0 }) memoryS).me.wait = none
    ∧ (after (.bar barForm) pairS).me.wait = some .barrier
    ∧ (after (.bar barForm) { pairS with me := { pairS.me with bargen := some 4 } }).me.pc = 0x100C := by decide +kernel

/-! ### Hypotheses that are met: places and near-bank compute -/

/-- `v4` in register 2 of bank 3, which is the group's; the page at 0x200000 is compute-capable, in half 0. -/
def bankS : State :=
  { memoryS with
    me := { memoryS.me with
      pmap := [(4, 0x40000000 + 3 * 1024 + 2 * 32)], sregs := [(1, 0x200080), (2, 0x200000), (3, 1)]
      regs := memoryS.me.regs ++ [(7, splat 0x3F803F80)] }
    parts := [(0, { state := 2, cpages := [(1, computeLeaf 0 (3 * 2 ^ 32))]
                    banks := [(3, { regs := [(2, splat 0x40000000)], owner := [(2, (1, 4))] })] })]
    mem := [(3 * 2 ^ 32 + 3 * 2 ^ 26 + 0x82, 0x80), (3 * 2 ^ 32 + 3 * 2 ^ 26 + 0x83, 0x3F)] }

/-- `v2` in scratchpad slot 5; `v4` a local queue of depth 4 with one entry, the in end of culvert 0, the out end of culvert 8. -/
def slotS : State := after (.plc { form 2 0 0 0 with plc := 1, imm := 5 }) memoryS
def queueS : State := { memoryS with me := { memoryS.me with pmap := [(4, 0x08000000 + 3 * 0x400000)], lqueues := [(4, [.fresh])] } }
def inS : State := { memoryS with me := { memoryS.me with pmap := [(4, 0x70000000)] }, culverts := [(0, { depth := 9, taken := 4, entries := [.fresh] })] }
def outS : State := { memoryS with me := { memoryS.me with pmap := [(4, 0x78000000)] }, culverts := [(8, { depth := 9, taken := 4, entries := [.fresh] })] }

/-- A placement that its operand may name. -/
def places (s : State) (d plc : Nat) (imm : Word) (new : BitVec 32) : Bool :=
  let f := { form d 0 0 0 with plc := BitVec.ofNat 3 plc, imm }
  clear (.plc f) s && (match plcTarget s f d with | .ok x => x == new | .error _ => false) && !s.me.loading (.vec d)

/-- Two teams of a cohort on facing cores; the group of the other one waits to exchange its `v9` with group 0 of team 0. -/
def facingS : State :=
  { memoryS with
    others := [(2, { vGroup with core := 128, team := 2, wait := some .xchg, regs := [(9, splat 77)]
                                 xw := some { form := form 9 0x89 0 0, team := 0, group := 0, mask := 0xFF00FF } })]
    teams := [(1, aTeam), (2, { aTeam with index := 1, core := 128 })]
    parts := [(0, { slots := [(0, { grid := 2, teams := 1, groups := [1] })] })] }

/-- Partners out of range, not placed yet and gone: a team beyond the launch, one that is bound, one that has ended. -/
theorem witness_Places_partners : clear (.xchg (form 2 0xF2 0 0)) facingS = true ∧ facingS.partner 2 0 = .far
    ∧ ({ facingS with teams := [(1, aTeam)] } : State).partner 1 0 = .waits
    ∧ ({ facingS with
        teams := [(1, aTeam)], parts := [(0, { slots := [(0, { grid := 2, teams := 1, groups := [1], ended := [(1, 4)] })] })] } : State).partner 1 0
      = .gone := by decide +kernel

/-- A culvert with an entry that has arrived at cycle 40 and a slot that comes back at 49; the next come later. -/
def culvertS : State :=
  { memoryS with
    subject := 3, time := 50
    culverts := [(3, { depth := 9, taken := 4, flying := [(40, splat 1), (60, splat 2)], returns := [49, 50] })] }

theorem witness_Places : (places memoryS 2 1 5 0x20000005 && places slotS 2 0 0 0 && places memoryS 2 0 0 0
      && places bankS 2 2 (1024 * 7 + 32 * 4) (0x40000000 + 1024 * 7 + 32 * 4) && places bankS 4 0 0 0) = true
    ∧ slotS.gate 1 (128 * 5) 128 = .go ∧ slotS.spBad 1 (128 * 5) 128 = false
    ∧ [memoryS, queueS, inS, outS].all (clear (.qfree (form 0x95 4 0 0))) = true
    ∧ clear (.xchg (form 2 0xF1 0 0)) facingS = true ∧ (match facingS.partner 1 0 with | .there h => h == 2 | _ => false) = true
    ∧ (facingS.group 2).xw.isSome = true ∧ (facingS.group 2).status = .running ∧ (facingS.group 2).sched = .active
    ∧ facingS.myTeam.index = 0 ∧ facingS.me.index = 0 ∧ (facingS.me.entry 2, facingS.me.loading (.vec 2)) = (0, false)
    ∧ (culvertS.culvert 3).flying.map (·.1) = [40, 60] ∧ (culvertS.culvert 3).returns = [49, 50] := by decide +kernel

theorem test_places : (slotS.spReadN 1 (128 * 5) 4, slotS.me.entry 2) = ([0, 0, 0, 0x40], 0x20000005)
    ∧ (sees .qfree (form 0x94 4 0 0) queueS, sees .qfree (form 0x94 4 0 0) inS) = (3, 5)
    ∧ ((after (.xchg (form 2 0xF1 0 0)) facingS).me.regs.get 2 .fresh).lane 0 = 77
    ∧ ((after .culvertEntryArrival culvertS).culvert 3).entries = [splat 1]
    ∧ ((after .slotReturn culvertS).culvert 3).taken = 3
    ∧ ((after .slotReturn (after .slotReturn culvertS)).culvert 3).taken = 3 := by decide +kernel

/-- What one register is: at `ln`, a queue with room, a full one, a slot, a bank register, an in end. -/
theorem witness_RegisterWrite : memoryS.me.loading (.opf 3) = false ∧ memoryS.me.loading (.vec 4) = false
    ∧ (mapQKind (memoryS.me.entry 4), mapPlace (memoryS.me.entry 4)) = (0, 0)
    ∧ (mapQKind (queueS.me.entry 4), mapQDepth (queueS.me.entry 4), (queueS.me.lqueues.get 4 []).length) = (1, 4, 1)
    ∧ (mapQKind (slotS.me.entry 2), mapPlace (slotS.me.entry 2)) = (0, 1)
    ∧ (mapQKind (bankS.me.entry 4), mapPlace (bankS.me.entry 4)) = (0, 2)
    ∧ mapPlace (inS.me.entry 4) = 3 ∧ (let c := inS.culvert (culvertOf 0 (inS.me.entry 4)); (c.inGone, c.away, c.taken, c.depth)) = (false, false, 4, 9) := by
  decide +kernel

/-- The row at 0x200080 in the bank of `v4`, its bytes at some offsets, and the write of `v4` that follows. -/
def nearLegal (i : Instr) (x : Word) (offs : List Nat) (write : Bool) : Bool :=
  clear i bankS && (match bankRow i bankS (bankD bankS.me i.form) x write with
    | .ok (r, s1) => !s1.bankBusy r.la && (write || (match readRow i s1 (r.lo + BitVec.ofNat 64 (x.toNat % 65536)) r.la offs with
      | .ok (_, s2) => writable i s2
      | .error _ => false))
    | .error _ => false)

def nearForm : Form := { form 4 0x91 0x89 0 with pred := some ⟨false, 2⟩ }

theorem witness_NearBank : (let idle : State := { bankS with me := { bankS.me with em := 0 } }
      clear (.nbld nearForm) idle && clear (.nbst nearForm) idle && clear (.nbfma { nearForm with b := 7, c := 7, ty := 2 }) idle
        && clear (.nbdot { nearForm with b := 7 }) idle) = true
    ∧ (arithMode bankS.me.fm).isSome = true ∧ bankS.me.active nearForm = 0xF0F0
    ∧ nearLegal (.nbld nearForm) 0x200080 (laneBytes 0xF0F0) false = true
    ∧ nearLegal (.nbfma { nearForm with b := 7, c := 7, ty := 2 }) 0x200080 (laneBytes 0xF0F0) false = true
    ∧ dotLeaves 0x10 0x80 = false
    ∧ nearLegal (.nbdot { nearForm with b := 7, pred := some ⟨false, 3⟩ }) 0x200080 (dotBytes 0x10) false = true
    ∧ nearLegal (.nbst nearForm) 0x200080 [] true = true := by decide +kernel

/-- `nbst` of 2.0 in lane 4 leaves its bytes at 0x200090, in the stripe of bank 3. -/
theorem test_near_bank : Memory.readN (after (.nbst nearForm) bankS).mem (3 * 2 ^ 32 + 3 * 2 ^ 26 + 0x90) 4 = [0, 0, 0, 0x40]
    ∧ ((after (.nbld { form 4 0x91 0x89 0 with pred := none }) bankS).bankReg 0 3 2).lane 0 = 0x3F800000 := by decide +kernel

/-! ### Hypotheses that are met: power -/

/-- `s1` names core n by its island number; core 5 is as given. -/
def powerS (n : Nat) (x : Core) : State :=
  { memoryS with
    subject := 5, clusters := [(0, {})], time := 5000, me := { memoryS.me with sregs := [(1, BitVec.ofNat 64 (0x100 + n))] }, cores := [(5, x)] }

/-- Another partition's island; one on its way down; one that wakes; a busy one; an idle one. -/
theorem witness_PowerInstructions : [powerS 2000 {}, powerS 5 { power := .hold }, powerS 5 { power := .waking }, powerS 0 {}, powerS 5 {}].all
      (fun s => clear (.pgr one) s && allClear [.pwrqLvl, .pwrqGate, .pwrqWeir, .pwrqTherm] one s
        && (islandOf s.me.core (s.me.scalar 0x91).toNat).isSome) = true
    ∧ corePart 2000 ≠ 0 ∧ (powerS 0 {}).idle 0 = false ∧ (powerS 5 {}).idle 5 = true
    ∧ clear (.perf (form 0 0x92 0 0)) memoryS = true ∧ clear (.perf (form 0 5 0 0)) memoryS = true
    ∧ taken (.perf (form 0 5 0 0)) memoryS = true ∧ clear (.perf (form 0 5 0 0)) { memoryS with me := { memoryS.me with em := 0 } } = true := by
  decide +kernel

theorem test_power : (sees .pgr one (powerS 2000 {}), sees .pgr one (powerS 0 {}), sees .pgr one (powerS 5 {})) = (2, 1, 0)
    ∧ ((after (.pgr one) (powerS 5 {})).core 5).power = .gating
    ∧ sees .pwrqGate one (powerS 2000 {}) = 0x8000_0000_0000_0000
    ∧ (after (.perf (form 0 0xFE 0 0)) memoryS).me.level = 7 ∧ (after (.perf (form 0 5 0 0)) memoryS).me.level = 7 := by decide +kernel

/-- The bounds: 550 cycles to discharge, 2,200 of hold, 220 to wake. -/
theorem witness_PowerHardware : (powerS 5 { request := true }).idle 5 = true ∧ 4450 + 550 ≤ (powerS 5 {}).time
    ∧ 2800 + 2200 ≤ (powerS 5 {}).time ∧ 4780 + 220 ≤ (powerS 5 {}).time
    ∧ (∀ j < 8, ((powerS 5 {}).core (8 * 0 + j)).power ≠ .waking) ∧ 3900 + 1100 ≤ (powerS 5 {}).time
    ∧ (({ powerS 5 {} with time := 55_000 } : State).cluster 0).weirAt = 0 ∧ (({ powerS 5 {} with time := 55_000 } : State).cluster 0).pollAt = 0 := by
  decide +kernel

/-- A throttled partition whose rise is within its budget. -/
def slewS : State := { powerS 5 {} with subject := 3, parts := [(3, { slew := some 3900, rise := 2, slewMax := 2 })] }

theorem test_slew_throttle_end : (slewS.part 3).slew = some 3900 ∧ (slewS.part 3).rise ≤ (slewS.part 3).slewMax
    ∧ ((after .slewThrottleEnd slewS).part 3).slew = none
    ∧ ((after .slewThrottleEnd { slewS with time := 4999 }).part 3).slew = some 3900 := by decide +kernel

theorem test_power_phases : ((after .gatingDischarged (powerS 5 { power := .gating, since := 4450 })).core 5).power = .hold
    ∧ ((after .gatingDischarged (powerS 5 { power := .gating, since := 4451 })).core 5).power = .gating
    ∧ ((after .holdEnd (powerS 5 { power := .hold, since := 2800 })).core 5).power = .gated
    ∧ ((after .wakeComplete (powerS 5 { power := .waking, since := 4780 })).core 5).power = .on
    ∧ ((after (.thermalPoll 0 115 40) { powerS 5 {} with time := 55_000 }).cluster 0).tclu = 115
    ∧ ((after (.thermalPoll 0 115 40) { powerS 5 {} with time := 54_999 }).cluster 0).tclu = 0 := by decide +kernel

/-! ### Hypotheses that are met: pages and fault buffers -/

/-- A steward team: 0x200000 is mapped to a compute-capable page, 0x400000 is not mapped. -/
def stewardS : State :=
  { memoryS with
    teams := [(1, { aTeam with steward := true })]
    me := { memoryS.me with sregs := [(1, 0x200000), (2, 0x400000), (3, 1)] }
    parts := [(0, { state := 2, cpages := [(1, computeLeaf 0 (3 * 2 ^ 32))] })] }

/-- Entry 3 of core 0's fault buffer is a group's; `s1` is the operand of `fbsvc`. -/
def faultS (v : Word) : State :=
  { stewardS with
    cores := [(0, { fbuf := [(3, (.group 9, 0x5000))] })], me := { stewardS.me with sregs := [(1, v)] } }

/-- A group parked without an entry at an address that no longer faults. -/
def parkedS : State :=
  { stewardS with
    subject := 2
    others := [(2, { vGroup with status := .parked, parked := some { va := 0x10000, entry := none, trap := ⟨19, 0, 0, 0, 0, false⟩, pos := 0, ins := none, doomed := false } })] }

/-- The same steward with tables at 0x20000, whose bank is refreshing. -/
def refreshS : State :=
  { stewardS with parts := [(0, { state := 2, root := 0x20000, banks := (List.range 64).map fun b => (b, { busy := 9 }) })] }

def refreshF (v : Word) : State :=
  { refreshS with
    cores := [(0, { fbuf := [(3, (.group 9, 0x405000))] })], me := { stewardS.me with sregs := [(1, v)] } }

/-- What the walk of `mapc` at an address ends at. -/
def walksAll (s : State) (v : Nat) : Walk := (State.walkAll 0 v (s.who s.me (BitVec.ofNat 64 v) 7) (List.range 32) s).1

/-- A steward whose tree has a malformed leaf at 0x200000; one whose root table lies in a column with more damage than it can correct. -/
def mappedS : State := { stewardS with mem := [(0x20000, 9)] ++ stewardS.mem, parts := [(0, { state := 2, root := 0x20000 })] }
def brokenS : State := ({ stewardS with parts := [(0, { state := 2, root := 0x20000 })] } : State).damageColumn 0x20000 4

theorem witness_PagesAndFaults : clear (.mapc (form 0x94 0x91 0x93 0)) stewardS = true ∧ clear (.mapc (form 0x94 0x92 0x93 0)) stewardS = true
    ∧ stewardS.installedAt 0 0x200000 = false ∧ stewardS.installedAt 0 0x400000 = false
    ∧ (match walksAll stewardS 0x200000 with | .leaf _ => true | _ => false) = true
    ∧ (let s : State := { stewardS with parts := [(0, { state := 2, winva := 0x210000 })] }; s.installedAt 0 0x200000 = true ∧ clear (.mapc (form 0x94 0x91 0x93 0)) s = true) ∧ walksAll stewardS 0x400000 = .invalid
    ∧ (stewardS.part 0).freeStripe 1 = some 0 ∧ (∀ j < 32, stewardS.bankBusy (3 * 2 ^ 32 + 2 ^ 31 + j * 2 ^ 26) = false)
    ∧ (let s : State := { stewardS with parts := [(0, { state := 2, banks := [(33, { busy := 9000 })] })] }
      s.bankBusy (3 * 2 ^ 32 + 2 ^ 31 + 1 * 2 ^ 26) = true ∧ walksAll s 0x400000 = .invalid)
    ∧ (({ spool := 0 } : Partition).freeStripe 1) = none
    ∧ allClear [.unmapc] (form 0x94 0x91 0 0) stewardS = true ∧ stewardS.nearWaits 0 0x200000 = false
    ∧ (match stewardS.walk 0 0x200000 { va := 0x200000, source := 7 } with
      | (.leaf l, s1) => l.large && leafC l.entry && s1.leafOk l
      | _ => false) = true
    ∧ clear (.xinv (form 0 0x91 0x92 0)) stewardS = true ∧ stewardS.inFlight (invNames 0 false) 0x200000 0x400000 = false
    ∧ [0x000C0003, 4, 3, 0x100003].all (fun v => clear (.fbsvc (form 0x94 0x91 0 0)) (faultS v)) = true
    ∧ stewardS.me.splits.isEmpty = true
    ∧ (let s : State := { stewardS with me := { stewardS.me with splits := splitS.me.splits } }
      clear (.xinv (form 0 0x91 0x92 0)) s && !s.me.splits.isEmpty) = true
    ∧ (parkedS.group 2).status = .parked ∧ ((parkedS.core 0).fbuf.get? 63).isNone = true
    ∧ (match (parkedS.stillFaults 0 0x10000 false).1 with
      | .ok h sc => (Xlate.ok h sc).barFar false 0 == .ok h sc
      | _ => false) = true
    ∧ (faultS 3).replayWaits 0 3 = false ∧ walksAll refreshS 0x400000 = .busy
    ∧ walksAll mappedS 0x200000 = .malformed ∧ walksAll brokenS 0x400000 = .unread
    ∧ (brokenS.walk 0 0x400000 { va := 0x400000, source := 7 }).1 = .unread ∧ brokenS.nearWaits 0 0x400000 = false
    ∧ clear (.mapc (form 0x94 0x91 0x93 0)) mappedS = true ∧ clear (.mapc (form 0x94 0x92 0x93 0)) brokenS = true
    ∧ clear (.mapc (form 0x94 0x92 0x93 0)) refreshS = true ∧ allClear [.unmapc] (form 0x94 0x92 0 0) refreshS = true
    ∧ (refreshS.walk 0 0x400000 { va := 0x400000, source := 7 }).1 = .busy ∧ refreshS.nearWaits 0 0x400000 = false
    ∧ clear (.fbsvc (form 0x94 0x91 0 0)) (refreshF 3) = true ∧ (refreshF 3).replayWaits 0 3 = true := by
  decide +kernel

theorem test_pages : (sees .mapc (form 0x94 0x91 0x93 0) stewardS, sees .unmapc (form 0x94 0x91 0 0) stewardS) = (1, 0)
    ∧ (sees .fbsvc (form 0x94 0x91 0 0) (faultS 0x000C0003), sees .fbsvc (form 0x94 0x91 0 0) (faultS 4), sees .fbsvc (form 0x94 0x91 0 0) (faultS 3))
      = (2, 1, 0)
    ∧ ((after .accessRestart parkedS).group 2).status = .running := by decide +kernel

/-! ### Hypotheses that are met: traps, safe points, register blocks -/

/-- A group with a handler at 0x2000, stacks, flags and a rounding mode. -/
def handled : Group :=
  { memoryS.me with tvec := 0x2000, rstack := [⟨1, 2, 3, 4, 5, 0, false⟩], lstack := [⟨8, 3⟩], ff := 3, fm := 0x20 }
def handledS : State := { memoryS with me := handled, others := [(2, { vGroup with index := 1, sched := .pending })] }

/-- A trap of kind 13 goes to the handler; kind 21 always to the steward. -/
def aTrap (kind : Nat) : Trap := ⟨kind, 55, 0xF0, 1, 0xB2, false⟩

/-- In its handler. -/
def handlerS : State := { handledS.takeTrap 1 (aTrap 13) with time := 50 }

theorem witness_TrapRouting : (handledS.group? 1).isSome = true ∧ handled.depth = false ∧ handled.tvec.toNat % 2 ^ 52 = 0x2000
    ∧ steerBit 13 ≠ none ∧ (steerBit 13).any handled.tvec.getLsbD = false ∧ aTeam.steward = false ∧ handled.status = .running
    ∧ (aTrap 21).kind = 21 := by decide +kernel

theorem test_trap_entry : (handlerS.me.tepc, handlerS.me.tcause &&& 0xFF, handlerS.me.tval, handlerS.me.tlm, handlerS.me.pc, handlerS.me.depth)
      = (0x1000, 13, 55, 0xF0, 0x2000, true)
    ∧ (handlerS.me.setL, handlerS.me.lstack, handlerS.me.relief.map (·.block)) = ([⟨8, 3⟩], [], some 15) := by decide +kernel

theorem witness_TrapReport : handled.toSteward false 21 = true ∧ handled.toSteward true 13 = true := by decide +kernel

theorem test_trap_report : (((handledS.takeTrap 1 (aTrap 21)).part 0).reports.map fun r => (r.team, r.group, r.tepc, r.tval, r.tlm))
    = [(0, 0, 0x1000, 55, 0xF0)] := by decide +kernel

theorem witness_TrapInstructions : (issueCheck (.trap ext) (infoOf (.trap ext)) ext false handledS).toBool = true
    ∧ clear (.tret ext) handlerS = true ∧ handlerS.me.depth = true ∧ handlerS.meId = 1 ∧ handlerS.me.status = .running
    ∧ handlerS.spDamage.get (saveSlotKey 1) [] = [] ∧ handlerS.me.tepc.toNat % 4 = 0 ∧ clear (.tret ext) handledS = true
    ∧ (∀ k < 5, clear (.trr (form 0x94 k 0 0)) handlerS = true ∧ clear (.trw (form k 0xEE 0 0)) handlerS = true) := by decide +kernel

/-- A misaligned address to return to; a double error in the save slots. -/
theorem witness_TrapInstructions_tret : (let s : State := { handlerS with me := { handlerS.me with tepc := 0x1002 } }
      clear (.tret ext) s && s.me.depth && s.me.tepc.toNat % 4 != 0) = true
    ∧ (let s : State := { handlerS with spDamage := [(saveSlotKey 1, [4])] }
      clear (.tret ext) s && s.spDamage.get (saveSlotKey s.meId) [] != []) = true := by decide +kernel

theorem test_tret : (let t := after (.tret ext) handlerS; (t.me.pc, t.me.depth, t.me.rstack, t.me.lstack, t.me.relief.isSome))
      = (0x1000, false, handled.rstack, handled.lstack, false)
    ∧ (after (.trw (form 0 0xEF 0 0)) handlerS).me.tvec = 0x1FFF_FFFF_FFFF_FFFF
    ∧ (let t := after (.trap { ext with imm := 0x77 }) handledS; (t.me.tcause &&& 0xFF, t.me.tval, t.me.tepc, t.me.pc))
      = (22, 0x77, 0x1000, 0x2000) := by decide +kernel

def sptForm : Form := { ext with imm := 0x1F }
def preemptS : State := handledS.modTeam 1 fun t => { t with preempt := some { full := true, addr := 0x4000, stopped := [], written := [] } }

theorem witness_SafePoints : clear (.spt sptForm) handledS = true ∧ handledS.me.stopAt = none ∧ (handledS.team 1).preempt = none
    ∧ clear (.spt sptForm) preemptS = true ∧ (preemptS.team 1).preempt ≠ none ∧ (preemptS.team 1).steward = false ∧ preemptS.me.npr = none
    ∧ allClear [.npr, .epr] ext handledS = true
    ∧ (let s := { preemptS with subject := 1, me := { handled with words := 4097 } }
      s.stoppable 1 = true ∧ 4096 < (s.group 1).words ∧ (s.group 1).asked = none)
    ∧ (let s := { preemptS with subject := 1, me := { handled with wait := some .ring }, issued := [(1, 0, 0)] }
      s.stoppable 1 = true ∧ s.stalledNow 1 = true) := by decide +kernel

theorem test_safe_points : (after (.spt sptForm) preemptS).me.status = .preempted ∧ (after (.spt sptForm) preemptS).me.pc = 0x100C
    ∧ (after .forcedSave { preemptS with subject := 1, me := { handled with words := 4097 } }).me.status = .preempted
    ∧ (after .forcedSave { preemptS with subject := 1, me := { handled with words := 4096 } }).me.status = .running
    ∧ (after (.npr (fill .npr ext)) { handledS with time := 7 }).me.npr = some 7
    ∧ (after .nprTimeLimit { handledS with subject := 1, time := 220004, me := { handled with npr := some 4 } }).me.nprt = true := by decide +kernel

/-- Blocks 0 and 1 are held. -/
def blocksS : State := { memoryS with me := { handled with held := 0x3, regs := [(1, splat 4), (9, splat 5)], pmap := [(9, 0x20000001)] } }

theorem witness_RegisterBlocks : allClear [.rbget, .rbput] (form 1 0 0 0) blocksS = true ∧ allClear [.rbget, .rbput] (form 5 0 0 0) blocksS = true
    ∧ (blocksS.me.holds 1, blocksS.me.holds 5, blocksS.me.relief, blocksS.me.queueIn 1, blocksS.me.splits) = (true, false, none, none, [])
    ∧ 0 < blocksS.blocksFree 0 ∧ ({ blocksS with cores := [(0, { freeBlocks := 0 })] } : State).blocksFree 0 = 0
    ∧ clear (.rbget (form 5 0 0 0)) { blocksS with cores := [(0, { freeBlocks := 0 })] } = true
    ∧ (let s := { blocksS with subject := 0, me := { blocksS.me with want := some 3 } }
      (s.core 0).emergency = true ∧ s.residents 0 ≠ [] ∧ (∀ y ∈ s.residents 0, y.2.status = .running ∧ y.2.want.isSome = true)
        ∧ (leastGroup s.ageKey ((s.residents 0).filter fun y => !y.2.depth)).isSome = true) := by decide +kernel

theorem test_register_blocks : (after (.rbget (form 5 0 0 0)) blocksS).me.held = 0x23
    ∧ (after (.rbput (fill .rbput (form 1 0 0 0))) blocksS).me.held = 0x1
    ∧ (after (.rbget (form 5 0 0 0)) { blocksS with cores := [(0, { freeBlocks := 0 })] }).me.wait = some .rbget := by decide +kernel

/-! ### Hypotheses that are met: system registers, commands, the place window -/

def ringS (v : Word) : State :=
  { stewardS with
    parts := [(0, { state := 2, trbase := 0x10000, trmark := 7, trtail := 7 })], me := { stewardS.me with sregs := [(1, v)] } }

/-- A system register form: `d` = `s4`, `a` = `s1`. -/
def sysForm (n : Word) : Form := { one with imm := n }

theorem witness_SystemRegisters :
    [0, 1, 0x10, 0x13].all (fun n => clear (.srr { form 0x94 0 0 0 with imm := n }) (ringS 0)) = true
    ∧ clear (.trmarkRead { form 0x94 0 0 0 with imm := 0x12 }) (ringS 0) = true ∧ (ringS 0).myTeam.steward = true
    ∧ clear (.srr (form 0x94 0 0 0)) memoryS = true ∧ memoryS.myTeam.steward = false
    ∧ allClear [.trapRingSet] (sysForm 0x10) (ringS 64) = true ∧ allClear [.trapRingSet] (sysForm 0x11) (ringS 64) = true
    ∧ ((ringS 0).part 0).trmark = ((ringS 0).part 0).trtail ∧ (let p : Partition := { trmark := 1 }; p.trmark ≠ p.trtail)
    ∧ allClear [.trtailWrite] (sysForm 0x13) (ringS 7) = true
    ∧ [0x20, 0x21, 0x22, 0x23].all (fun n => allClear [.sysregWrite] (sysForm n) (ringS 5)) = true := by decide +kernel

/-- The bounds: TRBASE by 64; TRSIZE 64 to 65,536; TRTAIL between its old value and TRMARK; CMDCORE to 0xBFF. -/
theorem test_system_registers : (let d (mk : Form → Instr) (n v : Word) := sees mk (sysForm n) (ringS v)
    [d .trapRingSet 0x10 64, d .trapRingSet 0x10 65, d .trapRingSet 0x11 64, d .trapRingSet 0x11 32, d .trapRingSet 0x11 131072,
      d .trapRingSet 0x11 96, d .trtailWrite 0x13 6, d .trtailWrite 0x13 7, d .trtailWrite 0x13 8, d .sysregWrite 0x23 0xBFF,
      d .sysregWrite 0x23 0xC00, d .sysregWrite 0x22 0x10000000000000]) = [0, 2, 0, 2, 2, 2, 2, 0, 2, 0, 2, 2]
    ∧ (trapped .srr { form 0x94 0 0 0 with imm := 0x10 } memoryS).1 = 6 := by decide +kernel

/-- Team 2, which the command registers name, has a stopped group, or a running one. -/
def commandS (st : Status) : State :=
  { ringS 9 with
    teams := [(1, { aTeam with steward := true }), (2, { aTeam with slot := 3, index := 5, core := 9 })]
    others := [(4, { vGroup with team := 2, status := st, core := 9 })]
    parts := [(0, { state := 2, slots := [(3, { grid := 9, teams := 1, groups := [1] })], cmds := [(0, { team := 5, addr := 0x4000 })] })] }

def cmdForm (k : Nat) : Form := { form 0x94 (0xF0 + k) 0 0 with imm := 0x24 }

theorem witness_StewardCommands : allClear [.srw] (sysForm 0x24) (commandS .stopped) = true
    ∧ (allClear [.preemptLight] (cmdForm 1) (commandS .stopped) && allClear [.preemptFull] (cmdForm 2) (commandS .stopped)
      && allClear [.restore] (cmdForm 3) (commandS .stopped) && allClear [.resume] (cmdForm 4) (commandS .stopped)
      && allClear [.resumet] (cmdForm 5) (commandS .stopped) && allClear [.endteam] (cmdForm 6) (commandS .stopped)
      && allClear [.cancel] (cmdForm 7) (commandS .stopped)) = true
    ∧ (match (commandS .stopped).target with | .team x => x == 2 | _ => false) = true
    ∧ (match { ringS 9 with parts := [(0, { state := 2, cmds := [(0, { launch := 64 })] })] : State }.target with | .nothing => true | _ => false) = true
    ∧ ((commandS .running).team 2).preempt = none ∧ ((commandS .running).team 2).state = .placed ∧ (commandS .running).cmd.addr.toNat % 64 = 0
    ∧ (∀ g ∈ (commandS .running).groups, g.2.team = 2 → g.2.status ≠ .stopped)
    ∧ ((commandS .stopped).targetGroup 2).isSome = true := by decide +kernel

theorem test_commands : ((commandS .running).command 1).1 = 0 ∧ ((commandS .stopped).command 1).1 = 4
    ∧ ((commandS .stopped).command 4).1 = 0 ∧ ((commandS .running).command 4).1 = 4
    ∧ ((commandS .running).command 0).1 = 2 ∧ ((commandS .running).command 8).1 = 2
    ∧ ((commandS .running).command 6).1 = 0 := by decide +kernel

/-- An instruction at 0x1008 that has issued and not committed. -/
def waiting (i : Instr) (held : Option Word) (done : Bool) (next : VAddr := 0x1014) : WinEntry :=
  { pc := 0x1008, ins := i, next, held, away := true, act := 0xFFFF_FFFF, va := 0, done, early := none, found := none }

/-- The group with a window: `v4` and `v5` are in slots, `v8` is an empty local queue, `v12` one that holds an entry. -/
def windowS (win : List WinEntry) : State :=
  { memoryS with
    subject := 1
    me := { memoryS.me with
      pmap := [(4, 0x20000003), (5, 0x20000004), (8, 0x08000000 + 3 * 0x400000), (12, 0x08000000 + 3 * 0x400000)]
      lqueues := [(12, [splat 6])], sregs := memoryS.me.sregs ++ [(4, 0x85), (5, 0x400000)], win } }

/-- A move between slots, one from the empty queue, a load of a misaligned offset, a load of a page that is not mapped. -/
def aMove : Instr := .vmov (form 4 5 0 0)
def aPop : Instr := .vmov (form 4 8 0 0)
def aFault : Instr := .ldSp { form 0x95 0x94 0x89 0 with ty := 26 }
def aPark : Instr := .ld { form 0x95 0x95 0x89 0 with ty := 26 }

/-- How the only entry of a window ends: it passes, waits, parks, or traps. -/
def endsAs (i : Instr) : Nat :=
  let s := windowS [waiting i none false]
  let g := (waiting i none false).seen s.bare.me
  match meaning i with
  | none => 5
  | some run => match run { s.bare with me := g } with
    | .next r => if g.passed r.me then 0 else if r.me.parked.isSome then 2 else if r.me.wait.isSome then 1 else 3
    | _ => 4

/-- A load that goes on at 0x1014, and one that waits for an older load in flight. -/
def aLoad : Instr := .ld { form 0x95 0x93 0x89 0 with ty := 26 }

/-- A load as an entry of a window, with what it has read. -/
def loading (early : Option (List Byte)) : WinEntry := { waiting aLoad none early.isSome with early }

/-- The load of a window that holds it as its second entry finds its bytes. -/
def readsSecond (early : Option (List Byte)) : Bool :=
  let s := windowS [loading early, loading none]
  let (t, _, lost) := State.ahead (s.me.win.take 1) (some []) s.bare
  let at_ : State := { t with me := (loading none).seen t.me }
  !meetsKeys lost (at_.me.readKeys aLoad (loading none).va) && (match memRead aLoad with | some read => (read at_).toBool | none => false)
    && s.me.readsNext 1 (at_.acquires aLoad)

/-- Completion and commit: of a held scalar, a move, a load before and after an older one has read, one whose source is not known, one
that does not go on where it was to, one that traps. -/
theorem witness_PlaceWindow : (endsAs aMove, endsAs aPop, endsAs aPark, endsAs aFault, endsAs aLoad) = (0, 1, 2, 3, 0)
    ∧ (let s := windowS [waiting (.qfree (form 0x94 4 0 0)) (some 5) true, waiting aMove none false]
      s.me.status = .running ∧ s.me.parked.isNone = true ∧ s.me.asked.isNone = true ∧ s.meId ≠ 0
        ∧ (State.ahead (s.me.win.take 1) (some []) s.bare).2.1.isEmpty = true
        ∧ meetsKeys (State.ahead (s.me.win.take 1) (some []) s.bare).2.2 (s.me.readKeys aMove 0) = false ∧ (memRead aMove).isNone = true)
    ∧ (let s := windowS [waiting aFault none true, waiting (.add (form 0x96 0x95 0xF1 0)) none false]
      meetsKeys (State.ahead (s.me.win.take 1) (some []) s.bare).2.2 (s.me.readKeys (.add (form 0x96 0x95 0xF1 0)) 0) = true) := by
  decide +kernel

theorem witness_PlaceWindow_reads : (readsSecond (some [1, 2, 3, 4, 5, 6, 7, 8]), readsSecond none) = (true, false)
    ∧ [waiting aMove none true, waiting aMove none true 0x2000, waiting aFault none true, waiting aPop none true].all (fun w =>
      (windowS [w]).me.status == .running && (meaning w.ins).isSome && w.early.isNone) = true := by decide +kernel

/-- Issue ahead: a barrier may not lead; 16 away are the most; a guard that is not known; `qfree`; `pgr`; a store of a queue's entry. -/
theorem witness_PlaceWindow_issue : mayLead (.bar barForm) = false ∧ mayLead aMove = true
    ∧ (let s := windowS ((List.replicate 16 (waiting (.nop ext) none true)))
      s.window.1.me.goesAway aMove = true ∧ (s.me.win.filter (·.away)).length = 16)
    ∧ (let s := windowS [loading none]
      meetsKeys (s.me.unsettled s.window.2.1) (boundKeys (.emset { form 0 0x95 0 0 with fn := 1 })) = true)
    ∧ (let s := windowS []
      let f := form 0x94 12 0 0
      mayLead (.qfree f) = true ∧ s.window.1.me.goesAway (.qfree f) = false
        ∧ meetsKeys (s.me.unsettled s.window.2.1) (boundKeys (.qfree f)) = false
        ∧ (match execQfree f s.window.1 with | .next r => s.window.1.me.passed r.me | _ => false) = true)
    ∧ (let s := windowS []
      let f := form 0x94 0xF1 0 0
      let t := s.window.1
      mayLead (.pgr f) = true ∧ meetsKeys (s.me.unsettled s.window.2.1) (boundKeys (.pgr f)) = false
        ∧ (match execPgr f { s with me := t.me, culverts := s.culvertView false } with | .next r => t.me.passed r.me | _ => false) = true)
    ∧ (let s := windowS []
      let f := { form 12 0x93 0x89 0 with ty := 28 }
      let t := s.window.1
      let u := s.queueView t
      mayLead (.st f) = true ∧ poppedBy s.me (.st f) (t.me.active f) = [12] ∧ u.meetsDevice (.st f) = false
        ∧ meetsKeys s.window.2.2 (t.me.readKeys (.st f) (t.me.address f)) = false ∧ s.queueStalls u (.st f) (t.entryOf (.st f) 0x100C true) = false
        ∧ (match execSt f u with | .next r => t.me.passed r.me | _ => false) = true) := by decide +kernel

/-- The words of the power units at issue. -/
theorem witness_PlaceWindow_power : (let s := windowS []
    let t := s.window.1
    let f := form 0x94 0xF1 0 0
    mayLead (.pwrqLvl f) = true ∧ meetsKeys (s.me.unsettled s.window.2.1) (boundKeys (.pwrqLvl f)) = false
      ∧ (match execPwrqLvl f { s with me := t.me } with | .next r => t.me.passed r.me | _ => false) = true) := by decide +kernel

theorem test_window : (after .instructionCommit (windowS [waiting (.qfree (form 0x94 4 0 0)) (some 5) true, waiting aMove none false])).me.scalar 0x94 = 5
    ∧ ((after (.instructionCompletion 1 1) (windowS [waiting (.qfree (form 0x94 4 0 0)) (some 5) true, waiting aMove none false])).me.win.map (·.done))
      = [true, true] := by decide +kernel

/-- Loads of one window read in the order of the program: the younger waits for the older, which reads the bytes at 0x10080. -/
theorem test_window_loads : ((after (.instructionCompletion 1 1) (windowS [loading none, loading none])).me.win.map (·.early)) = [none, none]
    ∧ ((after (.instructionCompletion 1 0) (windowS [loading none, loading none])).me.win.map (·.early)) = [some [3, 0, 0, 0, 0, 0, 0, 0], none] := by
  decide +kernel

/-! ### Hypotheses that are met: scheduling, launches, ends -/

/-- Two groups on core 0. -/
def sharedS (x y : Group) (t : Nat := 100) : State :=
  { base with subject := 1, time := t, me := x, others := [(2, { y with index := 1 })] }

def pendingG : Group := { vGroup with sched := .pending, ready := some 3 }

/-- The active group has tried its instruction in this cycle, and waits for a ring since cycle t. -/
def longWaitS (t : Nat) : State := { sharedS { vGroup with wait := some .ring, waited := t } pendingG with issued := [(1, 0, 0)] }

/-- The bounds: 33 cycles of a long wait (68 + 32); two cycles of a swap. -/
theorem witness_SchedulerSwaps : (let s := sharedS { vGroup with yielded := true } pendingG
      (s.readyPending 0, (s.nextPending 0).map (·.1), s.me.status, s.me.sched) = (true, some 2, .running, .active))
    ∧ (let s := longWaitS 68
      (s.stalledNow 1, s.readyPending 0, s.me.status, s.me.sched) = (true, true, .running, .active) ∧ 32 ≤ s.cyclesSince 0 68)
    ∧ (let s := { sharedS vGroup pendingG 100000 with subject := 2 }
      (leastGroup s.ageKey ((s.pendings 0).filter fun z => s.ripe z.2)).map (·.1) = some 2 ∧ s.promotedNow 0 = false
        ∧ (leastGroup (fun y => y.stay :: s.ageKey y) ((s.residents 0).filter fun z => z.2.seated)).map (·.1) = some 1) := by decide +kernel

theorem test_swaps : (let t := after .yieldSwap (sharedS { vGroup with yielded := true } pendingG)
      ((t.group 1).sched, (t.group 2).sched, (t.group 2).stay) = (.leaving, .entering, 103))
    ∧ ((after .longWaitSwap (longWaitS 68)).me.sched, (after .longWaitSwap (longWaitS 69)).me.sched) = (.leaving, .active)
    ∧ (after .swapComplete (sharedS { vGroup with sched := .entering, stay := 100 } pendingG)).me.sched = .active
    ∧ (after .swapComplete (sharedS { vGroup with sched := .entering, stay := 101 } pendingG)).me.sched = .entering := by decide +kernel

/-- Tables that map the first 2 MiB to themselves; a launch record at 0x10000, its table at 0x10100. -/
def tables : Memory := [(0x20000, 3), (0x20002, 3), (0x30000, 3), (0x30001, 0x10), (0x30002, 3), (0x31000, 0x19)]
def launchRecord : Memory := [(0x10001, 1), (0x10002, 1), (0x10018, 3)]
def launchTable : Memory :=
  [(0x10100, 1), (0x10102, 1), (0x10104, 48), (0x10108, 1), (0x10111, 1), (0x10115, 1), (0x10116, 1), (0x10122, 3)]

def launchS : State :=
  { base with
    teams := [(1, { aTeam with steward := true })], mem := launchRecord ++ launchTable ++ tables
    parts := [(0, { state := 2, root := 0x20000 })], me := { vGroup with sregs := [(1, 0x10000)] } }

def checkOf (s : State) : Option Nat :=
  match s.checkRecord s.myPart s.me.core { s.who s.me 0x10000 0 with own := true } 0x10000 with
  | .ok .. => some 0
  | .bad st .. => some st
  | .wait _ => none

/-- A record of a wrong version. -/
def badRecordS : State := { launchS with mem := (0x10000, 8) :: launchS.mem }
def launchedS : State := after (.lnch one) launchS
def theLaunch : Launch := (launchedS.part 0).slots.get 0 {}
/-- The cohort is bound, its team is number 3. -/
def boundS : State := { after (.cohortBind 0 0) launchedS with subject := 3 }

theorem witness_LaunchAndPlacement : clear (.lnch one) launchS = true ∧ checkOf launchS = some 0
    ∧ clear (.lnch one) badRecordS = true ∧ (checkOf badRecordS).any (· != 0) = true ∧ (launchS.part 0).slots = []
    ∧ (match launchedS.bindable 0 theLaunch with | .yes .. => true | _ => false) = true ∧ (launchedS.part 0).slots.map (·.1) = [0]
    ∧ ((boundS.team 3).state, boundS.firstFor 3, (boundS.core (boundS.team 3).core).power) = (.bound, true, .on)
    ∧ (match boundS.templateOf 3 with | .ok r s1 => (s1.placeTeam 3 r 0).isSome | _ => false) = true := by decide +kernel

/-- No slot left; a core without free blocks; a gated island. -/
theorem witness_LaunchAndPlacement_full :
    (let s := (launchS.modPart 0 fun x => { x with slots := (List.range 64).map fun k => (k, {}) });
      clear (.lnch one) s && checkOf s == some 0 && (List.range 64).all fun k => ((s.part 0).slots.get? k).isSome) = true
    ∧ (let s := (boundS.modCore 0 fun c => { c with freeBlocks := 0 })
      match s.templateOf 3 with | .ok r s1 => (s1.placeTeam 3 r 0).isNone | _ => false) = true
    ∧ (let s := (boundS.modCore 0 fun c => { c with power := .gated })
      (s.firstFor 3, (s.core 0).power) = (true, .gated)) := by decide +kernel

/-- The same team, accepted by its core, with the bank of its tables refreshing. -/
theorem witness_LaunchAndPlacement_awarded : (let s := (boundS.modTeam 3 fun x => { x with state := .awarded }).modPart 0 fun x =>
      { x with banks := (List.range 64).map fun b => (b, { busy := 9000 }) }
    (match s.templateOf 3 with | .wait _ => true | _ => false)
      && (match s.idly (·.templateOf 3) with | .ok r s1 => (s1.placeTeam 3 r 0).isSome | _ => false)) = true := by decide +kernel

theorem test_launch : sees .lnch one launchS = 0 ∧ sees .lnch one { launchS with mem := tables } ≠ 0
    ∧ (let t := after .teamPlacement boundS; ((t.team 3).state, (t.groups.filter fun g => g.2.team == 3).length)) = (.placed, 1)
    ∧ ((after .teamPlacement (boundS.modCore 0 fun c => { c with power := .gated })).team 3).state = .bound := by decide +kernel

/-- The placed team's only group leaves. -/
def leavingS : State :=
  let s := after .teamPlacement boundS
  let g := ((s.groups.find? fun g => g.2.team == 3).map (·.1)).getD 0
  { s with subject := g, others := s.others.update fun k x => if k = g then { x with status := .exiting } else x }

def endedS : State := after .groupExit leavingS

def reportS : State :=
  { launchS with
    subject := 0
    parts := [(0, { state := 2, root := 0x20000, trbase := 0x10400, trmark := 65, trtail := 3, slots := [(0, { grid := 2, teams := 1, groups := [1], told := true })]
                    reports := [{ team := 4, tcause := 0x45, ends := some 0 }, {}] })] }

/-- A handled trap that is signalled; a group that has exited, whose last batch has failed. -/
def signalledS : State := { handledS with subject := 1, me := { handled with pend := some (aTrap 13) } }
def ghostS : State :=
  { base with subject := 9, others := [(9, { Group.vacant with batch := { failed := some 0x77, waited := false } })] }

theorem witness_EndsAndReports : ((leavingS.group leavingS.subject).status, (leavingS.group leavingS.subject).win) = (.exiting, [])
    ∧ (let l := (endedS.part 0).slots.get 0 {}; (l.marked.get? l.oldest).isSome = true)
    ∧ (reportS.part 0).trmark - (reportS.part 0).trtail < (reportS.part 0).trsize
    ∧ (match reportS.hwWrite 0 noCore { va := 0, source := 7 } (0x10400 + 64) (Report.bytes { team := 4, tcause := 0x45 }) with
      | .ok .. => true
      | _ => false) = true
    ∧ ((leavingS.team (leavingS.group leavingS.subject).team).latch.isEmpty, (leavingS.group? leavingS.subject).isSome) = (true, true)
    ∧ ((endedS.part 0).slots.get 0 {}).told = false ∧ ((reportS.part 0).trbase, (reportS.part 0).notice) = (0x10400, false)
    ∧ ((signalledS.group 1).pend.isSome, signalledS.inEngine 1, (signalledS.group 1).asked.isNone, (signalledS.group 1).status)
      = (true, false, true, .running)
    ∧ ((ghostS.group 9).status, (ghostS.group 9).sealed.isEmpty, (ghostS.group 9).batch.failed, (ghostS.group 9).batch.waited)
      = (.absent, true, some 0x77, false) := by decide +kernel

theorem test_ends : ((endedS.part 0).slots.get 0 {}).oldest = 0
    ∧ (let t := after (.teamEndReport 0 0) endedS
      (((t.part 0).slots.get 0 {}).told, (t.part 0).reports.map fun r => (r.tcause &&& 0xFF, r.ends))) = (true, [(0x45, some 0)])
    ∧ (let t := after .trapReportLanding reportS; ((t.part 0).trmark, ((t.part 0).slots.get 0 {}).oldest)) = (66, 1)
    ∧ (after .trapEntry signalledS).me.pc = 0x2000
    ∧ (let t := after .batchFailureReport ghostS; (t.others.isEmpty, (t.part 0).reports.map (·.tval))) = (true, [0x77]) := by decide +kernel

/-- A stopped group without register blocks, whose light frame goes to 0x48000. -/
def frameS : State :=
  { launchS with
    subject := 1, me := { vGroup with status := .preempted, held := 0 }
    teams := [(1, { aTeam with n := 0, preempt := some { full := false, addr := 0x48000, stopped := [0], written := [] } })] }

def writesFrame (s : State) : Option Bool :=
  match ({ s.drainWc s.subject with free := s.free + 1 } : State).writeFrame 1 0 false false 0x48000 with
  | .ok .. => some true
  | .fail .. => some false
  | .wait _ => none

/-- The team's last group has exited; its sections are to be written. -/
def sectionsS : State :=
  { frameS with
    me := { vGroup with status := .absent }
    teams := [(1, { aTeam with n := 0, exited := [0], preempt := some { full := false, addr := 0x48000, stopped := [0], written := [0] } })] }

/-- That team is out, and a RESTORE has been asked for. -/
def restoringS : State := (after .teamSectionsWrite sectionsS).modTeam 1 fun t => { t with state := .restoring }

theorem witness_FramesAndRestore : writesFrame frameS = some true ∧ writesFrame { frameS with mem := [] } = some false
    ∧ (match State.writeFrames 1 false 0x48000 (List.range 1) { sectionsS with free := sectionsS.free + 1 } with | .ok .. => true | _ => false) = true
    ∧ frameS.me.splits.isEmpty = true ∧ (restoringS.core 0).power = .on
    ∧ ((restoringS.team 1).light, (restoringS.team 1).partner, restoringS.firstFor 1, (restoringS.jointTeam 1).isNone) = (true, false, true, true)
    ∧ (match State.readFrames 1 (List.range 1) restoringS with | .ok .. => true | _ => false) = true := by decide +kernel

/-- The RESTORE of a team with a culvert to a team that is out. -/
def halfS : State :=
  { (restoringS.modTeam 1 fun t => { t with light := false }) with
    teams := (restoringS.modTeam 1 fun t => { t with light := false }).teams ++ [(2, { aTeam with state := .out })]
    culverts := [(0, { depth := 4, outTeam := 1, inTeam := 2 })] }

theorem witness_FramesAndRestore_partner : restoringS.partnerOut 1 = false ∧ halfS.partnerOut 1 = true ∧ (halfS.jointTeam 1).isNone = true
    ∧ ((halfS.team 1).state, (halfS.team 1).partner, halfS.firstFor 1) = (.restoring, false, true)
    ∧ ((after .restorePlacement halfS).team 1).partner = true := by decide +kernel

/-- A frame that cannot be written ends the pre-emption with a report. -/
theorem test_frame_failure : (let t := after .groupFrameWrite { frameS with mem := [] }
    (t.me.status, (t.team 1).preempt.isSome, (t.part 0).reports.map fun r => r.tcause &&& 0xFF)) = (.running, false, [0x4F]) := by decide +kernel

/-! ### Hypotheses that are met: tenders, memory layer, host, module -/

/-- A launch in slot 3 whose team 4 is put to tender among cores 1 and 2; a formula at 0x10200 that gives every core 1. -/
def tenderS : State :=
  { launchS with
    mem := [(0x10200, 7), (0x10208, 1), (0x10211, 0xA1)] ++ tables
    parts := [(0, { state := 2, root := 0x20000, formula := some { consts := [0, 0, 0, 0], ops := [(0, 0, 1, 5, 0)] }
                    slots := [(3, { cls := 1, grid := 9, teams := 1, groups := [1], blocks := [2], units := [1], mrole := [false] })] })]
    me := { vGroup with sregs := [(1, 0x10200), (2, 0x30004)] } }

def tndrForm : Form := { two with len := .extLit, a := 0x92, b := 0, imm := 0x6, imm2 := 64 }

def readsFormula (s : State) : Bool :=
  match loadBytes (.bidf (form 0 0x91 0 0)) s 0x10200 64 (List.range 64) false with
  | .ok (bs, _) => (formulaOf bs).isSome
  | .error _ => false

/-- The round of the tender, step by step. -/
def queuedS : State := { after (.tndr tndrForm) tenderS with subject := 0 }
def announcedS : State := { after .tenderAnnounce queuedS with time := queuedS.time + 6 }
def sampledS : State := { after (.bidSample 0 [(1, 4, 5)]) announcedS with time := 64 }
def closedS : State := { after .tenderWindowClose sampledS with time := 67 }
/-- The award is withdrawn where the partition was reconfigured meanwhile. -/
def withdrawnS : State := { after .awardArrival (closedS.modPart 0 fun p => { p with reconf := true }) with time := 70 }
def acceptedS : State := { after .awardArrival closedS with time := 74 }

def tenderOf (s : State) : Option (List (Option Nat)) :=
  (s.part 0).tender.map fun t =>
    [t.round, some t.sampled.toNat, t.award.map (·.core), t.answer.map (·.1.toNat), t.answer.map (·.2)]

theorem witness_Tenders : clear (.bidf (form 0 0x91 0 0)) tenderS = true ∧ readsFormula tenderS = true ∧ (tenderS.part 0).tender = none
    ∧ clear (.tndr tndrForm) tenderS = true ∧ (tenderS.me.scalar tndrForm.a).toNat < 2 ^ 22 ∧ tenderS.badTask 0 3 4 = false
    ∧ 4 ≤ ((tenderS.part 0).slots.get 3 {}).oldest + 255 ∧ (tenderS.part 0).waiting = []
    ∧ clear (.tacc (form 0x94 0x92 0 0)) tenderS = true ∧ (queuedS.part 0).waiting.length = 1 := by decide +kernel

/-- An acquire that has not returned keeps a formula from being read. -/
theorem witness_Tenders_acquire : tenderS.me.splits.any (·.acq) = false
    ∧ (let s : State := { tenderS with me := { tenderS.me with splits := splitS.me.splits.map fun l => { l with acq := true } } }
      clear (.bidf (form 0 0x91 0 0)) s && s.me.splits.any (·.acq)) = true := by decide +kernel

/-- A task that is none, one beyond the reorder window, an empty mask, the trap bit, a full queue, one queued already, a waiting
formula, and one that does not read as a formula. -/
theorem witness_Tenders_cases : (let task (v : Word) : State := { tenderS with me := { tenderS.me with sregs := [(1, 0x10200), (2, v)] } }
      let wide := (task 0x3012C).modPart 0 fun x => { x with slots := x.slots.update fun _ l => { l with grid := 400 } }
      clear (.tndr tndrForm) (task 0x90004) && (task 0x90004).badTask 0 9 4 && clear (.tndr tndrForm) wide && !wide.badTask 0 3 300
        && (((wide.part 0).slots.get 3 {}).oldest + 255 < 300 : Bool)) = true
    ∧ clear (.tndr { tndrForm with imm := 0 }) tenderS = true ∧ clear (.tndr { tndrForm with imm := 0, imm2 := 0x10040 }) tenderS = true
    ∧ clear (.tndr tndrForm) queuedS = true ∧ ((queuedS.part 0).waiting.map (·.gid), queuedS.meId) = ([1], 1)
    ∧ ((queuedS.modPart 0 fun x => { x with waiting := x.waiting.flatMap (List.replicate 16) }).part 0).waiting.length = 16
    ∧ ({ queuedS with me := { queuedS.me with wait := some .formula } } : State).formulaWaits 0 = true ∧ queuedS.formulaWaits 0 = false
    ∧ clear (.bidf (form 0 0x91 0 0)) announcedS = true ∧ (announcedS.part 0).tender.isSome = true
    ∧ (let s : State := { tenderS with mem := tables }
      clear (.bidf (form 0 0x91 0 0)) s && !readsFormula s
        && (loadBytes (.bidf (form 0 0x91 0 0)) s 0x10200 64 (List.range 64) false).toBool) = true := by decide +kernel

theorem witness_Tenders_round : tenderOf announcedS = some [some 0, some 0, none, none, none] ∧ tenderOf sampledS = some [some 0, some 1, none, none, none]
    ∧ ((sampledS.part 0).tender.any fun t => (winner t.bids (sampledS.part 0).pointer).isSome) = true
    ∧ tenderOf closedS = some [some 0, some 1, some 1, none, none]
    ∧ tenderOf withdrawnS = some [some 0, some 1, some 1, some 0, some 67] ∧ tenderOf acceptedS = some [some 0, some 1, some 1, some 1, some 67] := by
  decide +kernel

theorem test_tender : ((after .withdrawalArrival withdrawnS).part 0).tender.map (fun t => (t.wdraws, t.wdcore, t.round, t.mask)) = some (1, 1, some 70, 4)
    ∧ ((after .acceptanceArrival acceptedS).part 0).tender = none
    ∧ sees .tndr tndrForm { tenderS with me := { tenderS.me with tres := some 0x103 } } = 0x103 := by decide +kernel

/-- Bank 2 of partition 0 as given. -/
def bankOnlyS (k : Bank) : State :=
  { launchS with time := 1000, subject := 0, parts := [(0, { state := 2, root := 0x20000, banks := [(2, k)] })] }

def colAddr : Nat := 3 * 2 ^ 32 + 2 * 2 ^ 26

/-- A bus under test; a page exchange under way and one at its end. -/
def busS : State := { bankOnlyS {} with time := 3000, parts := [(0, { buses := [(1, { testing := some (800, { col := 2, group := 0, retries := 3 }, none) })] })] }
def exchS (k : Nat) : State :=
  { bankOnlyS {} with parts := [(0, { exch := some { va := 0x10000, old := 0x10000, new := 0x50000, size := 65536, done := k } })] }

/-- A beat that is sent again in cycle 998, after that many failures of its retries. -/
def resendS (n : Nat) : State :=
  { bankOnlyS {} with parts := [(0, { buses := [(1, { resend := some (998, { col := 2, group := 0, retries := n }, none) })] })] }

/-- A beat that fails is sent again two cycles later, and not before. -/
theorem test_resend : ((after (.beatParityFail 0 1 0 128) (bankOnlyS {})).bus 0 1).resend = some (1002, { col := 2, group := 0, retries := 0 }, none)
    ∧ ((after (.beatParityFail 0 1 0 128) { resendS 1 with time := 997 }).bus 0 1).resend = some (998, { col := 2, group := 0, retries := 1 }, none) := by
  decide +kernel

theorem witness_MemoryHardware : ((bankOnlyS {}).bank 0 2).due + 4290 ≤ ({ bankOnlyS {} with time := 4290 } : State).time ∧ ((bankOnlyS { busy := 1000, alert := true }).bank 0 2).busy ≤ 1000
    ∧ 0 < ((bankOnlyS { busy := 1000, postponed := 1 }).bank 0 2).postponed
    ∧ (bankOnlyS {}).bankAt colAddr = some (0, 2) ∧ (bankOnlyS {}).bankBusy colAddr = false
    ∧ ((bankOnlyS {}).damageColumn colAddr 3).damaged.get? (colAddr / 64) = some 3
    ∧ ((bankOnlyS {}).damageColumn colAddr 4).damaged.get? (colAddr / 64) = some 4
    ∧ (busS.bus 0 1).testing = some (800, { col := 2, group := 0, retries := 3 }, none) ∧ 800 + 2200 ≤ busS.time ∧ 0 < (busS.bus 0 1).spares ∧ (busS.bus 0 0).testing = none
    ∧ ((bankOnlyS {}).part 0).exch = none
    ∧ ((exchS 1023).part 0).exch.map (·.done) = some 1023 ∧ 64 * 1023 < 65536 ∧ (exchS 1023).exchWaits 0 { va := 0x10000, old := 0x10000, new := 0x50000, size := 65536, done := 1023 } = false
    ∧ (exchS 1024).exchWaits 0 { va := 0x10000, old := 0x10000, new := 0x50000, size := 65536, done := 1024 } = false
    ∧ ({ exchS 1023 with inbox := [{ module := 1, part := 0, group := 3, seq := 9, la := 0x10000 + 64 * 1023, op := .read 8 }] } : State).exchWaits 0 { va := 0x10000, old := 0x10000, new := 0x50000, size := 65536, done := 1023 } = true
    ∧ (busS.bus 0 0).resend = none ∧ (resendS 1).bus 0 1 = { resend := some (998, { col := 2, group := 0, retries := 1 }, none) }
    ∧ ((exchS 1024).part 0).exch.map (·.size) = some (64 * 1024)
    ∧ 64 - (State.reset.part 0).rsv ≤ onBits 0x7FFF_FFFF_FFFF_FFFF ∧ State.reset.drained 0 = true
    ∧ (windowS [waiting (.nop ext) none true]).drained 0 = false := by decide +kernel

/-- A remap step of a partition at work waits, and its groups stop. -/
theorem test_remap_waits : ((after (.remapStep 0 0x7FFF_FFFF_FFFF_FFFF) (windowS [waiting (.nop ext) none true])).standsDown 0,
    ((after (.remapStep 0 0x7FFF_FFFF_FFFF_FFFF) (bankOnlyS {})).part 0).bankmap) = (true, 0x7FFF_FFFF_FFFF_FFFF) := by decide +kernel

/-- Three symbols of a column are corrected, a fourth is not; a line test that finds line 4 takes a spare. -/
theorem test_memory_hardware : ((after (.patrolScrub 0 colAddr 3) (bankOnlyS {})).damaged, (after (.patrolScrub 0 colAddr 4) (bankOnlyS {})).damaged.length) = ([], 1)
    ∧ (let b := (after (.busLineTest 0 1 (some 4) false) busS).bus 0 1; (b.testing.isSome, b.failed, b.spares)) = (false, [], 7)
    ∧ (let b := (after (.busLineTest 0 1 none false) busS).bus 0 1; (b.testing.isSome, b.failed.map (·.col))) = (false, [2])
    ∧ ((after (.busLineTest 0 1 (some 40) false) busS).bus 0 1).failed.map (·.col) = [2]
    ∧ ((after (.bankRefresh 0 2) (bankOnlyS {})).bank 0 2).busy = 0 := by decide +kernel

/-- An inbound queue at 0x1000 to 0x103F, three bytes of it landed. -/
def inboundS : State := { bankOnlyS {} with parts := [(0, { queues := [(1, { on := true, base := 0x1000, size := 64, mark := 3 })] })] }

theorem witness_HostSide : (inboundS.part 0).ringAt 0x2000 = none
    ∧ ((inboundS.part 0).ringAt 0x1003).map (fun x => (x.1, (x.2.land 3).isSome)) = some (1, true)
    ∧ ((inboundS.part 0).ringAt 0x103F).isSome = true ∧ ((inboundS.part 0).ringAt 0x1040) = none
    ∧ (bankOnlyS {}).windowOk 0 0x10400 3 = true ∧ (bankOnlyS {}).rangeBusy 0x10400 3 = false
    ∧ (∀ o < 3, (bankOnlyS {}).located (0x10400 + o) = 0x10400 + o ∧ (bankOnlyS {}).damaged.get? ((0x10400 + o) / 64) = none)
    ∧ (∀ o < 3, (bankOnlyS {}).coded (bankOnlyS {}).zPages (0x10400 + o) = false) ∧ ((bankOnlyS {}).hostQs.get 0 []).isEmpty = true ∧ (bankOnlyS { busy := 2000 }).rangeBusy colAddr 3 = true ∧ (bankOnlyS {}).standsDown 0 = false
    ∧ (bankOnlyS {}).windowOk 0 (2 ^ 34) 3 = false ∧ (bankOnlyS {}).rangeBusy (2 ^ 34) 3 = false ∧ ((bankOnlyS {}).part 0).state = 2 ∧ (State.reset.part 0).state = 0
    ∧ (((State.reset.quit 0).invalidatePart 0 0 (2 ^ 52)).startAddress 0) = some 0 := by decide +kernel

/-- A partition whose control page is in order: its windows lie above the 2 MiB that its tree maps. -/
def startS : State :=
  { launchS with
    me := Group.vacant, meId := 0, teams := [], subject := 0
    parts := [(0, { root := 0x20000, stewrec := 0x10000, winva := 0x200000, logva := 0x210000, sigva := 0x220000 })] }

/-- A byte for the inbound window that came a cycle ago, with a read behind it. -/
def landS (off : Nat) : State := { inboundS with hostQs := [(0, [(0, .ring off [7] 999)])] }

theorem witness_HostSide_ring : (landS 0x1003).hostQs.get (0 / 24) [] = [(0, .ring 0x1003 [7] 999)] ∧ 999 < inboundS.time
    ∧ inboundS.standsDown 0 = false
    ∧ ({ landS 0x1003 with time := 999 } : State).hostWaits 0 (.ring 0x1003 [7] 999) = true := by decide +kernel

/-- It lands, and MARK passes it; a write of this cycle waits; the read behind a write that waits keeps its place. -/
theorem test_host_order : (((landS 0x1003).hostDrain 0 []).part 0).queues.map (·.2.mark) = [4]
    ∧ ((after (.hostRingWrite 0 0x1003 [7]) inboundS).part 0).queues.map (·.2.mark) = [3]
    ∧ ((after (.hostWindowRead 1 0x10400 3) { landS 0x1003 with time := 999 }).hostQs.get 0 []).map (·.1) = [0, 1] := by decide +kernel

theorem witness_HostSide_start : ((startS.quit 0).invalidatePart 0 0 (2 ^ 52)).startAddress 0 = none ∧ (startS.part 0).state = 0
    ∧ ((startS.quit 0).invalidatePart 0 0 (2 ^ 52)).startBusy 0 = false ∧ ((State.reset.quit 0).invalidatePart 0 0 (2 ^ 52)).startBusy 0 = false := by
  decide +kernel

theorem test_host : Memory.readN (after (.hostWindowWrite 0 0x10400 [1, 0, 3]) (bankOnlyS {})).mem 0x10400 4 = [1, 0, 3, 0]
    ∧ ((after (.controlPageWrite 0 0x30 101) (bankOnlyS {})).part 0).cto = 10 ∧ ((after (.controlPageWrite 0 0x30 100) (bankOnlyS {})).part 0).cto = 100
    ∧ (after .stop (bankOnlyS {})).groups = [] ∧ ((after .stop (bankOnlyS {})).part 0).state = 0
    ∧ ((after .start { State.reset with subject := 0 }).part 0).state = 4 := by decide +kernel

/-- A request of another module that the share table does not open; a flit; a read of a device under way. -/
def aRequest : HomeReq := { module := 1, part := 0, group := 3, seq := 9, la := 0x10000, op := .read 8 }
def askedS : State := { bankOnlyS {} with subject := 1, me := { vGroup with asked := some { va := 0, due := 900, seq := 5, fetch := false, answer := none, olds := [], mine := [] } } }

theorem witness_ModuleEvents : (bankOnlyS {}).bankBusy 0x10000 = false ∧ (bankOnlyS {}).retries = []
    ∧ ((bankOnlyS {}).bankAt 0x10000).isSome = true ∧ (bankOnlyS {}).sharesModule 1 0x10000 8 = false
    ∧ (State.reset.ports.get 0 {}).up = true ∧ (State.reset.ports.get 0 {}).expect = 0
    ∧ (askedS.group? 1).isSome = true ∧ (askedS.group 1).asked.map (·.due) = some 900
    ∧ (State.reset.cluster 383).reset = none := by decide +kernel

/-- A write, which its home records. -/
def aWrite : HomeReq := { aRequest with op := .write [(0, [5, 6])] }

/-- What the share table opens to module 1; a write that is recorded, and one that waits for a refresh; a drained buffer; a
cluster in reset. -/
def openS : State := { bankOnlyS {} with shares := [(0, { base := 0x10000, size := 0x10000, owner := 0, parts := 1, modLo := 1, modHi := 1 })] }
def bufferedS : State :=
  { bankOnlyS {} with subject := 1, time := 2000, me := { vGroup with wc := [{ line := 0x10000 / 128, va := 0x10000, bytes := [(3, 1)], last := 900 }] } }

theorem witness_ModuleEvents_more : openS.sharesModule 1 0x10000 8 = true ∧ (openS.applyHome 0x10000 { va := 0, source := 0 } (.read 8)).toBool = true
    ∧ openS.waitsAtHome openS.inbox aWrite = false ∧ (openS.applyHome 0x10000 { va := 0, source := 0 } aWrite.op).toBool = true
    ∧ (openS.serve aWrite).retries.map (·.seq) = [9] ∧ (homeSpan aWrite.op, openS.sharesModule 1 0x10000 2) = (2, true)
    ∧ (let s : State := { openS with parts := [(0, { banks := [(0, { busy := 2000 })] })] }
      s.waitsAtHome s.inbox aWrite) = true
    ∧ (let s := State.reset.modPart 0 fun x => { x with service := 1 }; (s.part 0).service = 1 ∧ s.drained 0 = true) ∧ (∀ l ∈ (bufferedS.group 1).wc, l.last + 1100 ≤ bufferedS.time)
    ∧ ((after (.clusterReset 0 true) State.reset).cluster 0).reset.isSome = true := by decide +kernel

/-- A gather, for which the share table opens the span; a read that it does not open. -/
theorem witness_ModuleEvents_gather : (let r := { aRequest with op := .gather [0, 7] }
      (homeSpan r.op, openS.sharesModule 1 0x10000 8, (openS.applyHome 0x10000 { va := 0, source := 0 } r.op).toBool, openS.waitsAtHome openS.inbox r))
    = (8, true, true, false) ∧ (bankOnlyS {}).waitsAtHome [] aRequest = false
    ∧ (openS.serve aWrite).retries.any (·.holds aWrite) = true := by decide +kernel

/-- The write once served: its repeat is answered from the record; an older one that it has overtaken, and a newer one, are applied. -/
theorem test_retries : (let s := openS.serve aWrite
    let t (n : Nat) := after (.homeRequest { aWrite with seq := n, op := .write [(0, [7])] }) { s with outbox := [] }
    [9, 8, 10].map fun n => (Memory.read (t n).mem 0x10000, (t n).outbox.length, (t n).retries.map (·.seq)))
    = [(5, 1, [9]), (7, 1, [9, 8]), (7, 1, [9, 10])] := by decide +kernel

theorem test_module : (after (.homeRequest aRequest) openS).outbox = [.reply 1 0 3 9 true [0, 1, 1, 0, 0, 0, 0, 0]]
    ∧ (after (.homeRequest aRequest) (bankOnlyS {})).outbox = [.reply 1 0 3 9 false []]
    ∧ ((after .remoteTimeout askedS).me.asked.map (·.answer), (after .deviceCompletionTimeout askedS).me.asked.map (·.answer))
      = (some none, some (some (false, [])))
    ∧ (after .wcIdleDrain bufferedS).me.wc = []
    ∧ ((after (.clusterReset 0 true) State.reset).core 7).inReset = true
    ∧ ((after .clusterResetDone { after (.clusterReset 0 true) State.reset with subject := 0 }).core 7).retired = true
    ∧ (after .getVersion { State.reset with subject := 2 }).doe = [.version 2 1 3] := by decide +kernel

/-- A flit in order is acknowledged and the next is expected; a bad one is asked for again; the ninth failure ends the port. -/
theorem test_flits : (let f (good : Bool) : Flit := { port := 0, seq := 0, crcGood := good, load := .idle }
    ((after (.flitReceive (f true)) State.reset).ports.map fun k => (k.2.expect, k.2.up)) = [(1, true)]
    ∧ (after (.flitReceive (f false)) State.reset).outbox = [.flitAck 0 0 false]
    ∧ ((after (.flitReceive (f false)) { State.reset with ports := [(0, { resent := 8 })] }).ports.map fun k => k.2.up) = [false]) := by decide +kernel

/-- Port 3 leads to module 1: a message in a flit, and two flits not yet acknowledged. -/
def portS : State :=
  { State.reset with
    outbox := [.reply 1 0 0 0 true []], routes := [(1, [3])], ports := [(3, { next := 7, buffer := [(5, 8), (6, 9)] })] }

theorem witness_ModuleEvents_flits : (portS.routeOf 0).contains 3 = true ∧ (portS.ports.get 3 {}).buffer = [(5, 8)] ++ (6, 9) :: []
    ∧ (portS.ports.get 3 {}).up = true := by decide +kernel

/-- A message that a port keeps at its going down, since no other has room; another port takes it later. -/
def strandedS : State := { portS with ports := [(2, { up := false, buffer := [(5, 0)] }), (3, { next := 7 })], outbox := portS.outbox ++ [.flit 2 5 0] }

theorem witness_ModuleEvents_down : strandedS.stranded 0 = true ∧ (strandedS.routeOf 0).contains 3 = true
    ∧ (let s : State := { portS with routes := [(1, [3, 4])], ports := portS.ports ++ [(4, { buffer := List.replicate 4096 (0, 0) })] }
      (s.routeOf 0).contains 4 = true ∧ 4096 ≤ (s.ports.get 4 {}).buffer.length) := by decide +kernel

theorem test_flits_sent : ((strandedS.sendFlit 3 0).ports.map (·.2.buffer)) = [[], [(7, 0)]] ∧ (portS.sendFlit 3 0).outbox = [.reply 1 0 0 0 true [], .flit 3 7 0]
    ∧ ((portS.flitHeard 3 5 true).ports.get 3 {}).buffer = [(6, 9)]
    ∧ (portS.flitHeard 3 6 false).outbox.drop 1 = [.flit 3 6 9]
    ∧ (({ portS with ports := [(3, { next := 7, buffer := [(5, 8)], fails := 8 })] } : State).flitHeard 3 5 false).ports.map (·.2.up) = [false] := by
  decide +kernel

/-! ### Hypotheses that are met: issue, decoding, steps -/

/-- `add` with a reserved TYPE; in role C; a vector sum with an unheld register. -/
def badAdd : Form := { two with ty := 1 }

theorem witness_IssueChecks : (let i := Instr.nop { Form.blank with len := .lit, nx := .jump 6 }
      i.row.isSome && (issueCheck i (infoOf i) i.form false base).toBool && badTarget i base.me == some 0x1006) = true ∧ ((Instr.add badAdd).row.isSome, (Instr.add badAdd).wellFormed, (badTarget (.add badAdd) base.me).isNone) = (true, false, true)
    ∧ (Instr.vaddInt (form 4 1 2 0)).wellFormed = true ∧ (infoOf (.vaddInt (form 4 1 2 0))).steward = false
    ∧ (base.part 0).service = 0 ∧ (infoOf (.vaddInt (form 4 1 2 0))).roles.permits .c = false
    ∧ (infoOf (.vaddInt (form 4 1 2 0))).roles.permits .v = true
    ∧ (namedVectors (infoOf (.vaddInt (form 4 1 9 0))) (form 4 1 9 0)).find? (fun n => !({ vGroup with held := 1 } : Group).holds (n / 8)) = some 9 := by
  decide +kernel

/-- Kind 6 with the first word, 11 with the opcode, 8 with the register; a literal target that is no multiple of 4. -/
theorem test_issue_checks : trapped .add badAdd = (6, 0x221)
    ∧ trapped .vaddInt (form 4 1 2 0) (inRole .c) = (11, 0x31)
    ∧ trapped .vaddInt (form 4 1 9 0) { base with me := { vGroup with held := 1 } } = (8, 9)
    ∧ trapped .add { two with len := .extLit, nx := .jump 6 } = (6, 0x22B)
    ∧ trapped .nop { Form.blank with len := .lit, nx := .jump 6 } = (7, 0x1006) := by decide +kernel

/-- Two lanes on each path of a divergence, whose join is 10 words on. -/
def divergent : Group := { vGroup with em := 0xF, preds := [(1, 0x3)] }

theorem witness_NextAddress : divergent.em &&& ~~~divergent.pred 1 = 0xC ∧ divergent.em &&& divergent.pred 1 = 0x3
    ∧ divergent.rstack.length < 32 ∧ (divergent.sreg 63).toNat % 4 = 0
    ∧ ({ divergent with preds := [(1, 0xFF)] } : Group).em &&& ~~~0xFF = 0
    ∧ ({ divergent with rstack := List.replicate 32 ⟨1, 2, 3, 4, 5, 0, false⟩ } : Group).rstack.length = 32 := by decide +kernel

/-- A state at its join. -/
def joinS (phase : Bool) (ldep : Nat) : State :=
  { base with me := { divergent with rstack := [⟨0x1000, 0x1100, 0xC, 0xF, 0x20, ldep, phase⟩], tvec := 0x2000 } }

theorem test_next : (match divergent.advance (.cond false 1 5 10) 12 with
      | .ok g => (g.em, g.pc, g.rstack.map fun e => (e.join, e.resume, e.pmask)) == (0x3, 0x1014, [(0x1028, 0x100C, 0xC)])
      | .error _ => false) = true
    ∧ ((after .joinArrival (joinS false 0)).me.pc, (after .joinArrival (joinS false 0)).me.em) = (0x1100, 0xC)
    ∧ ((after .joinArrival (joinS true 0)).me.pc, (after .joinArrival (joinS true 0)).me.em, (after .joinArrival (joinS true 0)).me.rstack)
      = (0x1000, 0xF, [])
    ∧ ((after .joinArrival (joinS true 1)).me.tcause &&& 0xFF, (after .joinArrival (joinS true 1)).me.tval) = (6, 0x1000) := by decide +kernel

theorem witness_RegisterOnlyFrame : (match exec (.add two) base with
    | .next t => t.mem == base.mem && t.me.status == .running && !t.me.depth
    | _ => false) = true := by decide +kernel

theorem witness_DecodeEncode : (Instr.vfma { form 4 1 2 3 with pred := some ⟨true, 1⟩ }).wellFormed = true
    ∧ (Instr.vfma { form 4 1 2 3 with pred := some ⟨true, 1⟩ }).row.isSome = true
    ∧ (Instr.reservedOpcode 0x100).wellFormed = true
    ∧ decodeBits (encode (.vfma { form 4 1 2 3 with pred := some ⟨true, 1⟩ })) = .ok (.vfma { form 4 1 2 3 with pred := some ⟨true, 1⟩ }) := by
  refine ⟨by decide +kernel, by decide +kernel, by decide +kernel, rfl⟩

/-- `mov s4, 7` as the first instruction after reset. -/
def aWord : Nat := 1 + 0x10 * 2 ^ 5 + 0x94 * 2 ^ 32 + 0xF7 * 2 ^ 40
def fetchS : State := State.reset.withFetchWord 96 aWord

/-- The same without an agenda: the group is the next issuer. -/
def freeS : State := { fetchS with agenda := [] }

theorem witness_StepRunsDecoded : fetchS.agenda = [.run 1] ∧ freeS.committer (· == (fetchS.group 1).core) = none
    ∧ freeS.issuerOn (· == (fetchS.group 1).core) = some (1, some 0) ∧ (freeS.committer fun _ => true) = none
    ∧ (freeS.turn 1).me.win.isEmpty = true ∧ (freeS.turn 1).me.join = none
    ∧ (match (freeS.turn 1).fetch with | .word w _ => w % 2 ^ 96 == aWord | _ => false) = true
    ∧ freeS.dueStep.isNone = true ∧ freeS.judgeStep.isNone = true
    ∧ freeS.issuer = some (1, some 0) ∧ freeS.gangFirst 1 (some 0) false = false ∧ freeS.closed = false
    ∧ decodeTableWord 96 aWord = some (.mov { ext with d := 0x94, a := 0xF7 }) := by decide +kernel

theorem test_step : [fetchS, freeS].all (fun s => match step s with
    | .next t => (t.group 1).scalar 0x94 == 7 && t.time == s.time
    | _ => false) = true := by decide +kernel

theorem witness_StepKeepsMemoryForm : fetchS.Inv ∧ ∃ t, step fetchS = .next t :=
  ⟨by unfold State.Inv; decide +kernel, by
    have h : (match step fetchS with | .next _ => true | _ => false) = true := by decide +kernel
    split at h
    · exact ⟨_, ‹_›⟩
    · cases h⟩

/-! ### The digest -/

/-- The published digest of the three bytes "abc" (FIPS 180-4, its SHA-384 example). -/
theorem test_digest : sha384 [0x61, 0x62, 0x63] =
    0xCB00753F45A35E8BB5A03D699AC65007272C32AB0EDED1631A8B605A43FF5BED8086072BA1E7CC2358BAECA134C825A7 := by decide +kernel

end Sys2Proof.Tests
end

/-! The next address (04/R67) and the join check (02/R18). -/
namespace Sys2Proof.Machine
open Sys2Proof Sys2Proof.Claims

/-- A word is aligned to 4 where its 52 address bits are. -/
theorem setWidth52_mod_four (x : Word) : (x.setWidth 52).toNat % 4 = x.toNat % 4 := by
  simp only [BitVec.toNat_setWidth]; omega

/-! The conditional clause by the lanes that take it and the lanes that do not (02/R18). -/

section
variable {g : Group} {neg : Bool} {cp : BitVec 3} {target join : BitVec 30} {n : Nat} {p : BitVec 32}
  (hp : p = if neg then ~~~g.pred cp.toNat else g.pred cp.toNat)
include hp

theorem Group.advance_cond_all (hf : g.em &&& ~~~p = 0) :
    g.advance (.cond neg cp target join) n = .ok { g with pc := wordOff g.pc target } := by
  subst hp; simp only [Group.advance, if_pos hf]

theorem Group.advance_cond_none (hf : g.em &&& ~~~p ≠ 0) (ht : g.em &&& p = 0) :
    g.advance (.cond neg cp target join) n = .ok { g with pc := g.pc + BitVec.ofNat 52 n } := by
  subst hp; simp only [Group.advance, if_neg hf, if_pos ht]

theorem Group.advance_cond_both (hf : g.em &&& ~~~p ≠ 0) (ht : g.em &&& p ≠ 0) (room : g.rstack.length < g.rRoom) :
    g.advance (.cond neg cp target join) n = .ok { g with
      rstack := { join := wordOff g.pc join, resume := g.pc + BitVec.ofNat 52 n, pmask := g.em &&& ~~~p, emd := g.em
                  fmc := g.fm, ldep := g.lstack.length, phase := false } :: g.rstack
      em := g.em &&& p
      pc := wordOff g.pc target } := by
  subst hp; simp only [Group.advance, if_neg hf, if_neg ht, if_neg (Nat.not_le.2 room)]

theorem Group.advance_cond_overflow (hf : g.em &&& ~~~p ≠ 0) (ht : g.em &&& p ≠ 0) (full : g.rRoom ≤ g.rstack.length) :
    g.advance (.cond neg cp target join) n = .error (.overflow (if g.depth then 2 else 0)) := by
  subst hp; simp only [Group.advance, if_neg hf, if_neg ht, if_pos full]

end

theorem Group.advance_ret {g : Group} {n : Nat} (h : (g.sreg 63).toNat % 4 = 0) :
    g.advance .ret n = .ok { g with pc := (g.sreg 63).setWidth 52 } :=
  if_pos ((setWidth52_mod_four _).trans h)

theorem Group.advance_loop_cons {g : Group} {n : Nat} {e : LEntry} {es : List LEntry} (h : g.lstack = e :: es) :
    g.advance .loop n = .ok (if 1 < e.count.toNat then { g with pc := e.head, lstack := { e with count := e.count - 1 } :: es }
      else { g with pc := g.pc + BitVec.ofNat 52 n, lstack := es }) := by
  simp only [Group.advance, h]; split <;> rfl

theorem Group.advance_loop_nil {g : Group} {n : Nat} (h : g.lstack = []) : g.advance .loop n = .error .emptyLoop := by
  simp only [Group.advance, h]

/-! The join check at the join of the top entry. -/

section
variable {g : Group} {e : REntry} {es : List REntry} (h : g.rstack = e :: es) (hj : e.join = g.pc)
include h hj

theorem Group.join_first (hl : g.lstack.length = e.ldep) (hp : e.phase = false) :
    g.join = some (.ok { g with rstack := { e with phase := true } :: es, em := e.pmask, fm := e.fmc, pc := e.resume }) := by
  simp [Group.join, h, hj, hl, hp]

theorem Group.join_second (hl : g.lstack.length = e.ldep) (hp : e.phase = true) :
    g.join = some (.ok { g with rstack := es, em := e.emd, fm := e.fmc, pc := e.join }) := by
  simp [Group.join, h, hj, hl, hp]

theorem Group.join_loopDepth (hl : g.lstack.length ≠ e.ldep) : g.join = some (.error ()) := by
  simp [Group.join, h, hj, hl]

end

/-- Settles O54: the clause by its NX, then the join check by the phase and the loop depth of the top entry. -/
theorem nextAddress : Obligations.NextAddress := by
  unfold Obligations.NextAddress
  refine ⟨fun g n => ⟨rfl, rfl, fun _ => rfl, fun _ => rfl, Group.advance_ret, rfl, Group.advance_loop_nil,
    fun _ _ => Group.advance_loop_cons, fun _ _ _ _ => ⟨Group.advance_cond_all rfl, Group.advance_cond_none rfl,
      Group.advance_cond_both rfl, Group.advance_cond_overflow rfl⟩⟩,
    fun s _ _ h hj hl => ⟨fun hp => ?_, fun hp => ?_⟩,
    fun s _ _ h hj hl => ⟨fetchTrap 6 4 (s.me.pc.zeroExtend 64) s.me, ?_, rfl, rfl, rfl⟩⟩
  · simp only [exec_joinArrival, execJoinArrival, State.joinCheck, Group.join_first h hj hl hp]
  · simp only [exec_joinArrival, execJoinArrival, State.joinCheck, Group.join_second h hj hl hp]
  · simp only [exec_joinArrival, execJoinArrival, State.joinCheck, Group.join_loopDepth h hj hl]

end Sys2Proof.Machine

/-! Instructions whose meaning is `run` over an effect, as outcomes of `exec`. -/
namespace Sys2Proof.Machine
open Sys2Proof Sys2Proof.Claims

section
variable {i : Instr} {info : Info} {f : Form} {s s' : State} {e : Info → Form → Except Halt State}
  (hx : exec i s = run i s e) (h : Clear i info f s)
include hx h

theorem completes_of_run (he : e info f = .ok s') : Completes i s s' := hx.trans (run_ok h he)

theorem waits_of_run {w : Wait} (he : e info f = .error (.wait w)) : Waits i s w := hx.trans (run_wait h he)

theorem held_of_run {w : Wait} (he : e info f = .error (.held w s')) :
    exec i s = .next { s' with me := s'.me.waitOn w s'.time } := hx.trans (run_held h he)

end

end Sys2Proof.Machine

/-! Register blocks (02/R26-R30, 10/R165). -/
namespace Sys2Proof.Machine
open Sys2Proof Sys2Proof.Claims

/-- A table without a block lists nothing for it, and the same as before for every other register. -/
theorem get?_dropBlock {α : Type} (m : Map α) (b n : Nat) :
    Map.get? (dropBlock m b) n = if n / 8 = b then none else Map.get? m n := by
  induction m with
  | nil => simp [dropBlock]
  | cons p m ih =>
    obtain ⟨j, v⟩ := p
    by_cases hj : j / 8 = b
    · rw [show dropBlock ((j, v) :: m) b = dropBlock m b by simp [dropBlock, hj], ih]
      by_cases hn : n / 8 = b
      · simp [hn]
      · have : j ≠ n := fun e => hn (e ▸ hj)
        simp [hn, Map.get?, this]
    · rw [show dropBlock ((j, v) :: m) b = (j, v) :: dropBlock m b by simp [dropBlock, hj]]
      by_cases hn : j = n
      · subst hn; simp [Map.get?, hj]
      · simp [Map.get?, hn, ih]

theorem get_dropBlock_same {α : Type} (m : Map α) {b n : Nat} (d : α) (h : n / 8 = b) : Map.get (dropBlock m b) n d = d := by
  simp [Map.get, get?_dropBlock, h]

theorem get_dropBlock_other {α : Type} (m : Map α) {b n : Nat} (d : α) (h : n / 8 ≠ b) :
    Map.get (dropBlock m b) n d = Map.get m n d := by
  simp [Map.get, get?_dropBlock, h]

/-! What a gained block leaves (02/R28). -/

theorem Group.gainBlock_holds (g : Group) (b a : Nat) :
    (g.gainBlock b).holds a = (g.holds a || (decide (a < 16) && decide (b = a))) := by
  simp only [Group.holds, Group.gainBlock, BitVec.getLsbD_or, BitVec.getLsbD_ofNat, Nat.testBit_two_pow]

theorem Group.gainBlock_holds_same (g : Group) {b : Nat} (h : b < 16) : (g.gainBlock b).holds b = true := by
  simp [Group.gainBlock_holds, h]

theorem Group.gainBlock_holds_other (g : Group) {b a : Nat} (h : a ≠ b) : (g.gainBlock b).holds a = g.holds a := by
  simp [Group.gainBlock_holds, h.symm]

theorem Group.gainBlock_regs_same (g : Group) {b n : Nat} (h : n / 8 = b) :
    (g.gainBlock b).regs.get n .fresh = .fresh ∧ (g.gainBlock b).entry n = 0 :=
  ⟨get_dropBlock_same _ _ h, get_dropBlock_same _ _ h⟩

theorem Group.gainBlock_regs_other (g : Group) {b n : Nat} (h : n / 8 ≠ b) :
    (g.gainBlock b).regs.get n .fresh = g.regs.get n .fresh ∧ (g.gainBlock b).entry n = g.entry n :=
  ⟨get_dropBlock_other _ _ h, get_dropBlock_other _ _ h⟩

/-! `rbget` and `rbput` (10/R165). -/

section
variable {f : Form} {s : State} {info : Info}

theorem rbget_held (h : Clear (.rbget f) info f s) (held : s.me.holds f.d.toNat = true) : Completes (.rbget f) s s :=
  completes_of_run (exec_rbget f s) h (by simp only [if_pos held])

theorem rbget_free (h : Clear (.rbget f) info f s) (held : s.me.holds f.d.toNat = false) (free : 0 < s.blocksFree s.me.core) :
    Completes (.rbget f) s { s.modCore s.me.core fun k => { k with freeBlocks := k.freeBlocks - 1 } with
      me := s.me.gainBlock f.d.toNat } :=
  completes_of_run (exec_rbget f s) h (by simp only [held, if_pos free, Bool.false_eq_true, if_false])

theorem rbget_waits (h : Clear (.rbget f) info f s) (held : s.me.holds f.d.toNat = false)
    (noFree : s.blocksFree s.me.core = 0) :
    exec (.rbget f) s = .next { s with me := ({ s.me with want := some f.d.toNat } : Group).waitOn .rbget s.time } :=
  held_of_run (s' := { s with me := { s.me with want := some f.d.toNat } }) (w := .rbget) (exec_rbget f s) h
    (by simp only [held, noFree, Nat.lt_irrefl, Bool.false_eq_true, if_false])

theorem rbput_notHeld (h : Clear (.rbput f) info f s) (held : s.me.holds f.d.toNat = false) : Completes (.rbput f) s s :=
  completes_of_run (exec_rbput f s) h (by simp only [held, Bool.not_false, if_true])

theorem rbput_held (h : Clear (.rbput f) info f s) (held : s.me.holds f.d.toNat = true)
    (relief : ∀ r, s.me.relief = some r → r.block ≠ f.d.toNat) (queue : s.me.queueIn f.d.toNat = none)
    (splits : s.me.splits = []) :
    let b := f.d.toNat
    let s1 := s.freePlaces s.me ((List.range 8).map (8 * b + ·))
    let s2 := { s1 with me := { s1.me.loseBlock b with emg := false } }
    Completes (.rbput f) s
      (if s.me.emg then s2.modCore s.me.core fun k => { k with emergency := true } else s2.giveBlock s.me.core) := by
  have hr : s.me.relief.any (·.block == f.d.toNat) = false := by
    rw [Option.any_eq_false_iff_get]
    intro hs
    simpa using relief _ (Option.some_get hs).symm
  exact completes_of_run (exec_rbput f s) h (by
    simp only [held, hr, queue, splits, List.any_nil, Bool.not_true, Bool.false_eq_true, if_false])

end

/-- The emergency block where all residents wait (02/R30). -/
theorem State.grantEmergency_eq {s : State} {c g : Nat} {x : Group} (k : (s.core c).emergency = true)
    (resident : s.residents c ≠ []) (wait : ∀ y ∈ s.residents c, y.2.status = .running ∧ y.2.want.isSome = true)
    (oldest : leastGroup s.ageKey ((s.residents c).filter fun y => !y.2.depth) = some (g, x)) :
    s.grantEmergency c = (s.modCore c fun k => { k with emergency := false }).setGroup g
      { x.gainBlock (x.want.getD 0) with emg := true } := by
  have all : (s.residents c).all (fun y => y.2.status == .running && y.2.want.isSome) = true := by
    simpa [List.all_eq_true] using fun a b h => wait (a, b) h
  have ne : (s.residents c).isEmpty = false := List.isEmpty_eq_false_iff.2 resident
  simp only [State.grantEmergency, k, all, ne, oldest, Bool.not_false, Bool.and_self, if_true]

/-- Settles O41: the block that `rbget` gains reads fresh and no other is touched; the rest are the outcomes of the two
instructions and of the grant. -/
theorem registerBlocks : Obligations.RegisterBlocks := by
  unfold Obligations.RegisterBlocks
  refine ⟨fun _ _ _ => rbget_held, fun f s info h held free hb => ⟨_, rbget_free h held free, ?_, ?_, ?_, ?_, ?_⟩,
    fun _ _ _ => rbget_waits, fun _ _ _ => rbput_notHeld, fun _ _ _ => rbput_held,
    fun s => ⟨rfl, fun _ _ => State.grantEmergency_eq⟩⟩
  · exact s.me.gainBlock_holds_same hb
  · exact fun b _ hne => s.me.gainBlock_holds_other hne
  · exact fun j hj => s.me.gainBlock_regs_same (by omega)
  · exact fun n hn => s.me.gainBlock_regs_other hn
  · exact congrArg Core.freeBlocks (s.modCore_same s.me.core fun k => { k with freeBlocks := k.freeBlocks - 1 })

end Sys2Proof.Machine

/-! The instructions of the opcode rows and their issue: what a check stops traps, whatever the instruction (08/R130). -/
namespace Sys2Proof.Machine
open Sys2Proof Sys2Proof.Claims

/-! ### Every row is issued by `runIf` -/

/-- An outcome is that of `runIf` over some effect, some operand values being illegal. -/
def RunOf (i : Instr) (s : State) (o : Host.Outcome State Fault Refusal) : Prop := ∃ bad e, o = runIf i s bad e

section
variable (i : Instr) (s : State)

theorem RunOf.of_run {i : Instr} {s : State} {o : Host.Outcome State Fault Refusal} {e} (h : o = run i s e) : RunOf i s o :=
  ⟨_, e, h⟩

theorem RunOf.scalarOp (op : Nat → Nat → Nat → Nat) : RunOf i s (scalarOp i s op) := .of_run rfl
theorem RunOf.minmaxOp (signed greater : Bool) : RunOf i s (minmaxOp i s signed greater) := .of_run rfl
theorem RunOf.predOp (op : BitVec 32 → BitVec 32 → BitVec 32) : RunOf i s (predOp i s op) := .of_run rfl
theorem RunOf.fmOp (new : BitVec 32 → Word → BitVec 32) : RunOf i s (fmOp i s new) := .of_run rfl
theorem RunOf.elementOp (op : Nat → Bool → Nat → Nat → Nat → Nat) : RunOf i s (elementOp i s op) := .of_run rfl
theorem RunOf.laneOp (op : Ty → Nat → Nat) : RunOf i s (laneOp i s op) := .of_run rfl
theorem RunOf.sclOp (write : BitVec 32 → VReg → VWrite) : RunOf i s (sclOp i s write) := .of_run rfl
theorem RunOf.shuffleOp (sel : Nat → Nat → Nat) : RunOf i s (shuffleOp i s sel) := .of_run rfl
theorem RunOf.fpElem (rounds : Bool) (op : Fmt → Nat → Nat → Nat → FRes) : RunOf i s (fpElem i s rounds op) :=
  ⟨_, _, rfl⟩
theorem RunOf.redOp (rounds : Bool) (pad : FpNum) (op : FpNum → FpNum → ExRes) : RunOf i s (redOp i s rounds pad op) :=
  ⟨_, _, rfl⟩
theorem RunOf.dotOp : RunOf i s (dotOp i s) := ⟨_, _, rfl⟩
theorem RunOf.mmaOp (sw : Bool) : RunOf i s (mmaOp i s sw) := .of_run rfl
theorem RunOf.sdrOp (fn : Nat) : RunOf i s (sdrOp i s fn) := .of_run rfl
theorem RunOf.copyOp (kind : CopyKind) : RunOf i s (copyOp i s kind) := .of_run rfl
theorem RunOf.wmRead (field : Watermark → Nat) : RunOf i s (wmRead i s field) := .of_run rfl
theorem RunOf.atomOp : RunOf i s (atomOp i s) := .of_run rfl
theorem RunOf.readCell (clear : Bool) : RunOf i s (readCell i s clear) := ⟨_, _, rfl⟩
theorem RunOf.powerQuery (word : Nat → Word) : RunOf i s (powerQuery i s word) := ⟨_, _, rfl⟩
theorem RunOf.readSys : RunOf i s (readSys i s) := .of_run rfl
theorem RunOf.writeSys (act : Form → Word → Nat × State) : RunOf i s (writeSys i s act) := .of_run rfl

end

/-- Every instruction of the rows but `tret`, which checks more, and `spt`, which goes on, by the operation that gives it its
meaning. -/
theorem exec_runOf {i : Instr} {info : Info} {f : Form} (h : i.row = some (info, f)) (hr : ∀ f, i ≠ .tret f)
    (hp : ∀ f, i ≠ .spt f) (s : State) : RunOf i s (exec i s) := by
  cases i
  all_goals cases h
  all_goals (delta exec; dsimp only [])
  case tret => exact absurd rfl (hr _)
  case spt => exact absurd rfl (hp _)
  case pmov | pand | por | pxor | pandn | pnot => exact .predOp ..
  case fmt | fmtRnd | fmtAb | fmtFtz | fmtCbs | fmtTrp => exact .fmOp ..
  case add | sub | mul | mulh | mulhu | div | divu | rem | remu | and | or | xor | andn | shl | shr | sra | rol =>
    exact .scalarOp ..
  case min | max | minu | maxu => exact .minmaxOp ..
  case vaddInt | vsubInt | vmulInt | vmulh | vmad | vand | vor | vxor | vandn | vshl | vshr | vsra | vminInt | vmaxInt
      | vcmpInt | vsel | vclz | vpopc => exact .elementOp ..
  case vshflIdx | vshflUp | vshflDn | vshflXor | vshflBc => exact .shuffleOp ..
  case vpack | vunpack => exact .laneOp ..
  case vsclget => exact .sclOp ..
  case vaddFp | vsubFp | vmulFp | vfma | vminFp | vmaxFp | vcmpFp | vabs | vneg | vcpsgn | vrcp | vrsq | vsqrt | vexp2 | vlog2
      | vsin | vcos | vrint => exact .fpElem ..
  case vredAdd | vredMin | vredMax => exact .redOp ..
  case vdot2 | vdot4 | vdot8 => exact .dotOp ..
  case mma | mmaSw => exact .mmaOp ..
  case sdrDiff | sdrRatio | sdrAgree => exact .sdrOp ..
  case cpy | cpg | cpm => exact .copyOp ..
  case wmrdMark | wmrdState | wmrdBase | wmrdLimit => exact .wmRead ..
  case atomAdd | atomMin | atomMax | atomAnd | atomOr | atomXor | atomExch | atomCas => exact .atomOp ..
  case xrd | xrdClr => exact .readCell ..
  case pwrqLvl | pwrqGate | pwrqWeir | pwrqTherm => exact .powerQuery ..
  case srr | trmarkRead => exact .readSys ..
  case srw | trapRingSet | trtailWrite | sysregWrite | preemptLight | preemptFull | restore | resume | resumet | endteam
      | cancel => exact .writeSys ..
  case vcvt => delta execVcvt; exact ⟨_, _, rfl⟩
  case xchg => delta execXchg; exact ⟨_, _, rfl⟩
  case pgr => delta execPgr; exact ⟨_, _, rfl⟩
  case tndr => delta execTndr; exact ⟨_, _, rfl⟩
  case tacc => delta execTacc; exact ⟨_, _, rfl⟩
  case nbfma => delta execNbfma; exact ⟨_, _, rfl⟩
  case nbdot => delta execNbdot; exact ⟨_, _, rfl⟩
  case mapc => delta execMapc; exact ⟨_, _, rfl⟩
  case fbsvc => delta execFbsvc; exact ⟨_, _, rfl⟩
  all_goals exact .of_run rfl

end Sys2Proof.Machine

namespace Sys2Proof.Machine
open Sys2Proof Sys2Proof.Claims

/-! ### The group of a trap has stopped or has no request to stop: `spt` adds nothing to a trap (09/R148) -/

/-- A group reads as it was put, unless it was put as absent. -/
theorem State.group_setGroup (s : State) (g : Nat) (x : Group) :
    (s.setGroup g x).group g = x ∨ (s.setGroup g x).group g = Group.vacant := by
  unfold State.setGroup State.group State.group?
  by_cases h : g = s.meId
  · by_cases hx : x.status = .absent <;> simp [h, hx]
  · simp [h]

/-- A group that no change of another touches. -/
theorem State.group_setGroup_other (s : State) {g a : Nat} (x : Group) (h : g ≠ a) :
    (s.setGroup g x).group a = s.group a := by
  simp [State.group, State.group?_setGroup_other s x h]

/-- A change that keeps every group's status keeps what a group's status reads. -/
theorem State.modGroup_status (s : State) (g a : Nat) {f : Group → Group} (hf : ∀ x, (f x).status = x.status) :
    ((s.modGroup g f).group a).status = (s.group a).status := by
  unfold State.modGroup
  cases hg : s.group? g with
  | none => rfl
  | some x =>
    by_cases ha : g = a
    · subst ha
      by_cases hm : g = s.meId
      · subst hm
        obtain ⟨hx, rfl⟩ : s.me.status ≠ .absent ∧ s.me = x := by simpa [State.group?] using hg
        simp [State.group, State.group?, State.setGroup, hf, hx]
      · have hx : s.others.get? g = some x := by simpa [State.group?, hm] using hg
        simp [State.group, State.group?, State.setGroup, hm, hf, hx]
    · exact congrArg Group.status (State.group_setGroup_other s _ ha)

theorem State.fillN_status (c n a : Nat) : ∀ s : State, ((s.fillN c n).group a).status = (s.group a).status := by
  induction n with
  | zero => intro s; rfl
  | succ n ih =>
    intro s
    unfold State.fillN
    split
    · rfl
    · split
      · rfl
      · rw [ih]; exact State.modGroup_status s _ a fun _ => rfl

theorem State.fill_status (s : State) (c a : Nat) : ((s.fill c).group a).status = (s.group a).status := s.fillN_status c 8 a

/-- A group that is stopped, its seat filled, does not run. -/
theorem State.stopped_not_running (s : State) (g c : Nat) {x : Group} (hx : x.status = .stopped) :
    (((s.setGroup g x).fill c).group g).status ≠ .running := by
  rw [State.fill_status]
  rcases s.group_setGroup g x with key | key <;> simp [key, hx, Group.vacant]

/-- A group that has taken a trap does not run, or no request stops it. -/
theorem State.takeTrap_notMarked (s : State) (g : Nat) (t : Trap) :
    ((s.takeTrap g t).group g).status ≠ .running ∨ ((s.takeTrap g t).group g).stopAt = none := by
  unfold State.takeTrap
  cases hg : s.group? g with
  | none => left; simp [State.group, hg, Group.vacant]
  | some y =>
    simp only []
    split
    · -- the handler: the request is gone
      right
      rcases (s.squash g).group_setGroup g
        { y.squashed.enterHandler t with notBefore := (s.squash g).cycles y.squashed.core + 6 } with key | key
      · exact congrArg Group.stopAt key
      · exact congrArg Group.stopAt key
    · -- the steward: the group has stopped, and its report changes no group
      left
      split
      · exact State.stopped_not_running _ _ _ rfl
      · exact State.stopped_not_running _ _ _ rfl

/-- What `spt` does after its run leaves a trap as it is. -/
theorem State.takeTrap_stopMarked (s : State) (g : Nat) (t : Trap) : (s.takeTrap g t).stopMarked g = s.takeTrap g t := by
  unfold State.stopMarked
  rcases s.takeTrap_notMarked g t with h | h <;> simp [h]

/-! ### A trap of the checks -/

/-- A trap that ranks above a misaligned target is taken, whatever the target (08/R130). -/
theorem settle_outranking {i : Instr} {s : State} {t : Trap} (ht : outranksMisaligned t.kind = true) :
    settle i s (.error (.trap t)) = .next (s.counted.takeTrap s.meId t) := by
  unfold settle
  cases badTarget i s.me <;> simp [ht]

theorem RunOf.traps {i : Instr} {info : Info} {f : Form} {s : State} {t : Trap} {o : Host.Outcome State Fault Refusal}
    (ho : RunOf i s o) (h : i.row = some (info, f)) (hc : ∀ bad, issueCheck i info f bad s = .error (.trap t))
    (ht : outranksMisaligned t.kind = true) : o = .next (s.counted.takeTrap s.meId t) := by
  obtain ⟨bad, e, rfl⟩ := ho
  simp only [runIf, h, hc, settle_outranking ht]

/-- A trap of the checks of issue, of a kind that ranks above misaligned, is the outcome of every instruction of the rows. -/
theorem traps_of_issueCheck {i : Instr} {info : Info} {f : Form} {s : State} {t : Trap} (h : i.row = some (info, f))
    (hc : ∀ bad, issueCheck i info f bad s = .error (.trap t)) (ht : outranksMisaligned t.kind = true) : Traps i s t := by
  by_cases hr : ∃ f, i = .tret f
  · obtain ⟨f', rfl⟩ := hr
    simp only [Traps, exec_tret, execTret, h, hc, settle_outranking ht]
  by_cases hp : ∃ f, i = .spt f
  · obtain ⟨f', rfl⟩ := hp
    simp only [Traps, exec_spt, execSpt, run, runIf, h, hc, settle_outranking ht, State.takeTrap_stopMarked]
  · exact (exec_runOf h (fun f e => hr ⟨f, e⟩) (fun f e => hp ⟨f, e⟩) s).traps h hc ht

/-! ### The checks in their rank (08/R130) -/

theorem issueCheck_illFormed {i : Instr} {info : Info} {f : Form} {s : State} (hw : s.me.win = []) (hf : i.wellFormed = false)
    (bad : Bool) : issueCheck i info f bad s = .error (illegal i s.me) := by
  simp [issueCheck, hw, hf]

section
variable {i : Instr} {info : Info} {f : Form} {s : State} (hw : s.me.win = []) (hf : i.wellFormed = true)
  (hs : info.steward = true → s.myTeam.steward = true) (hv : (s.part s.myPart).service ≠ 1)
include hw hf hs hv

/-- What is left of the checks once the instruction is legal for its team and its partition: the role comes first. -/
theorem issueCheck_role (hr : info.roles.permits s.me.role = false) (bad : Bool) :
    issueCheck i info f bad s = .error (.trap (trapOf i s.me 11 (BitVec.ofNat 64 info.op))) := by
  have hs' : (info.steward && !s.myTeam.steward) = false := by cases h : info.steward <;> simp_all
  simp [issueCheck, hw, hf, hs', hv, hr]

theorem issueCheck_block (hr : info.roles.permits s.me.role = true) {n : Nat}
    (hn : ((namedVectors info f).find? fun n => !s.me.holds (n / 8)) = some n) (bad : Bool) :
    issueCheck i info f bad s = .error (.trap (trapOf i s.me 8 (BitVec.ofNat 64 n))) := by
  have hs' : (info.steward && !s.myTeam.steward) = false := by cases h : info.steward <;> simp_all
  simp [issueCheck, hw, hf, hs', hv, hr, hn]

end

theorem illFormedTraps : IllFormedTraps := fun i s _ _ h hw hf =>
  ⟨trapOf i s.me 6 (BitVec.ofNat 64 i.firstWord), traps_of_issueCheck h (issueCheck_illFormed hw hf) rfl, rfl, rfl⟩

/-! ### A misaligned literal target (04/R62) -/

theorem settle_misaligned {i : Instr} {s s' : State} {x : Word} (hb : badTarget i s.me = some x) :
    settle i s (.ok s') = .next (s.counted.takeTrap s.meId (trapOf i s.me 7 x)) := by
  simp only [settle, hb, misaligned]

/-- An instruction whose effect always completes, where its target is misaligned. -/
theorem misaligned_of_run {i : Instr} {info : Info} {f : Form} {s : State} {x : Word} {e : Info → Form → State}
    (hx : exec i s = run i s fun info f => .ok (e info f)) (h : i.row = some (info, f))
    (hc : issueCheck i info f false s = .ok ()) (hb : badTarget i s.me = some x) : Traps i s (trapOf i s.me 7 x) := by
  simp only [Traps, hx, run, runIf, h, hc, settle_misaligned hb]

/-- The effect of a quiet instruction always completes. -/
theorem quiet_completes : ∀ mk ∈ quiet, ∀ f s, ∃ e : Info → Form → State,
    exec (mk f) s = run (mk f) s fun info f => .ok (e info f) := by
  simp only [quiet, List.forall_mem_cons, List.not_mem_nil, false_implies, implies_true, and_true]
  and_intros
  all_goals intro f s
  all_goals
    dsimp only [exec_nop, exec_pmov, exec_pand, exec_por, exec_pget, exec_pset, exec_mov, exec_add, exec_sub, exec_mul,
      exec_div, exec_and, exec_or, exec_xor, exec_shl, exec_shr, exec_cmp, exec_sel, exec_clz, exec_popc, execNop, execPmov,
      execPand, execPor, execPget, execPset, execMov, execAdd, execSub, execMul, execDiv, execAnd, execOr, execXor, execShl, execShr,
      execCmp, execSel, execClz, execPopc, scalarOp, predOp]
    exact ⟨_, rfl⟩

/-! ### Reserved opcodes (05/R83) -/

theorem reservedOpcode_traps {w : BitVec 32} {s : State} (hw : s.me.win = []) :
    Traps (.reservedOpcode w) s (trapOf (.reservedOpcode w) s.me 6 (BitVec.ofNat 64 (Instr.reservedOpcode w).firstWord)) := by
  simp only [Traps, exec_reservedOpcode, execReservedOpcode, hw, List.isEmpty_nil, if_true, illegal]

theorem firstWord_reservedOpcode (w : BitVec 32) : BitVec.ofNat 64 (Instr.reservedOpcode w).firstWord = w.setWidth 64 := by
  have hw : w.toNat % 2 ^ 32 = w.toNat := Nat.mod_eq_of_lt w.isLt
  simp only [Instr.firstWord, encode, hw, BitVec.ofNat_toNat]

/-- Settles O53: a trap of the checks is the outcome of every instruction of the rows, and the checks come in their rank. -/
theorem issueChecks : Obligations.IssueChecks := by
  unfold Obligations.IssueChecks
  refine ⟨illFormedTraps, fun mk hm f s info x h hc hb => ?_, fun w s hw => ?_,
    fun mk _ f s info h hw _ hf hs hv => ⟨fun hr => ?_, fun hr n hn => ?_⟩⟩
  · obtain ⟨e, he⟩ := quiet_completes mk hm f s
    exact ⟨_, misaligned_of_run he h hc hb, rfl, rfl⟩
  · exact ⟨_, reservedOpcode_traps hw, rfl, firstWord_reservedOpcode w, rfl⟩
  · exact ⟨_, traps_of_issueCheck h (issueCheck_role hw hf hs hv hr) rfl, rfl, rfl⟩
  · exact ⟨_, traps_of_issueCheck h (issueCheck_block hw hf hs hv hr hn) rfl, rfl, rfl⟩

end Sys2Proof.Machine

/-! The write of a register at its place (03/R36, R41, R47, 06/R86). -/
namespace Sys2Proof.Machine
open Sys2Proof Sys2Proof.Claims

/-! ### Scratchpad bytes (02/R23, 06/R107) -/

/-- A scratchpad byte read after a write, in the team's region or the cohort's. -/
theorem State.spRead_spWrite (s : State) (t a x : Nat) (b : Byte) :
    (s.spWrite t a b).spRead t x = if a = x then b else s.spRead t x := by
  unfold State.spWrite
  by_cases ha : cohortBase ≤ a
  · rw [if_pos ha]
    unfold State.spRead
    by_cases hx : cohortBase ≤ x
    · simp only [if_pos hx, State.modCohort_team, State.modCohort_same, Map.get_set_same, Map.get?_set]
      split <;> rfl
    · have hne : a ≠ x := fun e => hx (e ▸ ha)
      simp only [if_neg hx, State.modCohort_team, if_neg hne]
  · rw [if_neg ha]
    unfold State.spRead
    by_cases hx : cohortBase ≤ x
    · have hne : a ≠ x := fun e => ha (e ▸ hx)
      simp only [if_pos hx, State.setTeam, State.team, State.cohort, Map.get_set_same, if_neg hne]
    · simp only [if_neg hx, State.setTeam, State.team, Map.get_set_same, Map.get?_set]
      split <;> rfl

/-- Bytes written at offsets of a base, each with the value of its offset. -/
theorem State.spRead_foldl_spWrite (t base x : Nat) (f : Nat → Byte) (os : List Nat) : ∀ s : State,
    ((os.map fun o => (base + o, f o)).foldl (fun s w => s.spWrite t w.1 w.2) s).spRead t x
      = if base ≤ x ∧ x - base ∈ os then f (x - base) else s.spRead t x := by
  induction os with
  | nil => intro s; simp
  | cons o os ih =>
    intro s
    rw [List.map_cons, List.foldl_cons, ih, State.spRead_spWrite]
    by_cases hx : base + o = x
    · subst hx
      simp
    · have ho : base ≤ x → x - base ≠ o := fun h => by omega
      by_cases hb : base ≤ x <;> simp [hb, hx, ho]

/-- Healing leaves every byte as it reads. -/
theorem State.spRead_spHeal (s : State) (key : Nat) (whole : Nat → Bool) (t x : Nat) :
    (s.spHeal key whole).spRead t x = s.spRead t x := by
  unfold State.spHeal; split <;> rfl

/-- What a write of scratchpad keeps. -/
theorem State.spWrite_me (s : State) (t x : Nat) (b : Byte) : (s.spWrite t x b).me = s.me := by
  unfold State.spWrite; simp only []; split <;> rfl
theorem State.spWrite_mem (s : State) (t x : Nat) (b : Byte) : (s.spWrite t x b).mem = s.mem := by
  unfold State.spWrite; simp only []; split <;> rfl
theorem State.spHeal_me (s : State) (key : Nat) (whole : Nat → Bool) : (s.spHeal key whole).me = s.me := by
  unfold State.spHeal; split <;> rfl
theorem State.spHeal_mem (s : State) (key : Nat) (whole : Nat → Bool) : (s.spHeal key whole).mem = s.mem := by
  unfold State.spHeal; split <;> rfl
theorem State.spStore_me (s : State) (t : Nat) (ws : List (Nat × Byte)) : (s.spStore t ws).me = s.me := by
  rw [State.spStore, State.spHeal_me, foldl_keeps _ State.me fun s (w : Nat × Byte) => s.spWrite_me t w.1 w.2]
theorem State.spStore_mem (s : State) (t : Nat) (ws : List (Nat × Byte)) : (s.spStore t ws).mem = s.mem := by
  rw [State.spStore, State.spHeal_mem, foldl_keeps _ State.mem fun s (w : Nat × Byte) => s.spWrite_mem t w.1 w.2]

/-- The offsets of the active lanes of a row. -/
theorem mem_laneBytes (m : BitVec 32) (o : Nat) : o ∈ laneBytes m ↔ o < 128 ∧ laneOn m (o / 4) = true := by
  simp [laneBytes]

/-! ### A slot of scratchpad (03/R36) -/

section
variable (s : State) (t slot : Nat) (w : VWrite)

theorem State.writeSlot_me : (s.writeSlot t slot w).me = s.me := by
  unfold State.writeSlot
  simp only [State.modTeam_me]
  split <;> simp only [State.spHeal_me, State.spStore_me]

theorem State.writeSlot_mem : (s.writeSlot t slot w).mem = s.mem := by
  unfold State.writeSlot
  simp only [State.modTeam_mem]
  split <;> simp only [State.spHeal_mem, State.spStore_mem]

theorem State.writeSlot_scale :
    ((s.writeSlot t slot w).team t).spScale.get slot VReg.fresh.scale = (w.onto (s.slotReg t slot)).scale := by
  unfold State.writeSlot
  simp only [State.modTeam_same, Map.get_set_same]

/-- The scale bytes of a slot are no bytes of scratchpad. -/
theorem State.spRead_setScale (v : BitVec 64) (x : Nat) :
    (s.modTeam t fun y => { y with spScale := y.spScale.set slot v }).spRead t x = s.spRead t x := by
  unfold State.spRead
  simp only [State.modTeam_same, State.modTeam_cohort]

theorem State.writeSlot_spRead (x : Nat) : (s.writeSlot t slot w).spRead t x =
    if 128 * slot ≤ x ∧ x < 128 * slot + 128 ∧ laneOn w.mask ((x - 128 * slot) / 4) = true
    then BitVec.ofNat 8 (digit 8 (w.onto (s.slotReg t slot)).data.toNat (x - 128 * slot)) else s.spRead t x := by
  have stored : (s.writeSlot t slot w).spRead t x = (s.spStore t ((laneBytes w.mask).map fun o =>
      (128 * slot + o, BitVec.ofNat 8 (digit 8 (w.onto (s.slotReg t slot)).data.toNat o)))).spRead t x := by
    unfold State.writeSlot
    simp only [State.spRead_setScale]
    split
    · exact State.spRead_spHeal ..
    · rfl
  rw [stored, State.spStore, State.spRead_spHeal, State.spRead_foldl_spWrite]
  have reached : (128 * slot ≤ x ∧ x - 128 * slot ∈ laneBytes w.mask)
      ↔ 128 * slot ≤ x ∧ x < 128 * slot + 128 ∧ laneOn w.mask ((x - 128 * slot) / 4) = true :=
    and_congr_right fun h => by rw [mem_laneBytes, Nat.sub_lt_iff_lt_add' h]
  simp only [reached]

end

/-! ### The places of a register -/

/-- A register of the operand file. -/
theorem writeReg_opf {i : Instr} {s : State} {w : VWrite} {first : Bool} {n : Nat} (hl : s.me.loading (.opf n) = false) :
    writeReg i s (.opf n) w first = .ok { s with me := { s.me with
      ofile := s.me.ofile.set n (w.onto (s.me.ofile.get n .fresh))
      lr := if first then w.onto (s.me.ofile.get n .fresh) else s.me.lr } } := by
  simp only [writeReg, hl, Bool.false_eq_true, if_false]

section
variable {i : Instr} {s : State} {w : VWrite} {first : Bool} {n : Nat} (hl : s.me.loading (.vec n) = false)
include hl

theorem writeReg_ln (hq : mapQKind (s.me.entry n) ≠ 1) (hp : mapPlace (s.me.entry n) = 0) :
    writeReg i s (.vec n) w first = .ok { s with me := { s.me with
      regs := s.me.regs.set n (w.onto (s.me.regs.get n .fresh))
      lr := if first then w.onto (s.me.regs.get n .fresh) else s.me.lr } } := by
  simp only [writeReg, hl, hq, hp, Bool.false_eq_true, if_false]

theorem writeReg_queue (hq : mapQKind (s.me.entry n) = 1) (hm : w.mask ≠ 0)
    (room : (s.me.lqueues.get n []).length < mapQDepth (s.me.entry n)) :
    writeReg i s (.vec n) w first = .ok { s with me := { s.me with
      lqueues := s.me.lqueues.set n (s.me.lqueues.get n [] ++ [w.onto .fresh])
      lr := if first then w.onto .fresh else s.me.lr } } := by
  simp only [writeReg, hl, hq, hm, Nat.not_le.2 room, Bool.false_eq_true, if_false, if_true]

theorem writeReg_fullQueue (hq : mapQKind (s.me.entry n) = 1) (hm : w.mask ≠ 0)
    (full : mapQDepth (s.me.entry n) ≤ (s.me.lqueues.get n []).length) :
    writeReg i s (.vec n) w first = .error (.wait .queue) := by
  simp only [writeReg, hl, hq, hm, full, Bool.false_eq_true, if_false, if_true]

theorem writeReg_sp (hq : mapQKind (s.me.entry n) ≠ 1) (hp : mapPlace (s.me.entry n) = 1) :
    writeReg i s (.vec n) w first = .ok (s.writeSlot s.me.team (mapSlot (s.me.entry n)) w) := by
  simp only [writeReg, hl, hq, hp, Bool.false_eq_true, if_false]

theorem writeReg_blockedBank (hq : mapQKind (s.me.entry n) ≠ 1) (hp : mapPlace (s.me.entry n) = 2)
    (hb : s.bankBlocked s.myPart (bankOf (s.me.entry n)).1 = true) :
    writeReg i s (.vec n) w first = .error (.wait .register) := by
  simp only [writeReg, hl, hq, hp, hb, Bool.false_eq_true, if_false, if_true]

theorem writeReg_bank (hq : mapQKind (s.me.entry n) ≠ 1) (hp : mapPlace (s.me.entry n) = 2)
    (hb : s.bankBlocked s.myPart (bankOf (s.me.entry n)).1 = false) :
    let b := bankOf (s.me.entry n)
    writeReg i s (.vec n) w first = .ok (s.setBankReg s.myPart b.1 b.2 (w.onto (s.bankReg s.myPart b.1 b.2))) := by
  simp only [writeReg, hl, hq, hp, hb, Bool.false_eq_true, if_false]

theorem writeReg_culvert (hq : mapQKind (s.me.entry n) ≠ 1) (hp : mapPlace (s.me.entry n) = 3) (hm : w.mask ≠ 0) {k : Nat}
    (hk : k = culvertOf s.me.core (s.me.entry n)) (hg : (s.culvert k).inGone = false) (ha : (s.culvert k).away = false)
    (room : s.slotsTaken k (s.culvert k) < (s.culvert k).depth) :
    writeReg i s (.vec n) w first = .ok (s.modCulvert k fun c =>
      { c with flying := c.flying ++ [(s.cycles s.me.core + 12, w.onto .fresh)], taken := c.taken + 1 }) := by
  subst hk
  have full : decide ((s.culvert _).depth ≤ s.slotsTaken _ (s.culvert _)) = false := decide_eq_false (Nat.not_le.2 room)
  simp only [writeReg, pushCulvert, hl, hq, hp, hm, hg, ha, full, Bool.or_self, Bool.false_eq_true, if_false]

end

/-- Settles O32: one clause for each place. -/
theorem registerWrite : Obligations.RegisterWrite := by
  unfold Obligations.RegisterWrite
  refine fun i s w first => ⟨fun _ => writeReg_opf, fun n hl => ⟨writeReg_ln hl, writeReg_queue hl, writeReg_fullQueue hl,
    fun hq hp => ⟨_, writeReg_sp hl hq hp, ?_, ?_, ?_, ?_⟩, writeReg_blockedBank hl, writeReg_bank hl,
    fun hq hp hm => writeReg_culvert hl hq hp hm rfl⟩⟩
  · exact s.writeSlot_me ..
  · exact s.writeSlot_mem ..
  · exact s.writeSlot_scale ..
  · exact fun x => s.writeSlot_spRead _ _ _ x

end Sys2Proof.Machine

/-! Split-phase loads and `kwait` (19/R305-R307). -/
namespace Sys2Proof.Machine
open Sys2Proof Sys2Proof.Claims

/-- An aligned address of 52 bits passes the checks of a global address (06/R107). -/
theorem globalCheck_ok {i : Instr} {g : Group} {x : Word} {n : Nat} (ha : x.toNat % n = 0) (hx : x.toNat < 2 ^ 52) :
    globalCheck i g x n = .ok () := by
  simp only [globalCheck, alignCheck, ha, Nat.div_eq_of_lt hx, ne_eq, not_true_eq_false, if_false]

/-- The count of an `lds`, raised unless it stands raised since it parked. -/
theorem Group.raiseCtr_eq (g : Group) (k : Nat) : g.raiseCtr k = if g.raised = none
    then { g.setCtr k { g.ctr k with count := (g.ctr k).count + 1 } with raised := some k } else g := by
  unfold Group.raiseCtr
  cases g.raised <;> rfl

section
variable {f : Form} {s : State} {info : Info}

theorem lds_noLane (h : Clear (.lds f) info f s) (ha : s.me.active f = 0) : Completes (.lds f) s s :=
  completes_of_run (exec_lds f s) h (by simp only [ha, beq_self_eq_true, if_true])

theorem lds_sends {s1 : State} {home : Home} {sc : Bool} (h : Clear (.lds f) info f s) (ha : s.me.active f ≠ 0)
    (aligned : (s.me.address f).toNat % 128 = 0) (inSpace : (s.me.address f).toNat < 2 ^ 52)
    (count : (s.me.ctr f.kc.toNat).count ≠ 63 ∨ s.me.raised ≠ none) (free : s.me.loading (Spec.of f.d) = false)
    (maps : translated (.lds f) s (s.me.address f) false = .ok (home, sc, s1))
    (allowed : splitAllowed (.lds f) s1 (s.me.address f) home = .ok ()) (ordered : s1.me.inOrder home 128 false = .ok ()) :
    let s2 := s1.sendSplit {
      dest := f.d, mask := s.me.active f, va := s.me.address f, home, ctr := f.kc.toNat, acq := f.ord == 1 || sc
      seq := none, due := 0, mine := [], inner := s1.me.hides (Spec.of f.d), got := none }
    Completes (.lds f) s { s2 with me := s2.me.raiseCtr f.kc.toNat } := by
  have act : (s.me.active f == 0) = false := by simpa using ha
  have room : (decide ((s.me.ctr f.kc.toNat).count = 63) && s.me.raised.isNone) = false := by
    rcases count with hc | hr
    · simp [hc]
    · simp [Option.ne_none_iff_isSome.1 hr]
  exact completes_of_run (exec_lds f s) h (by
    simp only [act, globalCheck_ok aligned inSpace, room, free, maps, allowed, ordered, ranked, Bool.false_eq_true, if_false])

/-- `kwait` at or below its threshold, or with a threshold of 63 and more, where its counter notes no damage (19/R307). -/
theorem kwait_passes (h : Clear (.kwait f) info f s)
    (ht : (s.me.ctr f.a.toNat).count ≤ (s.me.scalar f.b).toNat ∨ 63 ≤ (s.me.scalar f.b).toNat)
    (hd : (s.me.ctr f.a.toNat).damage = none) : Completes (.kwait f) s s := by
  have low : (decide ((s.me.scalar f.b).toNat < 63)
      && decide ((s.me.scalar f.b).toNat < (s.me.ctr f.a.toNat).count)) = false := by
    simp only [Bool.and_eq_false_iff, decide_eq_false_iff_not]
    omega
  exact completes_of_run (exec_kwait f s) h (by simp only [low, hd, Bool.false_eq_true, if_false])

theorem kwait_waits (h : Clear (.kwait f) info f s) (hc : (s.me.scalar f.b).toNat < (s.me.ctr f.a.toNat).count)
    (ht : (s.me.scalar f.b).toNat < 63) : Waits (.kwait f) s .kwait :=
  waits_of_run (exec_kwait f s) h (by simp only [ht, hc, decide_true, Bool.and_self, if_true])

end

/-- A reply whose bytes are found lands its lanes, then lowers the counter (19/R305). -/
theorem ldsReply_lands {g n : Nat} {s s1 : State} {l : Split} {xs : List (Option Nat)} {bad : Option Word}
    (hl : (s.group g).splits[n]? = some l)
    (found : (l.got.map fun r => (r, s)).or (s.splitFinds (s.group g) l) = some ((xs, bad), s1)) :
    let mask := maskOf fun k => laneOn l.mask k && (xs.getD k none).isSome
    let s2 := s1.landReg g l.inner (Spec.of l.dest) (scaledWrite mask (fun k => (xs.getD k none).getD 0) fun _ => 0x7F)
    exec (.ldsReply g n) s = .next (s2.modGroup g fun y =>
      { y.setCtr l.ctr { count := (y.ctr l.ctr).count - 1, damage := (y.ctr l.ctr).damage.or bad } with
        splits := dropAt y.splits n }) := by
  simp only [exec_ldsReply, execLdsReply, State.landSplit, hl, found]

/-- Settles O26: the outcomes of `lds`, of its reply, and of `kwait`. -/
theorem splitPhase : Obligations.SplitPhase := by
  unfold Obligations.SplitPhase
  refine ⟨fun f s s1 info home sc h ha => ?_, fun _ _ _ => lds_noLane, fun _ _ _ _ _ _ _ => ldsReply_lands,
    fun _ _ _ h => ⟨kwait_passes h, kwait_waits h⟩⟩
  intro x c aligned inSpace count free maps allowed ordered
  have key := lds_sends h ha aligned inSpace count free maps allowed ordered
  simp only [Group.raiseCtr_eq] at key
  exact key

end Sys2Proof.Machine

/-! The exit of a group that a state lists twice (02/R20): as the one whose turn it is, and among the others. -/
namespace Sys2Proof.Machine
open Sys2Proof Sys2Proof.Claims

/-- Group 1 has its turn and is exiting; a second, running entry for the number 1 stands among the other groups. -/
def twiceListed : State :=
  { State.reset with
    subject := 1, meId := 1, me := { Group.vacant with status := .exiting }
    others := [(1, { Group.vacant with status := .running })] }

/-- The exit drops the group whose turn it is; the second entry, which runs, then stands for its number. -/
theorem twiceListed_exit_runs :
    ((twiceListed.exitGroup twiceListed.subject).group twiceListed.subject).status = .running := by decide +kernel

/-- Refutes O48: its claim that an exited group is absent is made of every state, also of one that lists the group twice. -/
theorem not_endsAndReports : ¬ Obligations.EndsAndReports := by
  unfold Obligations.EndsAndReports
  rintro ⟨-, -, -, -, -, -, groupExit_absent, -⟩
  have noLatch : ∀ a ∈ (twiceListed.team twiceListed.me.team).latch, a.gid ≠ twiceListed.subject :=
    fun _ ha => absurd ha List.not_mem_nil
  obtain ⟨t, hexec, absent, -⟩ := groupExit_absent twiceListed twiceListed.me rfl rfl rfl noLatch
  obtain rfl : twiceListed.exitGroup twiceListed.subject = t := Host.Outcome.next.inj hexec
  exact absurd (twiceListed_exit_runs.symm.trans absent) (by decide)

end Sys2Proof.Machine

/-! `plc`, `qfree`, `xchg` and the culverts (03/R45-R54, 06/R112-R114). -/
namespace Sys2Proof.Machine
open Sys2Proof Sys2Proof.Claims

/-! ### Issue: a trap as the outcome, a value that makes nothing illegal -/

theorem traps_of_run {i : Instr} {info : Info} {f : Form} {s : State} {e : Info → Form → Except Halt State} {t : Trap}
    (hx : exec i s = run i s e) (h : Clear i info f s) (he : e info f = .error (.trap t)) : Traps i s t :=
  hx.trans (run_trap h he)

/-- An instruction whose values are legal runs as one that no value makes illegal. -/
theorem runIf_eq_run {i : Instr} {info : Info} {f : Form} {s : State} {bad : Info → Form → Bool}
    {e : Info → Form → Except Halt State} (h : Clear i info f s) (hb : bad info f = false) : runIf i s bad e = run i s e := by
  simp only [run, runIf, h.row, hb]

/-- Effects that agree on the row and the fields of the instruction have one outcome. -/
theorem run_congr {i : Instr} {info : Info} {f : Form} {s : State} {e e' : Info → Form → Except Halt State}
    (h : Clear i info f s) (he : e info f = e' info f) : run i s e = run i s e' := by
  simp only [run, runIf, h.row, he]

/-! ### `plc` (03/R45, 06/R112) -/

theorem State.unitWaits_iff {s : State} {p : Nat} {e : BitVec 32} :
    s.unitWaits p e = true ↔ mapPlace e = 2 ∧ s.bankBlocked p (bankOf e).1 = true := by
  simp [State.unitWaits]

/-- Register n, of value v, stands at the place of the map entry `new`; the one it held is free. -/
def State.moveTo (s : State) (n : Nat) (new : BitVec 32) (v : VReg) : State :=
  let s1 := s.freeSlot s.myPart (s.me.entry n)
  let s2 : State := { s1 with me := { s1.me with pmap := s1.me.pmap.set n new } }
  match mapPlace new with
  | 1 => s2.writeSlot s.me.team (mapSlot new) v.whole
  | 2 => (s2.ownBank s2.myPart (bankOf new).1 (bankOf new).2 (some (s2.meId, n))).setBankReg s2.myPart
      (bankOf new).1 (bankOf new).2 v
  | _ => { s2 with me := { s2.me with regs := s2.me.regs.set n v } }

section
variable {f : Form} {s : State} {info : Info} {new : BitVec 32} (h : Clear (.plc f) info f s)
  (target : plcTarget s f f.d.toNat = .ok new) (free : s.me.loading (.vec f.d.toNat) = false)
include h target free

theorem plc_stays (same : new = s.me.entry f.d.toNat) : Completes (.plc f) s s :=
  completes_of_run (exec_plc f s) h (by simp only [target, free, ← same, Bool.false_eq_true, if_false, if_true])

variable (moved : new ≠ s.me.entry f.d.toNat)
include moved

theorem plc_waits (blocked : s.unitWaits s.myPart (s.me.entry f.d.toNat) = true ∨ s.unitWaits s.myPart new = true) :
    Waits (.plc f) s .register :=
  waits_of_run (exec_plc f s) h (by
    simp only [target, free, moved, Bool.or_eq_true, blocked, Bool.false_eq_true, if_false, if_true])

theorem plc_moves (oldReady : s.unitWaits s.myPart (s.me.entry f.d.toNat) = false)
    (newReady : s.unitWaits s.myPart new = false)
    (slot : mapPlace (s.me.entry f.d.toNat) = 1 → s.gate s.me.team (128 * mapSlot (s.me.entry f.d.toNat)) 128 = .go
      ∧ s.slotBad s.me.team (mapSlot (s.me.entry f.d.toNat)) = false) :
    Completes (.plc f) s (s.moveTo f.d.toNat new (s.vreg f.d.toNat)) :=
  completes_of_run (exec_plc f s) h (by
    simp only [target, free, moved, oldReady, newReady, Bool.or_self, Bool.false_eq_true, if_false]
    by_cases inSlot : mapPlace (s.me.entry f.d.toNat) = 1
    · obtain ⟨opened, intact⟩ := slot inSlot
      simp only [inSlot, opened, intact, Bool.false_eq_true, if_false, if_true]
      rfl
    · simp only [inSlot, if_false]
      rfl)

end

/-! ### `qfree` (03/R52, 06/R113) -/

theorem qfree_completes {f : Form} {s : State} {info : Info} (h : Clear (.qfree f) info f s) :
    Completes (.qfree f) s (s.setScalar f.d (BitVec.ofNat 64 (s.freeSlots f.a.toNat))) :=
  completes_of_run (exec_qfree f s) h rfl

/-! ### `xchg` (03/R54, 06/R114) -/

/-- The record of an `xchg` that waits for its partner. -/
def State.xchgWait (s : State) (f : Form) : XWait :=
  let v := (s.me.scalar f.a).toNat
  { form := f, team := v % 2 ^ 16, group := v / 2 ^ 16, mask := s.me.em }

/-- The effect of an `xchg` whose own register is ready, by where the partner stands. -/
def State.xchgWith (s : State) (f : Form) : Partner → Except Halt State
  | .far => .error (placeFault (.xchg f) s.me 10 f.d.toNat)
  | .gone => .error (.trap { trapOf (.xchg f) s.me 16 (s.me.scalar f.a) with tlm := 0 })
  | .waits => .error (.held .xchg { s with me := { s.me with xw := some (s.xchgWait f) } })
  | .there h => match (s.group h).xw with
    | some w =>
      if (s.group h).status = .running && (s.group h).sched = .active && w.team = s.myTeam.index && w.group = s.me.index then
        .ok (s.swapWith f h w)
      else .error (.held .xchg { s with me := { s.me with xw := some (s.xchgWait f) } })
    | none => .error (.held .xchg { s with me := { s.me with xw := some (s.xchgWait f) } })

section
variable {f : Form} {s : State} {info : Info} (h : Clear (.xchg f) info f s)
  (file : mapPlace (s.me.entry f.d.toNat) = 0) (word : (s.me.scalar f.a).toNat < 2 ^ 21)
  (free : s.me.loading (.vec f.d.toNat) = false)
  (entry : mapQKind (s.me.entry f.d.toNat) = 1 → s.me.em ≠ 0 → s.me.lqueues.get f.d.toNat [] ≠ [])
include h file word free entry

/-- Once its own register is ready, `xchg` does what the place of its partner says. -/
theorem xchg_run : exec (.xchg f) s = run (.xchg f) s fun _ _ =>
    s.xchgWith f (s.partner ((s.me.scalar f.a).toNat % 2 ^ 16) ((s.me.scalar f.a).toNat / 2 ^ 16)) := by
  have legal : decide ((s.me.scalar f.a).toNat / 2 ^ 21 ≠ 0) = false := by simpa using word
  have group : (s.me.scalar f.a).toNat / 2 ^ 16 % 32 = (s.me.scalar f.a).toNat / 2 ^ 16 := by omega
  have notEmpty : (decide (mapQKind (s.me.entry f.d.toNat) = 1) && decide (s.me.em ≠ 0)
      && (s.me.lqueues.get f.d.toNat []).isEmpty) = false := by
    simpa [List.isEmpty_eq_false_iff] using entry
  rw [exec_xchg, execXchg, runIf_eq_run h legal]
  refine run_congr h ?_
  simp only [file, free, notEmpty, group, ne_eq, not_true_eq_false, Bool.false_eq_true, if_false, BitVec.ofNat_toNat,
    BitVec.setWidth_eq]
  cases s.partner ((s.me.scalar f.a).toNat % 2 ^ 16) ((s.me.scalar f.a).toNat / 2 ^ 16) <;> rfl

theorem xchg_swaps {g : Nat} {w : XWait}
    (there : s.partner ((s.me.scalar f.a).toNat % 2 ^ 16) ((s.me.scalar f.a).toNat / 2 ^ 16) = .there g)
    (waiting : (s.group g).xw = some w) (running : (s.group g).status = .running) (active : (s.group g).sched = .active)
    (team : w.team = s.myTeam.index) (group : w.group = s.me.index) : Completes (.xchg f) s (s.swapWith f g w) :=
  completes_of_run (xchg_run h file word free entry) h (by
    simp only [there, State.xchgWith, waiting, running, active, team, group, decide_true, Bool.and_self, if_true])

theorem xchg_far (far : s.partner ((s.me.scalar f.a).toNat % 2 ^ 16) ((s.me.scalar f.a).toNat / 2 ^ 16) = .far) :
    Traps (.xchg f) s (trapOf (.xchg f) s.me 10 (BitVec.ofNat 64 (10 * 256 + f.d.toNat))) :=
  traps_of_run (xchg_run h file word free entry) h (by simp only [far, State.xchgWith, placeFault])

theorem xchg_gone (gone : s.partner ((s.me.scalar f.a).toNat % 2 ^ 16) ((s.me.scalar f.a).toNat / 2 ^ 16) = .gone) :
    Traps (.xchg f) s { trapOf (.xchg f) s.me 16 (s.me.scalar f.a) with tlm := 0 } :=
  traps_of_run (xchg_run h file word free entry) h (by simp only [gone, State.xchgWith])

theorem xchg_waits (waits : s.partner ((s.me.scalar f.a).toNat % 2 ^ 16) ((s.me.scalar f.a).toNat / 2 ^ 16) = .waits) :
    exec (.xchg f) s = .next { s with me := ({ s.me with xw := some (s.xchgWait f) } : Group).waitOn .xchg s.time } :=
  held_of_run (s' := { s with me := { s.me with xw := some (s.xchgWait f) } }) (xchg_run h file word free entry) h (by
    simp only [waits, State.xchgWith])

end

/-! ### Culverts (03/R47, R52) -/

theorem culvertEntry_arrives {s : State} {t : Nat} {v : VReg} {rest : List (Nat × VReg)}
    (first : (s.culvert s.subject).flying = (t, v) :: rest) (due : t ≤ s.cycles (culvertEnd s.subject false)) :
    exec .culvertEntryArrival s = .next (s.modCulvert s.subject fun c =>
      { c with flying := rest, entries := if c.inGone then [] else c.entries ++ [v] }) := by
  simp only [exec_culvertEntryArrival, execCulvertEntryArrival, first, due, if_true]

theorem slotReturn_arrives {s : State} {t : Nat} {rest : List Nat} (first : (s.culvert s.subject).returns = t :: rest)
    (due : t < s.cycles (culvertEnd s.subject true)) :
    exec .slotReturn s = .next (s.modCulvert s.subject fun c => { c with returns := rest, taken := c.taken - 1 }) := by
  simp only [exec_slotReturn, execSlotReturn, first, due, if_true]

/-- Settles O31: the three outcomes of `plc`, the count of `qfree`, the four places of a partner, and the two arrivals. -/
theorem places : Obligations.Places := by
  unfold Obligations.Places
  refine ⟨fun f s info new h => ?_, fun f s info => qfree_completes, fun f s info g w h => ?_,
    fun s t v rest => culvertEntry_arrives, fun s t rest => slotReturn_arrives⟩
  · intro n old blocked target free
    have waits_iff (e : BitVec 32) : s.unitWaits s.myPart e = true ↔ blocked e := State.unitWaits_iff
    refine ⟨plc_stays h target free, fun moved hb => plc_waits h target free moved ?_,
      fun moved oldReady newReady slot => plc_moves h target free moved ?_ ?_ slot⟩
    · simpa only [waits_iff] using hb
    · simpa only [← waits_iff, Bool.not_eq_true] using oldReady
    · simpa only [← waits_iff, Bool.not_eq_true] using newReady
  · intro n v file word free entry p
    exact ⟨xchg_swaps h file word free entry, fun far => ⟨_, xchg_far h file word free entry far, rfl, rfl⟩,
      fun gone => ⟨_, xchg_gone h file word free entry gone, rfl, rfl, rfl⟩, xchg_waits h file word free entry⟩

end Sys2Proof.Machine

/-! `pgr`, `perf` and the status words (03/R55, 06/R115, 23/R356, 24/R367, R368). -/
namespace Sys2Proof.Machine
open Sys2Proof Sys2Proof.Claims

/-! ### `pgr` (03/R55, 06/R115) -/

/-! The request for an island of another partition; for one that is off; for one that is busy or has its request held; for a free one. -/

theorem State.gateRequest_other {s : State} {c : Nat} (other : corePart c ≠ s.myPart) : s.gateRequest c = (2, s) := by
  simp only [State.gateRequest, other, ne_eq, not_false_eq_true, if_true]

section
variable {s : State} {c : Nat} (own : corePart c = s.myPart)
include own

theorem State.gateRequest_off (off : (s.core c).power ∈ [Power.gating, .hold, .gated]) : s.gateRequest c = (0, s) := by
  simp only [List.mem_cons, List.not_mem_nil, or_false] at off
  rcases off with off | off | off <;> simp only [State.gateRequest, own, off, ne_eq, not_true_eq_false, if_false]

variable (powered : (s.core c).power ∉ [Power.gating, .hold, .gated])
include powered

theorem State.gateRequest_powered : s.gateRequest c =
    if (s.core c).request || !s.idle c then (1, s.modCore c fun x => { x with request := true }) else (0, s.gateIsland c) := by
  unfold State.gateRequest
  simp only [own, ne_eq, not_true_eq_false, if_false]
  cases hp : (s.core c).power with
  | gating | hold | gated => exact absurd (by simp [hp]) powered
  | on | waking => rfl

theorem State.gateRequest_held (held : (s.core c).request = true ∨ s.idle c = false) :
    s.gateRequest c = (1, s.modCore c fun x => { x with request := true }) := by
  rw [State.gateRequest_powered own powered, if_pos (by simpa using held)]

theorem State.gateRequest_free (free : ¬ ((s.core c).request = true ∨ s.idle c = false)) :
    s.gateRequest c = (0, s.gateIsland c) := by
  rw [State.gateRequest_powered own powered, if_neg (by simpa using free)]

end

section
variable {f : Form} {s : State} {info : Info} {c : Nat}

theorem pgr_answers {n : Nat} {s' : State} (h : Clear (.pgr f) info f s)
    (island : islandOf s.me.core (s.me.scalar f.a).toNat = some c) (answer : s.gateRequest c = (n, s')) :
    Completes (.pgr f) s (s'.setScalar f.d (BitVec.ofNat 64 n)) :=
  completes_of_run ((exec_pgr f s).trans (runIf_eq_run h (by simp only [island, Option.isNone_some]))) h (by
    simp only [island, answer])

theorem powerQuery_completes {i : Instr} {word : Nat → Word} (hx : exec i s = powerQuery i s word) (h : Clear i info f s)
    (island : islandOf s.me.core (s.me.scalar f.a).toNat = some c) :
    Completes i s (s.setScalar f.d (if corePart c = s.myPart then word c else 0x8000_0000_0000_0000)) :=
  completes_of_run (hx.trans (runIf_eq_run h (by simp only [island, Option.isNone_some]))) h (by simp only [island])

end

/-! ### `perf` (23/R356, 24/R367) -/

/-- The greatest value over a list that is not empty is a value, and no value exceeds it. -/
theorem foldl_max_greatest (v : Nat → Nat) {l : List Nat} (hl : l ≠ []) :
    (∃ x ∈ l, v x = l.foldl (fun n x => max n (v x)) 0) ∧ ∀ x ∈ l, v x ≤ l.foldl (fun n x => max n (v x)) 0 := by
  have top : (l.map v).max? = some (l.foldl (fun n x => max n (v x)) 0) := by
    obtain ⟨a, l, rfl⟩ := List.exists_cons_of_ne_nil hl
    rw [List.map_cons, List.max?_cons', List.foldl_map, List.foldl_cons, Nat.zero_max]
  obtain ⟨mem, bound⟩ := List.max?_eq_some_iff.1 top
  exact ⟨by simpa using mem, by simpa using bound⟩

/-- A mask that is not empty has an active lane. -/
theorem activeLanes_ne_nil {m : BitVec 32} (hm : m ≠ 0) : (List.range 32).filter (laneOn m) ≠ [] := by
  intro none
  refine hm (BitVec.eq_of_getLsbD_eq fun l hl => ?_)
  simpa [laneOn] using List.filter_eq_nil_iff.1 none l (List.mem_range.2 hl)

section
variable {f : Form} {s : State} {info : Info} (h : Clear (.perf f) info f s)
include h

theorem perf_scalar (scalar : (Spec.of f.a).isVector = false) :
    Completes (.perf f) s { s with me := { s.me with level := min (s.me.scalar f.a).toNat 7 } } :=
  completes_of_run (exec_perf f s) h (by simp only [scalar, Bool.false_eq_true, if_false])

variable (vector : (Spec.of f.a).isVector = true)
include vector

theorem perf_noLane (act : s.me.active f = 0) : Completes (.perf f) s s :=
  completes_of_run (exec_perf f s) h (by simp only [vector, act, if_true])

theorem perf_vector {s1 : State} (act : s.me.active f ≠ 0) (reads : readSources (.perf f) info f false s = .ok s1) :
    Completes (.perf f) s { s1 with me := { s1.me with level := min (((List.range 32).filter (laneOn (s.me.active f))).foldl
      (fun n l => max n ((s.source f.a .u32).lane l)) 0) 7 } } :=
  completes_of_run (exec_perf f s) h (by simp only [vector, act, reads, if_true, if_false])

end

/-- Settles O33: the four answers of `pgr`, the level of a scalar and of a vector's active lanes, and the four words. -/
theorem powerInstructions : Obligations.PowerInstructions := by
  unfold Obligations.PowerInstructions
  refine ⟨fun f s info c h island => ?_, fun f s s1 info h => ⟨perf_scalar h, perf_noLane h, fun vector act reads => ?_⟩,
    fun r hr f s info c h island => ?_⟩
  · refine ⟨fun other => ?_, fun own => ⟨fun off => ?_, fun powered held => ?_, fun powered free => ?_⟩⟩
    · exact pgr_answers h island (State.gateRequest_other other)
    · exact pgr_answers h island (State.gateRequest_off own off)
    · exact pgr_answers h island (State.gateRequest_held own powered held)
    · exact pgr_answers h island (State.gateRequest_free own powered free)
  · obtain ⟨⟨l, hl, attained⟩, bound⟩ := foldl_max_greatest (s.source f.a .u32).lane (activeLanes_ne_nil act)
    simp only [List.mem_filter, List.mem_range, and_imp] at hl bound
    obtain ⟨inRange, active⟩ := hl
    exact ⟨_, ⟨l, inRange, active, attained⟩, bound, perf_vector h vector act reads⟩
  · simp only [List.mem_cons, List.not_mem_nil, or_false] at hr
    rcases hr with rfl | rfl | rfl | rfl <;> exact powerQuery_completes rfl h island

end Sys2Proof.Machine

/-! Islands, the Weir, heat, current slew and voltages as the hardware moves them (03/R55, 23/R354-R361, 28/R415). -/
namespace Sys2Proof.Machine
open Sys2Proof Sys2Proof.Claims

/-! ### The phases of an island (03/R55, 23/R358) -/

section
variable {s : State}

theorem heldRequest_grantable (request : (s.core s.subject).request = true) (on : (s.core s.subject).power = .on)
    (idle : s.idle s.subject = true) (fresh : (s.core s.subject).grantAt = none) :
    exec .heldRequestGrant s = .next (s.modCore s.subject fun x => { x with grantAt := some (s.time + 1) }) := by
  simp only [exec_heldRequestGrant, execHeldRequestGrant, request, on, idle, fresh, ne_eq, not_true_eq_false, decide_false,
    Bool.not_true, Bool.or_self, Bool.false_eq_true, if_false]

theorem heldRequest_granted {t : Nat} (due : t ≤ s.time) (request : (s.core s.subject).request = true)
    (on : (s.core s.subject).power = .on) (idle : s.idle s.subject = true) (grant : (s.core s.subject).grantAt = some t) :
    exec .heldRequestGrant s = .next (s.gateIsland s.subject) := by
  simp only [exec_heldRequestGrant, execHeldRequestGrant, request, on, idle, grant, due, ne_eq, not_true_eq_false, decide_false,
    Bool.not_true, Bool.or_self, Bool.false_eq_true, if_false, if_true]

theorem heldRequest_busy (request : (s.core s.subject).request = true) (on : (s.core s.subject).power = .on)
    (busy : s.idle s.subject = false) :
    exec .heldRequestGrant s = .next (s.modCore s.subject fun x => { x with grantAt := none }) := by
  simp only [exec_heldRequestGrant, execHeldRequestGrant, request, on, busy, ne_eq, not_true_eq_false, decide_false,
    Bool.not_true, Bool.not_false, Bool.or_self, Bool.false_eq_true, if_false, if_true]

theorem gating_discharges (gating : (s.core s.subject).power = .gating) (noWake : (s.core s.subject).wake = false)
    (due : (s.core s.subject).since + 550 ≤ s.time) :
    exec .gatingDischarged s = .next (s.modCore s.subject fun x => { x with power := .hold }) := by
  simp only [exec_gatingDischarged, execGatingDischarged, gating, noWake, due, decide_true, Bool.not_false, Bool.and_self, if_true]

theorem gating_cancelled (gating : (s.core s.subject).power = .gating) (wake : (s.core s.subject).wake = true) :
    exec .gateCancelled s = .next (s.modCore s.subject fun x => { x with power := .on, wake := false }) := by
  simp only [exec_gateCancelled, execGateCancelled, gating, wake, decide_true, Bool.and_self, if_true]

theorem hold_ends (hold : (s.core s.subject).power = .hold) (due : (s.core s.subject).since + 2200 ≤ s.time) :
    let s1 := s.modCore s.subject fun x => { x with power := .gated }
    exec .holdEnd s = .next (if (s.core s.subject).wake then
      s1.modCluster (coreCluster s.subject) fun k => { k with queue := k.queue ++ [s.subject] } else s1) := by
  simp only [exec_holdEnd, execHoldEnd, hold, due, decide_true, Bool.and_self, if_true]

theorem inrush_starts {d : Nat} {rest : List Nat} (first : (s.cluster s.subject).queue = d :: rest)
    (free : ∀ j < 8, (s.core (8 * s.subject + j)).power ≠ .waking) :
    exec .inrushSlot s = .next ((s.modCluster s.subject fun x => { x with queue := rest }).modCore d fun x =>
      { x with power := .waking, since := s.time }) := by
  have notBusy : ((List.range 8).any fun j => (s.core (8 * s.subject + j)).power == .waking) = false := by
    simpa using free
  simp only [exec_inrushSlot, execInrushSlot, first, notBusy, Bool.false_eq_true, if_false]

theorem wake_completes (waking : (s.core s.subject).power = .waking) (due : (s.core s.subject).since + 220 ≤ s.time) :
    exec .wakeComplete s = .next (s.modCore s.subject fun x => { x with power := .on, wake := false }) := by
  simp only [exec_wakeComplete, execWakeComplete, waking, due, decide_true, Bool.and_self, if_true]

theorem slewThrottle_ends {t : Nat} (slew : (s.part s.subject).slew = some t) (due : t + 1100 ≤ s.time)
    (within : (s.part s.subject).rise ≤ (s.part s.subject).slewMax) :
    exec .slewThrottleEnd s = .next (s.modPart s.subject fun x => { x with slew := none }) := by
  simp only [exec_slewThrottleEnd, execSlewThrottleEnd, slew, usCycles, due, within, decide_true, Bool.and_self, if_true]

end

/-! ### Changes of one table in a row -/

/-- A value that one item of a list sets and the others keep. -/
theorem foldl_sets {σ α β : Type} [DecidableEq α] (get : σ → β) {upd : σ → α → σ} {a : α} {v : β}
    (same : ∀ s, get (upd s a) = v) (other : ∀ s x, x ≠ a → get (upd s x) = get s) (l : List α) :
    ∀ s, get (l.foldl upd s) = if a ∈ l then v else get s := by
  induction l with
  | nil => intro s; simp
  | cons x l ih =>
    intro s
    rw [List.foldl_cons, ih]
    by_cases hx : x = a
    · simp [hx, same]
    · simp [other s x hx, Ne.symm hx]

/-- No change of a core, a cluster or a partition is one of a group. -/
@[simp] theorem State.modCore_groups (s : State) (k : Nat) (f : Core → Core) : (s.modCore k f).groups = s.groups := rfl
@[simp] theorem State.modCluster_groups (s : State) (k : Nat) (f : Cluster → Cluster) : (s.modCluster k f).groups = s.groups := rfl
@[simp] theorem State.modPart_groups (s : State) (k : Nat) (f : Partition → Partition) : (s.modPart k f).groups = s.groups := rfl

/-! ### The Weir (23/R354) -/

/-- The state in which a control interval starts. -/
def State.weirStart (s : State) (cl used : Nat) : State :=
  let overrun := (s.cluster cl).energy < used
  (List.range 8).foldl (fun t j => t.modCore (8 * cl + j) fun x =>
    { x with ocap := if overrun then s.levelNow (8 * cl + j) - 1 else 7 })
    (s.modCluster cl fun k => { k with overrun, used := 0, weirAt := s.time })

section
variable (s : State) (cl used : Nat)

theorem weirInterval_starts (due : (s.cluster cl).weirAt + 11000 ≤ s.time) :
    exec (.weirInterval cl used) s = .next (s.weirStart cl used) := by
  simp only [exec_weirInterval, execWeirInterval, weirPeriod, Nat.not_lt.2 due, if_false, State.weirStart]

theorem State.weirStart_groups : (s.weirStart cl used).groups = s.groups :=
  (foldl_keeps _ State.groups (fun t _ => t.modCore_groups ..) _ _).trans (s.modCluster_groups ..)

theorem State.weirStart_mem : (s.weirStart cl used).mem = s.mem :=
  foldl_keeps _ State.mem (fun t _ => t.modCore_mem ..) _ _

theorem State.weirStart_cluster : (s.weirStart cl used).cluster cl =
    { s.cluster cl with overrun := (s.cluster cl).energy < used, used := 0, weirAt := s.time } :=
  (foldl_keeps _ (State.cluster · cl) (fun t _ => t.modCore_cluster ..) _ _).trans (s.modCluster_same ..)

theorem State.weirStart_ocap {j : Nat} (hj : j < 8) : ((s.weirStart cl used).core (8 * cl + j)).ocap =
    if (s.cluster cl).energy < used then s.levelNow (8 * cl + j) - 1 else 7 := by
  unfold State.weirStart
  rw [foldl_sets (fun t : State => (t.core (8 * cl + j)).ocap) (a := j) (fun t => by rw [State.modCore_same])
    (fun t k hk => by rw [State.modCore_other _ _ (by omega)]), if_pos (List.mem_range.2 hj)]

end

/-! ### Heat (23/R359, R360) -/

section
variable (s : State) (cl : Nat)

/-- An abort of the regions of a cluster changes groups alone. -/
theorem State.thermalAbort_keeps {β : Type} (get : State → β) (hget : ∀ s g f, get (State.modGroup s g f) = get s) :
    get (s.thermalAbort cl) = get s := foldl_keeps _ get (fun _ _ => hget ..) _ _

theorem State.notify_mem (p kind : Nat) (tval : Word) (r : Report) : (s.notify p kind tval r).mem = s.mem := rfl

theorem State.notify_cluster (p kind : Nat) (tval : Word) (r : Report) : (s.notify p kind tval r).cluster cl = s.cluster cl := rfl

theorem State.notify_reports (p kind : Nat) (tval : Word) (r : Report) : ((s.notify p kind tval r).part p).reports =
    (s.part p).reports ++ [{ r with tcause := BitVec.ofNat 64 kind, tval := tval }] := by
  simp only [State.notify, State.addReport, State.modPart_same]

/-- The state that a poll leaves before an abort. -/
def State.polled (s : State) (cl tclu tbase : Nat) : State :=
  let n := (s.cluster cl).nextClass tclu tbase
  let t := s.modCluster cl fun k => { k with cls := n, tclu, tbase, pollAt := s.time }
  if n = (s.cluster cl).cls then t else t.notify (corePart (8 * cl)) 0x4A (BitVec.ofNat 64 (cl + n * 2 ^ 16))

variable (tclu tbase : Nat)

theorem State.polled_mem : (s.polled cl tclu tbase).mem = s.mem := by unfold State.polled; simp only []; split <;> rfl

theorem State.polled_cluster : (s.polled cl tclu tbase).cluster cl = { s.cluster cl with
    cls := (s.cluster cl).nextClass tclu tbase, tclu, tbase, pollAt := s.time } := by
  unfold State.polled
  simp only []
  split <;> simp only [State.notify_cluster, State.modCluster_same]

theorem State.polled_reports (changed : (s.cluster cl).nextClass tclu tbase ≠ (s.cluster cl).cls) :
    ∃ r ∈ ((s.polled cl tclu tbase).part (corePart (8 * cl))).reports,
      r.tcause = 0x4A ∧ r.tval = BitVec.ofNat 64 (cl + (s.cluster cl).nextClass tclu tbase * 2 ^ 16) := by
  simp only [State.polled, if_neg changed, State.notify_reports]
  exact ⟨_, List.mem_append_right _ (List.mem_singleton_self _), rfl, rfl⟩

theorem thermalPoll_polls (due : (s.cluster cl).pollAt + 55000 ≤ s.time) : exec (.thermalPoll cl tclu tbase) s =
    .next (if (s.cluster cl).nextClass tclu tbase = 3 then (s.polled cl tclu tbase).thermalAbort cl else s.polled cl tclu tbase) := by
  simp only [exec_thermalPoll, execThermalPoll, pollPeriod, Nat.not_lt.2 due, if_false, State.polled]

/-- What no group holds is the same after a poll, whether it aborts or not. -/
theorem thermalPoll_keeps {β : Type} (get : State → β) (hget : ∀ s g f, get (State.modGroup s g f) = get s) (abort : Prop)
    [Decidable abort] : get (if abort then (s.polled cl tclu tbase).thermalAbort cl else s.polled cl tclu tbase)
      = get (s.polled cl tclu tbase) := by
  split
  · exact State.thermalAbort_keeps _ cl get hget
  · rfl

end

/-! ### Current slew and voltages (23/R361, 28/R415) -/

/-- The partitions of a terrace that a droop throttles. -/
theorem droop_throttles (ps : List Nat) (terrace p : Nat) (s : State) :
    ((((ps.filter fun q => q / 4 == terrace).foldl (fun t q => t.modPart q fun x => { x with slew := some s.time }) s).part p).slew)
      = if p ∈ ps ∧ p / 4 = terrace then some s.time else (s.part p).slew := by
  rw [foldl_sets (fun t : State => (t.part p).slew) (a := p) (fun t => by rw [State.modPart_same])
    (fun t q hq => by rw [State.modPart_other _ _ hq])]
  simp only [List.mem_filter, beq_iff_eq]

/-- The cap of a partition is lowered by each of its entries in the plan. -/
theorem replan_aged (p : Nat) (xs : List (Nat × Nat)) : ∀ s : State,
    ((xs.foldl (fun t x => t.modPart x.1 fun y => { y with aged := min y.aged x.2 }) s).part p).aged
      = (xs.filter fun x => x.1 == p).foldl (fun a x => min a x.2) (s.part p).aged := by
  induction xs with
  | nil => intro s; rfl
  | cons x xs ih =>
    intro s
    rw [List.foldl_cons, ih]
    by_cases hx : x.1 = p
    · subst hx
      rw [State.modPart_same, List.filter_cons_of_pos (by simp), List.foldl_cons]
    · rw [State.modPart_other _ _ hx, List.filter_cons_of_neg (by simpa using hx)]

/-- Settles O34: the phases of an island with their times, then what a control interval, a poll, a droop and a plan leave. -/
theorem powerHardware : Obligations.PowerHardware := by
  unfold Obligations.PowerHardware
  refine fun s => ⟨heldRequest_grantable, fun t => heldRequest_granted, heldRequest_busy, gating_discharges, gating_cancelled,
    hold_ends, fun d rest => inrush_starts, wake_completes, rfl,
    fun cl used s due => ⟨_, weirInterval_starts s cl used due, s.weirStart_groups cl used, s.weirStart_mem cl used, ?_, ?_, ?_,
      fun j hj => s.weirStart_ocap cl used hj⟩,
    fun cl tclu tbase s due => ⟨_, thermalPoll_polls s cl tclu tbase due, ?_⟩,
    fun terrace ps s => ⟨_, rfl, ?_, fun p => droop_throttles ps terrace p s⟩, fun s => rfl,
    fun s t => slewThrottle_ends, fun xs s => ⟨_, rfl, ?_, fun p => replan_aged p xs s⟩⟩
  · simp only [State.weirStart_cluster, decide_eq_true_eq]
  · rw [State.weirStart_cluster]
  · rw [State.weirStart_cluster]
  · rw [thermalPoll_keeps s cl tclu tbase State.mem State.modGroup_mem, State.polled_mem,
      thermalPoll_keeps s cl tclu tbase (State.cluster · cl) fun s g f => by
        simp only [State.cluster, State.modGroup_clusters, State.modGroup_time],
      State.polled_cluster, thermalPoll_keeps s cl tclu tbase (State.part · (corePart (8 * cl))) fun s g f => by
        simp only [State.part, State.modGroup_parts]]
    exact ⟨rfl, rfl, rfl, rfl, rfl, s.polled_reports cl tclu tbase⟩
  · exact foldl_keeps _ State.groups (fun t p => t.modPart_groups ..) _ _
  · exact foldl_keeps _ State.groups (fun t x => t.modPart_groups ..) _ _

end Sys2Proof.Machine

/-! An instruction's words as a row of fields, and what the decoder reads from them (04/R56-R68). -/
namespace Sys2Proof

/-! ### Rows of fields -/

/-- The number whose bits are a row of fields of some widths, the lowest first. -/
def packed : List Nat → List Nat → Nat
  | n :: ns, x :: xs => x + 2 ^ n * packed ns xs
  | _, _ => 0

/-- Every value fits its width. -/
inductive FieldsFit : List Nat → List Nat → Prop where
  | nil : FieldsFit [] []
  | cons {n x : Nat} {ns xs : List Nat} (field : x < 2 ^ n) (rest : FieldsFit ns xs) : FieldsFit (n :: ns) (x :: xs)

/-- The width and the value of the field that begins at bit `lo`. -/
def fieldAt : List Nat → List Nat → Nat → Option (Nat × Nat)
  | n :: _, x :: _, 0 => some (n, x)
  | n :: ns, _ :: xs, lo => if n ≤ lo then fieldAt ns xs (lo - n) else none
  | _, _, _ => none

theorem bitsAt_lowest {n x : Nat} (hx : x < 2 ^ n) (r : Nat) : bitsAt (x + 2 ^ n * r) 0 n = x := by
  rw [bitsAt, Nat.pow_zero, Nat.div_one, Nat.add_mul_mod_self_left, Nat.mod_eq_of_lt hx]

theorem bitsAt_above {m x : Nat} (hx : x < 2 ^ m) (r lo n : Nat) : bitsAt (x + 2 ^ m * r) (m + lo) n = bitsAt r lo n := by
  rw [bitsAt, Nat.pow_add, ← Nat.div_div_eq_div_mul, Nat.add_mul_div_left _ _ (Nat.two_pow_pos m), Nat.div_eq_of_lt hx, Nat.zero_add,
    bitsAt]

/-- A field is read back from the packed row. -/
theorem bitsAt_packed {ns xs : List Nat} (fit : FieldsFit ns xs) (lo n : Nat) {x : Nat} (field : fieldAt ns xs lo = some (n, x)) :
    bitsAt (packed ns xs) lo n = x := by
  induction fit generalizing lo with
  | nil => simp [fieldAt] at field
  | @cons m y ns xs hy rest ih =>
    cases lo with
    | zero =>
      obtain ⟨rfl, rfl⟩ : m = n ∧ y = x := by simpa [fieldAt] using field
      exact bitsAt_lowest hy _
    | succ lo =>
      obtain ⟨le, field⟩ : m ≤ lo + 1 ∧ fieldAt ns xs (lo + 1 - m) = some (n, x) := by simpa [fieldAt] using field
      obtain ⟨lo', start⟩ := Nat.exists_eq_add_of_le le
      rw [start, Nat.add_sub_cancel_left] at field
      rw [start, packed, bitsAt_above hy, ih lo' field]

/-! ### The fields that NX and the immediates share (04/R60-R63, R67) -/

@[simp] theorem Len.ofCode_code (l : Len) : Len.ofCode l.code = l := by cases l <;> rfl

theorem Len.code_lt (l : Len) : l.code < 2 ^ 2 := by cases l <;> decide

theorem Nx.code_lt (x : Nx) : x.code < 2 ^ 3 := by cases x <;> simp [Nx.code]

/-- The widths of a condition block's fields: join, target, CP, NEG. -/
def condWidths : List Nat := [30, 30, 3, 1]

section
variable (neg : Bool) (cp : BitVec 3) (target join : BitVec 30)

theorem condBlock_packed : condBlock neg cp target join =
    packed condWidths [join.toNat, target.toNat, cp.toNat, neg.toNat] := by
  simp only [condBlock, condWidths, packed]; omega

theorem condBlock_fit : FieldsFit condWidths [join.toNat, target.toNat, cp.toNat, neg.toNat] :=
  .cons join.isLt <| .cons target.isLt <| .cons cp.isLt <| .cons neg.toNat_lt .nil

theorem condBlock_lt : condBlock neg cp target join < 2 ^ 64 := by
  have := join.isLt
  have := target.isLt
  have := cp.isLt
  have := neg.toNat_lt
  simp only [condBlock]; omega

/-- The block is read back. -/
theorem nextOf_condBlock {len : Len} (hl : len = .lit ∨ len = .extLit) (i22 : Nat) :
    nextOf len 3 i22 (condBlock neg cp target join) = some (.cond neg cp target join) := by
  have read := bitsAt_packed (condBlock_fit neg cp target join)
  have len : (len == .lit || len == .extLit) = true := by simpa using hl
  simp only [nextOf, len, if_true, condBlock_packed, read 0 30 rfl, read 30 30 rfl, read 60 3 rfl,
    read 63 1 rfl, BitVec.ofNat_toNat, BitVec.setWidth_eq]
  cases neg <;> rfl

end

/-- The low 22 bits decide the extended value. -/
theorem sext22_mod (x : Nat) : sext22 (x % 2 ^ 22) = sext22 x :=
  congrArg (BitVec.signExtend 64) (BitVec.eq_of_toNat_eq (by simp only [BitVec.toNat_ofNat, Nat.mod_mod]))

theorem sext22_of_fits {x : Word} (h : fits22 x = true) : sext22 (x.toNat % 2 ^ 22) = x := by
  rw [sext22_mod]; exact (beq_iff_eq.1 h).symm

/-- The immediate of 22 bits fits its two fields. -/
theorem Form.imm22_lt (f : Form) : f.imm22 < 2 ^ 22 := by
  unfold Form.imm22
  split
  case h_7 => exact f.imm2.isLt -- the IMM22 beside a literal operand
  case h_8 => exact Nat.two_pow_pos 22 -- a form without IMM22
  all_goals exact Nat.mod_lt _ (Nat.two_pow_pos 22)

theorem Form.literal_lt (f : Form) : f.literal < 2 ^ 64 := by
  unfold Form.literal
  split
  case h_3 | h_4 => exact condBlock_lt .. -- a condition block
  case h_7 => exact Nat.two_pow_pos 64 -- a form without a literal
  all_goals exact BitVec.isLt _

/-- The clause fits its LEN, but for a literal target beyond 52 bits, which `trap` admits (10/R159). -/
def Form.NextFits (f : Form) : Prop := f.nextOk = true ∨ f.len = .lit ∧ ∃ off, f.nx = .jump off ∨ f.nx = .call off

theorem targetOf_lit (off : Word) (i22 : Nat) : targetOf .lit i22 off.toNat = some off := by
  simp only [targetOf, BitVec.ofNat_toNat, BitVec.setWidth_eq]

theorem targetOf_ext {len : Len} {off : Word} (hl : len = .ext ∨ len = .extLit)
    (h : (off == sext22 (off.toNat / 4) * 4) = true) (lit : Nat) : targetOf len (off.toNat / 4 % 2 ^ 22) lit = some off := by
  rcases hl with rfl | rfl <;> exact congrArg some ((congrArg (· * 4) (sext22_mod _)).trans (beq_iff_eq.1 h).symm)

theorem Form.targetOf_fits {f : Form} {off : Word} (hx : f.nx = .jump off ∨ f.nx = .call off) (h : f.NextFits) :
    targetOf f.len f.imm22 f.literal = some off := by
  obtain ⟨len, nx, pred, fn, d, a, b, c, ty, ord, scope, kc, plc, imm, imm2⟩ := f
  unfold Form.NextFits at h
  rcases hx with rfl | rfl
  all_goals cases len with
  | base => simp [Form.nextOk] at h
  | lit => exact targetOf_lit off 0
  | ext => exact targetOf_ext (.inl rfl) (by simpa [Form.nextOk] using h) 0
  | extLit => exact targetOf_ext (.inr rfl) (by simpa [Form.nextOk] using h) imm.toNat

/-- The decoder reads the clause back. -/
theorem Form.nextOf_fits {f : Form} (h : f.NextFits) : nextOf f.len f.nx.code f.imm22 f.literal = some f.nx := by
  cases hx : f.nx with
  | seq | loop | ret | exit | yield => rfl
  | jump off => exact congrArg (Option.map Nx.jump) (Form.targetOf_fits (.inl hx) h)
  | call off => exact congrArg (Option.map Nx.call) (Form.targetOf_fits (.inr hx) h)
  | cond neg cp target join =>
    unfold Form.NextFits at h
    cases hl : f.len with
    | base | ext => simp [Form.nextOk, hx, hl] at h
    | lit | extLit =>
      have block : f.literal = condBlock neg cp target join := by simp only [Form.literal, hx, hl]
      rw [block]
      exact nextOf_condBlock neg cp target join (by simp) f.imm22

/-- The decoder reads the immediate back. -/
theorem Form.immOf_placed {f : Form} (h : f.immPlaced = true) : immOf f.len f.nx.code f.imm22 f.literal = f.imm := by
  obtain ⟨len, nx, pred, fn, d, a, b, c, ty, ord, scope, kc, plc, imm, imm2⟩ := f
  have zero : (imm == 0 && imm2 == 0) = true → 0 = imm := fun h => (beq_iff_eq.1 (Bool.and_eq_true_iff.1 h).1).symm
  have short : (fits22 imm && imm2 == 0) = true → sext22 (imm.toNat % 2 ^ 22) = imm := fun h =>
    sext22_of_fits (Bool.and_eq_true_iff.1 h).1
  have whole : BitVec.ofNat 64 imm.toNat = imm := by rw [BitVec.ofNat_toNat, BitVec.setWidth_eq]
  cases len with
  | base => exact zero h
  | ext => cases nx with
    | jump | call => exact zero h
    | _ => exact short h
  | lit => cases nx with
    | jump | call | cond => exact zero h
    | _ => exact whole
  | extLit => cases nx with
    | cond => exact short h
    | _ => exact whole

theorem Form.imm2Of_placed {f : Form} (h : f.immPlaced = true) : imm2Of f.len f.nx.code f.imm22 = f.imm2 := by
  obtain ⟨len, nx, pred, fn, d, a, b, c, ty, ord, scope, kc, plc, imm, imm2⟩ := f
  have zero {x : Bool} : (x && imm2 == 0) = true → 0 = imm2 := fun h => (beq_iff_eq.1 (Bool.and_eq_true_iff.1 h).2).symm
  have whole : BitVec.ofNat 22 imm2.toNat = imm2 := by rw [BitVec.ofNat_toNat, BitVec.setWidth_eq]
  cases len with
  | base => exact zero h
  | ext => cases nx <;> exact zero h
  | lit => cases nx with
    | jump | call | cond => exact zero h
    | _ => exact (beq_iff_eq.1 h).symm
  | extLit => cases nx with
    | jump | call => exact (beq_iff_eq.1 h).symm
    | cond => exact zero h
    | _ => exact whole

/-- The decoder reads the governing predicate back from its five bits. -/
theorem Form.predOf_predBits {f : Form} {w : Nat} (h : bitsAt w 27 5 = f.predBits) : predOf w = some f.pred := by
  have pen : bitsAt w 31 1 = bitsAt w 27 5 / 16 := by simp only [bitsAt]; omega
  have neg : bitsAt w 30 1 = bitsAt w 27 5 / 8 % 2 := by simp only [bitsAt]; omega
  have low : bitsAt w 27 4 = bitsAt w 27 5 % 16 := by simp only [bitsAt]; omega
  have pn : bitsAt w 27 3 = bitsAt w 27 5 % 8 := by simp only [bitsAt]; omega
  rw [predOf, pen, neg, low, pn, h, Form.predBits]
  cases f.pred with
  | none => rfl
  | some p =>
    have hk := p.pn.isLt
    have hn := p.neg.toNat_lt
    have penVal : (p.pn.toNat + p.neg.toNat * 8 + 16) / 16 = 1 := by omega
    have negVal : (p.pn.toNat + p.neg.toNat * 8 + 16) / 8 % 2 = p.neg.toNat := by omega
    have pnVal : (p.pn.toNat + p.neg.toNat * 8 + 16) % 8 = p.pn.toNat := by omega
    simp only [penVal, negVal, pnVal, BitVec.ofNat_toNat, BitVec.setWidth_eq, beq_self_eq_true, if_true]
    cases hp : p.neg <;> exact congrArg (some <| some <| Pred.mk · p.pn) hp.symm

theorem Form.predBits_lt (f : Form) : f.predBits < 2 ^ 5 := by
  unfold Form.predBits
  cases f.pred with
  | none => decide
  | some p => have := p.pn.isLt; have := p.neg.toNat_lt; simp only; omega

/-! ### Extended forms (04/R60) -/

/-- The widths of an extended form's fields: LEN, NX, OP, IMM22 from its bit 16 on, ORD, FN, the predicate, D, A, B, C, TYPE, SCOPE,
KC, PLC, IMM22 below, the literal. -/
def extWidths : List Nat := [2, 3, 8, 6, 2, 6, 5, 8, 8, 8, 8, 6, 3, 4, 3, 16, 64]

/-- Their values. -/
def Form.extValues (info : Info) (f : Form) : List Nat :=
  [f.len.code, f.nx.code, info.op, f.imm22 / 2 ^ 16, f.ord.toNat, f.fn.toNat, f.predBits, f.d.toNat, f.a.toNat, f.b.toNat,
    f.c.toNat, f.ty.toNat, f.scope.toNat, f.kc.toNat, f.plc.toNat, f.imm22 % 2 ^ 16, f.literal]

section
variable {info : Info} {f : Form}

theorem Form.encode_ext (hx : f.isExt = true) : f.encode info = packed extWidths (f.extValues info) := by
  simp only [Form.encode, hx, if_true, Form.extValues, extWidths, packed]; omega

theorem Form.ext_fit (hop : info.op < 2 ^ 8) : FieldsFit extWidths (f.extValues info) :=
  .cons f.len.code_lt <| .cons f.nx.code_lt <| .cons hop <| .cons (Nat.div_lt_of_lt_mul f.imm22_lt) <| .cons f.ord.isLt <|
    .cons f.fn.isLt <| .cons f.predBits_lt <| .cons f.d.isLt <| .cons f.a.isLt <| .cons f.b.isLt <| .cons f.c.isLt <|
    .cons f.ty.isLt <| .cons f.scope.isLt <| .cons f.kc.isLt <| .cons f.plc.isLt <| .cons (Nat.mod_lt _ (by decide)) <|
    .cons f.literal_lt .nil

theorem Form.lenOp_ext (hop : info.op < 2 ^ 8) (hx : f.isExt = true) :
    Len.ofCode (bitsAt (f.encode info) 0 2) = f.len ∧ bitsAt (f.encode info) 5 8 = info.op := by
  rw [Form.encode_ext hx]
  have read := bitsAt_packed (Form.ext_fit (f := f) hop)
  exact ⟨(congrArg Len.ofCode (read 0 2 rfl)).trans f.len.ofCode_code, read 5 8 rfl⟩

/-- The decoder reads an extended form back from its words. -/
theorem Form.extForm_encode (hop : info.op < 2 ^ 8) (hx : f.isExt = true) (hn : f.NextFits) (hi : f.immPlaced = true) :
    extForm f.len (f.encode info) = .ok f := by
  rw [Form.encode_ext hx]
  have read := bitsAt_packed (Form.ext_fit (f := f) hop)
  have pred := Form.predOf_predBits (f := f) (read 27 5 rfl)
  have i22 : f.imm22 % 2 ^ 16 + f.imm22 / 2 ^ 16 * 2 ^ 16 = f.imm22 := Nat.mod_add_div' ..
  simp only [extForm, read 2 3 rfl, read 13 6 rfl, read 19 2 rfl, read 21 6 rfl, read 32 8 rfl, read 40 8 rfl, read 48 8 rfl,
    read 56 8 rfl, read 64 6 rfl, read 70 3 rfl, read 73 4 rfl, read 77 3 rfl, read 80 16 rfl, read 96 64 rfl, pred, i22,
    Form.nextOf_fits hn, Form.immOf_placed hi, Form.imm2Of_placed hi, BitVec.ofNat_toNat, BitVec.setWidth_eq]

end

/-! ### Base forms and their short specifiers (04/R57-R59) -/

section
variable {index : Bool} {y : BitVec 8} {x : Nat}

/-- A specifier by its number. -/
theorem some_ofNat_toNat {n : Nat} (h : n = y.toNat) : some (BitVec.ofNat 8 n) = some y := by
  rw [h, BitVec.ofNat_toNat, BitVec.setWidth_eq]

/-- A 7-bit field expands to the specifier that it was made from. -/
theorem expandD_shortD (h : shortD index y = some x) : x < 2 ^ 7 ∧ expandD index x = some y := by
  have hy := y.isLt
  cases index with
  | true =>
    obtain ⟨hx, rfl⟩ : y.toNat < 0x80 ∧ y.toNat = x := by simpa [shortD] using h
    exact ⟨hx, some_ofNat_toNat rfl⟩
  | false =>
    simp only [shortD, expandD, Bool.false_eq_true, if_false, Bool.false_or, decide_eq_true_eq, Bool.and_eq_true] at h ⊢
    split at h
    · obtain rfl := Option.some.inj h
      rw [if_pos (by omega)]
      exact ⟨by omega, some_ofNat_toNat rfl⟩
    split at h
    · obtain rfl := Option.some.inj h
      rw [if_neg (by omega), if_pos (by omega)]
      exact ⟨by omega, some_ofNat_toNat (by omega)⟩
    split at h
    · obtain rfl := Option.some.inj h
      rw [if_neg (by omega), if_neg (by omega), if_neg (by omega)]
      exact ⟨by omega, some_ofNat_toNat (by omega)⟩
    cases h

/-- A 6-bit field expands to the specifier that it was made from. -/
theorem expandS_shortS (h : shortS index y = some x) : x < 2 ^ 6 ∧ expandS index x = some y := by
  have hy := y.isLt
  cases index with
  | true =>
    obtain ⟨hx, rfl⟩ : y.toNat < 0x40 ∧ y.toNat = x := by simpa [shortS] using h
    exact ⟨hx, some_ofNat_toNat rfl⟩
  | false =>
    simp only [shortS, expandS, Bool.false_eq_true, if_false, Bool.false_or, decide_eq_true_eq, Bool.and_eq_true] at h ⊢
    split at h
    · obtain rfl := Option.some.inj h
      rw [if_pos (by omega)]
      exact ⟨by omega, some_ofNat_toNat rfl⟩
    split at h
    · obtain rfl := Option.some.inj h
      rw [if_neg (by omega), if_pos (by omega)]
      exact ⟨by omega, some_ofNat_toNat (by omega)⟩
    split at h
    · obtain rfl := Option.some.inj h
      rw [if_neg (by omega), if_neg (by omega), if_pos (by omega)]
      exact ⟨by omega, some_ofNat_toNat (by omega)⟩
    split at h
    · obtain rfl := Option.some.inj h
      rw [if_neg (by omega), if_neg (by omega), if_neg (by omega), if_pos (by omega)]
      exact ⟨by omega, some_ofNat_toNat (by omega)⟩
    split at h
    · obtain rfl := Option.some.inj h
      rw [if_neg (by omega), if_neg (by omega), if_neg (by omega), if_neg (by omega), if_neg (by omega)]
      exact ⟨by omega, some_ofNat_toNat (by omega)⟩
    cases h

end

/-- The widths of a base form's fields: LEN, NX, OP, the short D, A and B, the literal. -/
def shortWidths : List Nat := [2, 3, 8, 7, 6, 6, 64]

/-- Their values, of the three short fields given. -/
def Form.shortValues (info : Info) (f : Form) (d a b : Nat) : List Nat :=
  [f.len.code, f.nx.code, info.op, d, a, b, f.literal]

/-- A form that short words hold: no extended field, and the three short fields that stand for its specifiers. -/
structure Form.Short (info : Info) (f : Form) (d a b : Nat) : Prop where
  rest : { f with pred := none, fn := 0, c := 0, ty := 0, ord := 0, scope := 0, kc := 0, plc := 0, imm2 := 0 } = f
  d : shortD info.d.isIndex f.d = some d
  a : shortS info.a.isIndex f.a = some a
  b : shortS info.b.isIndex f.b = some b

section
variable {info : Info} {f : Form}

theorem Form.isExt_false (hx : f.isExt = false) : f.len = .base ∨ f.len = .lit := by
  cases hl : f.len <;> simp [Form.isExt, hl] at hx ⊢

theorem Form.short_of_shortOk (hx : f.isExt = false) (h : f.shortOk info = true) (hi : f.immPlaced = true) :
    ∃ d a b, f.Short info d a b := by
  have imm2 : 0 = f.imm2 := by
    rw [← Form.imm2Of_placed hi]
    rcases Form.isExt_false hx with hl | hl <;> rw [hl] <;> rfl
  simp only [Form.shortOk, hx, Bool.false_or, Bool.and_eq_true, beq_iff_eq, Option.isNone_iff_eq_none,
    Option.isSome_iff_exists] at h
  obtain ⟨⟨⟨⟨⟨⟨⟨⟨⟨⟨pred, fn⟩, c⟩, ty⟩, ord⟩, scope⟩, kc⟩, plc⟩, d, hd⟩, a, ha⟩, b, hb⟩ := h
  refine ⟨d, a, b, ?_, hd, ha, hb⟩
  rw [imm2]
  cases f
  simp_all only

variable {d a b : Nat} (hs : f.Short info d a b) (hx : f.isExt = false)
include hs hx

theorem Form.encode_short : f.encode info = packed shortWidths (f.shortValues info d a b) := by
  simp only [Form.encode, hx, hs.d, hs.a, hs.b, Option.getD_some, Bool.false_eq_true, if_false, Form.shortValues, shortWidths,
    packed]
  omega

omit hx in
theorem Form.short_fit (hop : info.op < 2 ^ 8) : FieldsFit shortWidths (f.shortValues info d a b) :=
  .cons f.len.code_lt <| .cons f.nx.code_lt <| .cons hop <| .cons (expandD_shortD hs.d).1 <| .cons (expandS_shortS hs.a).1 <|
    .cons (expandS_shortS hs.b).1 <| .cons f.literal_lt .nil

omit hs in
theorem Form.imm22_short : f.imm22 = 0 := by
  rcases Form.isExt_false hx with hl | hl <;> simp only [Form.imm22, hl]

theorem Form.lenOp_short (hop : info.op < 2 ^ 8) :
    Len.ofCode (bitsAt (f.encode info) 0 2) = f.len ∧ bitsAt (f.encode info) 5 8 = info.op := by
  rw [Form.encode_short hs hx]
  have read := bitsAt_packed (Form.short_fit hs hop)
  exact ⟨(congrArg Len.ofCode (read 0 2 rfl)).trans f.len.ofCode_code, read 5 8 rfl⟩

/-- The immediate by which the decoder chooses the row of a base form. -/
theorem Form.immOf_encode (hop : info.op < 2 ^ 8) (hi : f.immPlaced = true) :
    immOf f.len (bitsAt (f.encode info) 2 3) 0 (bitsAt (f.encode info) 32 64) = f.imm := by
  rw [Form.encode_short hs hx]
  have read := bitsAt_packed (Form.short_fit hs hop)
  have imm := Form.immOf_placed hi
  rw [Form.imm22_short hx] at imm
  rw [read 2 3 rfl, read 32 64 rfl, imm]

/-- The decoder reads a base form back from its words. -/
theorem Form.shortForm_encode (hop : info.op < 2 ^ 8) (hn : f.NextFits) (hi : f.immPlaced = true) :
    shortForm info f.len (f.encode info) = .ok f := by
  rw [Form.encode_short hs hx]
  have read := bitsAt_packed (Form.short_fit hs hop)
  have next := Form.nextOf_fits hn
  have imm := Form.immOf_placed hi
  rw [Form.imm22_short hx] at next imm
  simp only [shortForm, read 2 3 rfl, read 13 7 rfl, read 20 6 rfl, read 26 6 rfl,
    read 32 64 rfl, next, imm, (expandD_shortD hs.d).2, (expandS_shortS hs.a).2, (expandS_shortS hs.b).2,
    hs.rest]

end

/-! ### The rows of the opcode map (05/R79, R81) -/

/-- A row's opcode has 8 bits and is not reserved. -/
theorem Instr.row_op {i : Instr} {info : Info} {f : Form} (h : i.row = some (info, f)) :
    info.op < 2 ^ 8 ∧ reservedOp info.op = false := by
  cases i
  all_goals cases h
  all_goals exact ⟨by decide, rfl⟩

/-! ### The rows of opcode `0xEF`, which the register number and the command code choose (10/R166-R172) -/

/-- The constructors of the commands, by their codes from 1 on (10/R172). -/
def commands : List (Form → Instr) := [.preemptLight, .preemptFull, .restore, .resume, .resumet, .endteam, .cancel]

theorem ctorOf_sysRead (a : BitVec 8) (imm : Word) :
    ctorOf 0xEF 0 a imm = some (if imm = 0x12 then .trmarkRead else .srr) := rfl

theorem ctorOf_sysWrite (a : BitVec 8) (imm : Word) : ctorOf 0xEF 1 a imm =
    if imm = 0x10 || imm = 0x11 then some .trapRingSet
    else if imm = 0x13 then some .trtailWrite
    else if 0x20 ≤ imm.toNat && imm.toNat ≤ 0x23 then some .sysregWrite
    else if a.toNat < 0xF1 then some .srw
    else some (commands.getD (a.toNat - 0xF1) .srw) := rfl

theorem ctorOf_srr {imm : Word} (a : BitVec 8) (h : imm ≠ 0x12) : ctorOf 0xEF 0 a imm = some .srr := by
  rw [ctorOf_sysRead, if_neg h]

theorem ctorOf_trapRing {imm : Word} (a : BitVec 8) (h : imm = 0x10 ∨ imm = 0x11) : ctorOf 0xEF 1 a imm = some .trapRingSet := by
  rw [ctorOf_sysWrite, if_pos (by simpa using h)]

theorem ctorOf_sysreg {imm : Word} (a : BitVec 8) (h : 0x20 ≤ imm.toNat ∧ imm.toNat ≤ 0x23) :
    ctorOf 0xEF 1 a imm = some .sysregWrite := by
  have ring : ¬ (imm = 0x10 ∨ imm = 0x11) := by rintro (rfl | rfl) <;> simp at h
  have tail : imm ≠ 0x13 := by rintro rfl; simp at h
  rw [ctorOf_sysWrite, if_neg (by simpa using ring), if_neg tail, if_pos (by simpa using h)]

/-- A write of the command register (10/R167). -/
theorem ctorOf_commandRegister (a : BitVec 8) : ctorOf 0xEF 1 a 0x24 =
    if a.toNat < 0xF1 then some .srw else some (commands.getD (a.toNat - 0xF1) .srw) := rfl

theorem ctorOf_srw {a : BitVec 8} (h : a.toNat < 0xF1 ∨ 0xF7 < a.toNat) : ctorOf 0xEF 1 a 0x24 = some .srw := by
  rw [ctorOf_commandRegister]
  split
  · rfl
  · have none : commands[a.toNat - 0xF1]? = none :=
      List.getElem?_eq_none (by simp only [commands, List.length_cons, List.length_nil]; omega)
    rw [List.getD_eq_getElem?_getD, none, Option.getD_none]

theorem ctorOf_command {a : BitVec 8} {k : Nat} (h : a.toNat = 0xF0 + (k + 1)) :
    ctorOf 0xEF 1 a 0x24 = some (commands.getD k .srw) := by
  have code : a.toNat - 0xF1 = k := by omega
  rw [ctorOf_commandRegister, if_neg (by omega), code]

/-! ### The constructor of an instruction's opcode and sub-function -/

/-- The constructor that the decoder finds makes the instruction from its form, and has its row whatever the form. The field A
chooses among the commands alone. -/
theorem ctorOf_row {i : Instr} {info : Info} {f : Form} (h : i.row = some (info, f)) (low : info.fn ≤ f.fn.toNat)
    (high : f.fn.toNat ≤ info.fnLast) (more : info.more f = true) {a : BitVec 8} (ha : a = f.a ∨ f.fn.toNat = 0) :
    ∃ c, ctorOf info.op f.fn.toNat a f.imm = some c ∧ c f = i ∧ ∀ g, (c g).row = some (info, g) := by
  generalize f.fn.toNat = n at *
  cases i
  all_goals cases h
  case cmp | vcmpInt | vcmppInt | vcmpFp | vcmppFp | vcvt => exact ⟨_, if_pos high, rfl, fun _ => rfl⟩
  all_goals obtain rfl := Nat.le_antisymm high low
  case srr => exact ⟨_, ctorOf_srr a (by rintro e; simp [Opcode.srrMore, e] at more), rfl, fun _ => rfl⟩
  case trmarkRead => exact ⟨_, by rw [ctorOf_sysRead, if_pos (beq_iff_eq.1 more)], rfl, fun _ => rfl⟩
  case trapRingSet => exact ⟨_, ctorOf_trapRing a (by simpa using more), rfl, fun _ => rfl⟩
  case trtailWrite => exact ⟨_, by rw [beq_iff_eq.1 more]; rfl, rfl, fun _ => rfl⟩
  case sysregWrite => exact ⟨_, ctorOf_sysreg a (by simpa [Opcode.sysregMore] using more), rfl, fun _ => rfl⟩
  case srw =>
    obtain ⟨imm, code⟩ : f.imm = 0x24 ∧ (f.a.toNat < 0xF1 ∨ 0xF7 < f.a.toNat) := by simpa [Opcode.srwMore] using more
    obtain rfl : a = f.a := ha.resolve_right (by decide)
    exact ⟨_, by rw [imm]; exact ctorOf_srw code, rfl, fun _ => rfl⟩
  case preemptLight | preemptFull | restore | resume | resumet | endteam | cancel =>
    obtain ⟨imm, code⟩ := Bool.and_eq_true_iff.1 more
    obtain rfl : a = f.a := ha.resolve_right (by decide)
    exact ⟨_, by rw [beq_iff_eq.1 imm]; exact ctorOf_command (beq_iff_eq.1 code), rfl, fun _ => rfl⟩
  all_goals exact ⟨_, rfl, rfl, fun _ => rfl⟩

/-! ### What a legal instruction's fields are -/

/-- What the check of a form makes sure of that its words and the choice of its row rest on. -/
structure Form.Encodable (info : Info) (f : Form) : Prop where
  low : info.fn ≤ f.fn.toNat
  high : f.fn.toNat ≤ info.fnLast
  next : f.NextFits
  more : info.more f = true
  imm : f.immPlaced = true
  short : f.shortOk info = true

theorem ite_some_eq_none {α : Type} {p : Prop} [Decidable p] {r : α} {o : Option α} :
    (if p then some r else o) = none ↔ ¬ p ∧ o = none := by split <;> simp_all

theorem Form.encodable_of_check {info : Info} {anyNext : Bool} {f : Form} (h : f.check info anyNext = none) :
    f.Encodable info := by
  simp only [Form.check, ite_some_eq_none] at h
  obtain ⟨fn, -, -, -, -, -, -, -, next, entry, placed, -⟩ := h
  simp only [Bool.not_eq_true', Bool.not_eq_false, Bool.and_eq_true, Bool.or_eq_true, decide_eq_true_eq, not_or, Nat.not_lt,
    beq_iff_eq] at fn next entry placed
  refine ⟨fn.1, fn.2, ?_, entry.2, placed.1, placed.2⟩
  rcases next with ok | ⟨⟨-, lit⟩, target⟩
  · exact .inl ok
  · refine .inr ⟨lit, ?_⟩
    cases hx : f.nx with
    | jump off => exact ⟨off, .inl rfl⟩
    | call off => exact ⟨off, .inr rfl⟩
    | _ => simp [hx] at target

section
variable {i : Instr} {info : Info} {f : Form} (h : i.row = some (info, f))
include h

theorem encode_of_row : encode i = f.encode info := by
  unfold encode
  split
  · cases h
  · rw [h]

theorem check_of_row : i.check = f.check info (info.op == 0xE8) := by
  unfold Instr.check
  split
  · cases h
  · rw [h]

end

theorem encodable_of_wellFormed {i : Instr} {info : Info} {f : Form} (h : i.row = some (info, f)) (hw : i.wellFormed = true) :
    f.Encodable info :=
  Form.encodable_of_check ((check_of_row h).symm.trans (Option.isNone_iff_eq_none.1 hw))

theorem checked_wellFormed {i : Instr} (h : i.wellFormed = true) : checked i = .ok i := by
  rw [checked, Option.isNone_iff_eq_none.1 h]

/-! ### The decoder by the shape of the words -/

section
variable {w : Nat} {len : Len} {info : Info} {f : Form} {c : Form → Instr} (hl : Len.ofCode (bitsAt w 0 2) = len)
  (hop : reservedOp (bitsAt w 5 8) = false)
include hl hop

theorem decodeBits_ext (hx : len = .ext ∨ len = .extLit) (hf : extForm len w = .ok f)
    (hc : ctorOf (bitsAt w 5 8) f.fn.toNat f.a f.imm = some c) : decodeBits w = checked (c f) := by
  rcases hx with rfl | rfl <;> simp only [decodeBits, hl, hop, hf, hc, Bool.false_eq_true, if_false]

theorem decodeBits_short (hx : len = .base ∨ len = .lit)
    (hc : ctorOf (bitsAt w 5 8) 0 0 (immOf len (bitsAt w 2 3) 0 (bitsAt w 32 64)) = some c)
    (hr : (c .blank).row = some (info, .blank)) (hf : shortForm info len w = .ok f) : decodeBits w = checked (c f) := by
  rcases hx with rfl | rfl <;> simp only [decodeBits, hl, hop, hf, hc, hr, Bool.false_eq_true, if_false]

end

theorem decodeBits_reserved {w : BitVec 32} (h : (Instr.reservedOpcode w).wellFormed = true) :
    decodeBits w.toNat = .ok (.reservedOpcode w) := by
  have hop : reservedOp (bitsAt w.toNat 5 8) = true := by
    simpa [Instr.wellFormed, Instr.check, bitsAt] using h
  simp only [decodeBits, hop, if_true, BitVec.ofNat_toNat, BitVec.setWidth_eq]

/-- An instruction of the rows is read from its own words. -/
theorem decodeBits_encode {i : Instr} {info : Info} {f : Form} (h : i.row = some (info, f)) (hw : i.wellFormed = true) :
    decodeBits (f.encode info) = .ok i := by
  obtain ⟨hop, notReserved⟩ := Instr.row_op h
  obtain ⟨low, high, next, more, imm, short⟩ := encodable_of_wellFormed h hw
  cases hx : f.isExt with
  | true =>
    obtain ⟨c, hc, rfl, -⟩ := ctorOf_row h low high more (.inl rfl)
    obtain ⟨hl, ho⟩ := Form.lenOp_ext (info := info) hop hx
    rw [← checked_wellFormed hw]
    exact decodeBits_ext hl (ho ▸ notReserved) (by simpa [Form.isExt] using hx) (Form.extForm_encode hop hx next imm) (ho ▸ hc)
  | false =>
    obtain ⟨d, a, b, hs⟩ := Form.short_of_shortOk hx short imm
    have fn : f.fn = 0 := by rw [← hs.rest]
    obtain ⟨c, hc, rfl, row⟩ := ctorOf_row h low high more (a := 0) (.inr (by rw [fn]; rfl))
    obtain ⟨hl, ho⟩ := Form.lenOp_short hs hx hop
    rw [← checked_wellFormed hw]
    refine decodeBits_short hl (ho ▸ notReserved) (Form.isExt_false hx) ?_ (row .blank) (Form.shortForm_encode hs hx hop next imm)
    rw [Form.immOf_encode hs hx hop imm, ho]
    simpa [fn] using hc

/-- Settles O57: the words of a form are a row of fields, which the decoder reads back one by one; a reserved opcode's word is kept
as it is. -/
theorem decodeEncode : Obligations.DecodeEncode := by
  unfold Obligations.DecodeEncode
  rintro i hw (row | ⟨w, rfl⟩)
  · obtain ⟨⟨info, f⟩, h⟩ := Option.isSome_iff_exists.1 row
    rw [encode_of_row h]
    exact decodeBits_encode h hw
  · exact decodeBits_reserved hw

/-- Settles O56: the decoder evaluates to what each word stands for. -/
theorem decodeWords : Obligations.DecodeWords := by
  unfold Obligations.DecodeWords
  exact ⟨rfl, rfl, rfl, rfl, rfl, rfl, rfl, rfl, rfl, rfl, rfl, rfl⟩

end Sys2Proof

/-! A step that issues runs the instruction decoded from the fetched words (04/R56, R68, log 2). -/
namespace Sys2Proof.Machine
open Sys2Proof

section
variable {s s1 t : State} {g w : Nat} {port : Option Nat} {i : Instr}

/-- A group that stands at no join and has nothing uncommitted runs what its words decode to. -/
theorem State.issue_decoded (win : s.me.win = []) (join : s.me.join = none) (fetch : s.fetch = .word w s1)
    (decode : decodeBits w = .ok i) : s.issue false = exec i s1 := by
  simp only [State.issue, win, join, fetch, decode, List.isEmpty_nil, Bool.not_true, Option.isSome_none, Bool.false_and,
    Bool.false_eq_true, if_false]

/-- The issue of a group in its turn notes its port. -/
theorem State.issueOf_next (noGang : s.gangFirst g port false = false) (issue : (s.turn g).issue false = .next t) :
    s.issueOf g port false = .next (s.noteIssue t g port) := by
  simp only [State.issueOf, noGang, issue, Bool.false_eq_true, if_false]

/-- The agenda lets a group run: no older commit comes noGang, and it is its core's next issuer. -/
theorem State.runNext_issuer (noCommit : s.committer (· == (s.group g).core) = none)
    (issuer : s.issuerOn (· == (s.group g).core) = some (g, port)) : s.runNext g = s.issueOf g port false := by
  simp only [State.runNext, noCommit, issuer, if_true]

/-- The default schedule comes to the next issuer: nothing is due or judged, the cycle is open, nothing commits noGang. -/
theorem State.freeRun_issuer (due : s.dueStep = none) (judge : s.judgeStep = none) (opened : s.closed = false)
    (noCommit : (s.committer fun _ => true) = none) (issuer : s.issuer = some (g, port)) :
    s.freeRun = s.issueOf g port false := by
  simp only [State.freeRun, due, judge, opened, noCommit, issuer, Option.or_none, Bool.false_eq_true, if_false]

end

/-- Settles O58: the agenda's entry and the default schedule both come to the group's issue, which runs the decoded
instruction. -/
theorem stepRunsDecoded : Obligations.StepRunsDecoded := by
  unfold Obligations.StepRunsDecoded
  refine ⟨?_, ?_⟩
  · intro s s1 t g w port rest i agenda s0 c noCommit issuer noGang win join fetch decode run
    have issue : (s0.turn g).issue false = .next t := (State.issue_decoded win join fetch decode).trans run
    calc step s = s0.runNext g := by rw [step, agenda]; rfl
      _ = s0.issueOf g port false := State.runNext_issuer noCommit issuer
      _ = .next (s0.noteIssue t g port) := State.issueOf_next noGang issue
  · intro s s1 t g w port i agenda due judge opened noCommit issuer noGang win join fetch decode run
    have issue : (s.turn g).issue false = .next t := (State.issue_decoded win join fetch decode).trans run
    calc step s = s.freeRun := by rw [step, agenda]
      _ = s.issueOf g port false := State.freeRun_issuer due judge opened noCommit issuer
      _ = .next (s.noteIssue t g port) := State.issueOf_next noGang issue

end Sys2Proof.Machine

/-! Safe points, regions, and stops where a group stands (09/R148-R151, 10/R163, R164). -/
namespace Sys2Proof.Machine
open Sys2Proof Sys2Proof.Claims

/-! ### What an instruction's end leaves of the count of words and of the mark of a stop (09/R148, R149) -/

/-- A change of any group that keeps its count of words keeps that of the group whose turn it is. -/
theorem State.modGroup_words (s : State) (g : Nat) {f : Group → Group} (hf : ∀ x, (f x).words = x.words) :
    (s.modGroup g f).me.words = s.me.words := by
  unfold State.modGroup
  by_cases hm : g = s.meId
  · subst hm
    by_cases absent : s.me.status = .absent <;> simp [State.group?, State.setGroup, absent, hf]
  · cases s.group? g <;> simp [State.setGroup, hm]

theorem State.fillN_words (c n : Nat) : ∀ s : State, (s.fillN c n).me.words = s.me.words := by
  induction n with
  | zero => intro s; rfl
  | succ n ih =>
    intro s
    unfold State.fillN
    split
    · rfl
    · split
      · rfl
      · rw [ih]; exact State.modGroup_words s _ fun _ => rfl

theorem State.fill_words (s : State) (c : Nat) : (s.fill c).me.words = s.me.words := s.fillN_words c 8

theorem Group.enterHandler_words (g : Group) (t : Trap) : (g.enterHandler t).words = g.words := by
  unfold Group.enterHandler Group.relieve
  simp only []
  split <;> rfl

/-- A trap counts no word, in the handler or at the steward. -/
theorem State.takeTrap_words (s : State) (t : Trap) : (s.takeTrap s.meId t).me.words = s.me.words := by
  unfold State.takeTrap
  cases hg : s.group? s.meId with
  | none => rfl
  | some y =>
    obtain rfl : s.me = y := by
      by_cases absent : s.me.status = .absent
      · simp [State.group?, absent] at hg
      · simpa [State.group?, absent] using hg
    have put (x : Group) : ((s.squash s.meId).setGroup s.meId x).me = x := by simp [State.setGroup]
    simp only []
    split
    · rw [put]; exact Group.enterHandler_words ..
    · split
      · rw [State.modPart_me, State.fill_words, put]; rfl
      · rw [State.addReport, State.modPart_me, State.fill_words, put]; rfl

/-- The next-address clause neither counts a word nor marks a stop. -/
theorem Group.advance_keeps {g h : Group} {nx : Nx} {n : Nat} (e : g.advance nx n = .ok h) :
    h.words = g.words ∧ h.stopAt = g.stopAt := by
  obtain ⟨pc, y, st, rs, ls, sr, em, rfl⟩ := Group.advance_cases g h nx n e
  exact ⟨rfl, rfl⟩

theorem retire_words (i : Instr) (act : BitVec 32) (s : State) :
    (retire i act s).me.words = if i.opcode = 0xEC then 0 else s.me.words + 1 := by
  unfold retire
  simp only []
  split
  · next e => exact (Group.advance_keeps e).1
  · exact State.takeTrap_words { s with me := (s.me.counted i).settled } _

/-- A group that no request has marked goes on. -/
theorem State.stopMarked_of_unmarked {s : State} {g : Nat} (h : (s.group g).stopAt = none) : s.stopMarked g = s := by
  simp [State.stopMarked, h]

/-- The group whose turn it is reads as it stands, or is absent. -/
theorem State.group_meId (s : State) : s.group s.meId = s.me ∨ s.group s.meId = Group.vacant := by
  by_cases absent : s.me.status = .absent <;> simp [State.group, State.group?, absent]

/-- An instruction of an unmarked group ends without a stop, whether its next-address clause completes or traps. -/
theorem retire_stopMarked {s : State} (h : s.me.stopAt = none) (i : Instr) (act : BitVec 32) :
    (retire i act s).stopMarked s.meId = retire i act s := by
  unfold retire
  simp only []
  split
  · next g' e =>
    have unmarked : g'.stopAt = none := (Group.advance_keeps e).2.trans h
    apply State.stopMarked_of_unmarked
    rcases State.group_meId { s with me := g' } with key | key
    · rw [key]; exact unmarked
    · rw [key]; rfl
  · exact State.takeTrap_stopMarked ..

/-! ### `spt` (09/R148, 10/R163) -/

theorem State.requested_eq_false {s : State} {g : Group}
    (h : g.npr ≠ none ∨ (s.team g.team).preempt = none ∨ (s.team g.team).steward = true) : s.requested g = false := by
  unfold State.requested
  rcases h with region | idle | steward
  · simp [region]
  · simp [idle]
  · simp [steward]

theorem State.requested_eq_true {s : State} {g : Group} (region : g.npr = none) (request : (s.team g.team).preempt ≠ none)
    (user : (s.team g.team).steward = false) : s.requested g = true := by
  simp [State.requested, region, Option.ne_none_iff_isSome.1 request, user]

/-- `spt` with a request marks its group with the blocks of its operand that the group holds. -/
def State.markedAt (s : State) (f : Form) : State :=
  if s.requested s.me then { s with me := { s.me with stopAt := some (0, f.imm.setWidth 16 &&& s.me.held) } } else s

/-- `spt` ends as any instruction does, and a marked group then stops. -/
theorem spt_ends {f : Form} {s : State} {info : Info} (h : Clear (.spt f) info f s) :
    exec (.spt f) s = .next ((retire (.spt f) (s.me.active f) (s.markedAt f)).stopMarked s.meId) := by
  rw [exec_spt, execSpt, run_ok (s' := s.markedAt f) h rfl]
  rfl

section
variable {f : Form} {s : State} {info : Info} (h : Clear (.spt f) info f s)
include h

theorem spt_goesOn (unmarked : s.me.stopAt = none) (unrequested : s.requested s.me = false) :
    exec (.spt f) s = .next (retire (.spt f) (s.me.active f) s) := by
  rw [spt_ends h, State.markedAt, unrequested, if_neg Bool.false_ne_true, retire_stopMarked unmarked]

theorem spt_stops (requested : s.requested s.me = true) :
    exec (.spt f) s = .next ((retire (.spt f) (s.me.active f) { s with me := { s.me with
      stopAt := some (0, f.imm.setWidth 16 &&& s.me.held) } }).stopMarked s.meId) := by
  rw [spt_ends h, State.markedAt, if_pos requested]

end

/-! ### Regions, and stops elsewhere than at a safe point (09/R149-R151, 10/R164) -/

section
variable {s : State}

theorem nprTimeLimit_closes {t : Nat} (region : (s.group s.subject).npr = some t) (due : t + 220000 ≤ s.time) :
    exec .nprTimeLimit s = .next ((s.setGroup s.subject { s.group s.subject with npr := none, nprt := true }).notify
      (corePart (s.group s.subject).core) 0x41 0 (s.groupReport (s.group s.subject))) := by
  simp only [exec_nprTimeLimit, execNprTimeLimit, region, usCycles, due, if_true]

theorem forcedSave_stops (stoppable : s.stoppable s.subject = true) (long : 4096 < (s.group s.subject).words)
    (unasked : (s.group s.subject).asked = none) : exec .forcedSave s = .next (s.stopGroup s.subject 1) := by
  simp only [exec_forcedSave, execForcedSave, stoppable, long, unasked, decide_true, Option.isNone_none, Bool.and_self, if_true]

theorem stallPreemption_stops (stoppable : s.stoppable s.subject = true) (stalled : s.stalledNow s.subject = true) :
    exec .stallPreemption s = .next (s.stopGroup s.subject 2) := by
  simp only [exec_stallPreemption, execStallPreemption, stoppable, stalled, Bool.and_self, if_true]

end

/-- Settles O40: `spt` without a request ends as any instruction does, its count of words reset; the rest are the outcomes of
`spt` with one, of the regions, and of the two stops. -/
theorem safePoints : Obligations.SafePoints := by
  unfold Obligations.SafePoints
  refine ⟨fun f s info h unmarked idle => ⟨_, spt_goesOn h unmarked (State.requested_eq_false idle), rfl, ?_⟩,
    fun f s info h region request user => spt_stops h (State.requested_eq_true region request user),
    fun f s info h => completes_of_run (exec_npr f s) h rfl, fun f s info h => completes_of_run (exec_epr f s) h rfl,
    fun s t => nprTimeLimit_closes, fun s => forcedSave_stops, fun s => stallPreemption_stops⟩
  exact (retire_words ..).trans (if_pos rfl)

end Sys2Proof.Machine

/-! Context frames and restore (09/R152-R157, 10/R173). -/
namespace Sys2Proof.Machine
open Sys2Proof Sys2Proof.Claims

/-! ### The frame of a stopped group (09/R153, R154) -/

section
variable {s s1 : State} {va : Nat} {q : Preempt} (stopped : (s.group s.subject).status = .preempted)
  (request : (s.team (s.group s.subject).team).preempt = some q) (unwritten : (s.group s.subject).index ∉ q.written)
  (landed : (s.group s.subject).splits = []) (still : q.full = true → s.queuesStill (s.group s.subject) = true)

include unwritten landed still in
/-- Nothing holds up a frame that is not yet written, once the group's loads have landed and its queues are still. -/
theorem frame_unhindered : (q.written.contains (s.group s.subject).index || !(s.group s.subject).splits.isEmpty
    || (q.full && !s.queuesStill (s.group s.subject))) = false := by
  simpa [landed, unwritten] using still

include stopped request unwritten landed still

theorem groupFrame_written (write : (({ s.drainWc s.subject with free := s.free + 1 } : State).writeFrame
      (s.group s.subject).team (s.group s.subject).index q.full false q.addr) = .ok () s1) :
    exec .groupFrameWrite s = .next ((s1.hwAsked.modTeam (s.group s.subject).team fun t =>
      { t with preempt := some { q with written := q.written ++ [(s.group s.subject).index] } }).setAway) := by
  simp only [exec_groupFrameWrite, execGroupFrameWrite, stopped, request, frame_unhindered unwritten landed still, write,
    Bool.false_eq_true, if_false]

theorem groupFrame_fails (write : (({ s.drainWc s.subject with free := s.free + 1 } : State).writeFrame
      (s.group s.subject).team (s.group s.subject).index q.full false q.addr) = .fail va s1) :
    exec .groupFrameWrite s = .next (s1.hwAsked.failPreempt (s.group s.subject).team va) := by
  simp only [exec_groupFrameWrite, execGroupFrameWrite, stopped, request, frame_unhindered unwritten landed still, write,
    Bool.false_eq_true, if_false]

end

/-! ### The last frames (09/R153, R154) -/

theorem teamSections_written {s s1 : State} {q : Preempt} (request : (s.team s.subject).preempt = some q)
    (begun : q.written ≠ []) (all : ∀ i < (s.team s.subject).ngroups, i ∈ (s.team s.subject).exited ∨ i ∈ q.written)
    (still : q.full = true → s.teamStill s.subject = true)
    (write : State.writeFrames s.subject q.full q.addr (List.range (s.team s.subject).ngroups) { s with free := s.free + 1 }
      = .ok () s1) :
    exec .teamSectionsWrite s = .next (s1.hwAsked.leaveCore s.subject q) := by
  have out : ((List.range (s.team s.subject).ngroups).all fun i =>
      (s.team s.subject).exited.contains i || q.written.contains i) = true := by simpa using all
  have teamStill : (q.full && !s.teamStill s.subject) = false := by simpa using still
  simp only [exec_teamSectionsWrite, execTeamSectionsWrite, request, out, List.isEmpty_eq_false_iff.2 begun, teamStill, write,
    Bool.not_true, Bool.or_self, Bool.false_eq_true, if_false]

/-! ### Restore (09/R157) -/

/-- A restore that is not held for a partner has nothing to be released from. -/
theorem State.unhold_of_unheld {s : State} {t : Nat} (unheld : (s.team t).partner = false) : s.unhold t = s := by
  simp only [State.unhold, unheld]

/-- The frames of one team that are read, and whose banks are there. -/
theorem State.framesOf_one {s s1 : State} {t : Nat} {fs : List Frame}
    (reads : State.readFrames t (List.range (s.team t).ngroups) s = .ok fs s1)
    (banks : (s.team t).light = true ∨ s1.barrenBank (s.team t).part fs = none) :
    State.framesOf [t] s = .ok (.inl [(t, fs)]) s1 := by
  have whole : (if (s.team t).light then none else s1.barrenBank (s.team t).part fs) = none := by
    rcases banks with light | present
    · exact if_pos light
    · rw [present, ite_self]
  simp only [State.framesOf, reads, whole]

section
variable {s s1 : State} {t : Nat} {fs : List Frame} (good : State.framesOf [t] s = .ok (.inl [(t, fs)]) s1)
include good

theorem State.restoreAll_placed {s2 : State} (placed : s1.restoreTeam t fs = some s2) : s.restoreAll [t] = .ok () s2 := by
  simp only [State.restoreAll, good, State.restoreTeams, placed]

theorem State.restoreAll_waits (waits : s1.restoreTeam t fs = none) : s.restoreAll [t] = .wait s1.hwAsked := by
  simp only [State.restoreAll, good, State.restoreTeams, waits]

end

section
variable {s : State} (restoring : (s.team s.subject).state = .restoring) (unheld : (s.team s.subject).partner = false)
  (alone : s.jointTeam s.subject = none) (first : s.firstFor s.subject = true)
include restoring unheld alone first

theorem restore_held (out : s.partnerOut s.subject = true) :
    exec .restorePlacement s = .next (s.modTeam s.subject fun x => { x with partner := true }) := by
  simp [execRestorePlacement, State.unhold_of_unheld unheld, restoring, unheld, alone, first, out, State.holdRestore]

variable (partnersIn : s.partnerOut s.subject = false)
include partnersIn

theorem restore_waits {s1 : State} (wait : s.restoreAll [s.subject] = .wait s1) :
    exec .restorePlacement s = .next (s.keepAsks s1) := by
  simp [execRestorePlacement, State.unhold_of_unheld unheld, restoring, unheld, alone, first, partnersIn, wait]

variable {s2 : State} (ok : s.restoreAll [s.subject] = .ok () s2)
include ok

theorem restore_placed (on : (s.core (s.team s.subject).core).power = .on) :
    exec .restorePlacement s = .next s2.hwAsked := by
  simp [execRestorePlacement, State.unhold_of_unheld unheld, restoring, unheld, alone, first, partnersIn, ok, on]

theorem restore_wakes (placed : (s2.team s.subject).state = .placed) (dark : (s.core (s.team s.subject).core).power ≠ .on) :
    exec .restorePlacement s = .next ((s.keepAsks s2).hwAsked.wakeIsland (s.team s.subject).core) := by
  have sameTeam : (s.keepAsks s2).hwAsked.team s.subject = s.team s.subject := rfl
  simp [execRestorePlacement, State.unhold_of_unheld unheld, restoring, unheld, alone, first, partnersIn, ok, placed, dark, sameTeam]

end

/-- Settles O46: the outcomes of the two writes of frames, then a lone restore by whether its partner is out, its place is free
and its island is on. -/
theorem framesAndRestore : Obligations.FramesAndRestore := by
  unfold Obligations.FramesAndRestore
  refine ⟨fun s s1 q => groupFrame_written, fun s s1 va q => groupFrame_fails, fun s s1 q => teamSections_written, ?_,
    fun s => restore_held⟩
  intro s s1 fs x restoring unheld alone first partnersIn reads banks
  have good := State.framesOf_one reads banks
  refine ⟨fun s2 placed on => ?_, fun s2 placed state dark => ?_, fun waits => ?_⟩
  · exact restore_placed restoring unheld alone first partnersIn (State.restoreAll_placed good placed) on
  · exact restore_wakes restoring unheld alone first partnersIn (State.restoreAll_placed good placed) state dark
  · exact restore_waits restoring unheld alone first partnersIn (State.restoreAll_waits good waits)

end Sys2Proof.Machine

/-! The system registers and the steward's commands (10/R166-R172). -/
namespace Sys2Proof.Machine
open Sys2Proof Sys2Proof.Claims

/-! ### Reads (10/R166) -/

theorem exec_readSys : ∀ mk ∈ [Instr.srr, .trmarkRead], ∀ f s, exec (mk f) s = readSys (mk f) s :=
  List.forall_mem_cons.2 ⟨exec_srr, List.forall_mem_singleton.2 exec_trmarkRead⟩

section
variable {i : Instr} {info : Info} {f : Form} {s : State} (hx : exec i s = readSys i s) (h : Clear i info f s)
include hx h

theorem readSys_completes (legal : f.imm.toNat < 0x10 ∨ s.myTeam.steward = true) :
    Completes i s (s.setScalar f.d (s.sysReg f.imm.toNat)) :=
  completes_of_run hx h <| if_neg <| by
    rcases legal with general | steward
    · simp only [Nat.not_le.2 general, decide_false, Bool.false_and, Bool.false_eq_true, not_false_eq_true]
    · simp only [steward, Bool.not_true, Bool.and_false, Bool.false_eq_true, not_false_eq_true]

theorem readSys_traps (steward : 0x10 ≤ f.imm.toNat) (other : s.myTeam.steward = false) :
    Traps i s (trapOf i s.me 6 (BitVec.ofNat 64 i.firstWord)) :=
  traps_of_run hx h <| if_pos <| by simp only [steward, other, decide_true, Bool.not_false, Bool.and_self]

end

/-! ### Writes and their statuses (10/R169) -/

section
variable {i : Instr} {info : Info} {f : Form} {s t u : State} {act : Form → Word → Nat × State}
  (hx : exec i s = writeSys i s act) (h : Clear i info f s)
include hx h

theorem writeSys_completes :
    Completes i s ((act f (s.me.scalar f.a)).2.setScalar f.d (BitVec.ofNat 64 (act f (s.me.scalar f.a)).1)) :=
  completes_of_run hx h rfl

theorem writeSys_answers {n : Nat} (answer : act f (s.me.scalar f.a) = (n, t)) :
    Completes i s (t.setScalar f.d (BitVec.ofNat 64 n)) := by
  simpa only [answer] using writeSys_completes hx h

/-- A register whose legal values are those with `c`. -/
theorem writeSys_checked {c : Prop} [Decidable c]
    (answer : act f (s.me.scalar f.a) = if c then (stDone, t) else (stBadVal, u)) :
    Completes i s (if c then t.setScalar f.d 0 else u.setScalar f.d 2) := by
  split
  case isTrue legal => exact writeSys_answers hx h (answer.trans (if_pos legal))
  case isFalse bad => exact writeSys_answers hx h (answer.trans (if_neg bad))

end

/-! ### The trap report ring (10/R170) -/

section
variable {s : State} (x : Word)

theorem State.setRing_busy (n : Nat) (pending : (s.part s.myPart).trmark ≠ (s.part s.myPart).trtail) :
    s.setRing n x = (stBusy, s) := if_pos pending

variable (settled : (s.part s.myPart).trmark = (s.part s.myPart).trtail)
include settled

theorem State.setRing_base : s.setRing 0x10 x = if x.toNat % 64 = 0 ∧ x.toNat < 2 ^ 52
    then (stDone, s.modPart s.myPart fun p => { p with trbase := x.toNat, trmark := 0, trtail := 0, notice := false })
    else (stBadVal, s) := by
  have bad : (x.toNat % 64 ≠ 0 || 2 ^ 52 ≤ x.toNat) = true ↔ ¬ (x.toNat % 64 = 0 ∧ x.toNat < 2 ^ 52) := by
    simp only [Bool.or_eq_true, decide_eq_true_eq]; omega
  simp only [State.setRing, if_neg (not_not_intro settled), if_true, bad, ite_not]

theorem State.setRing_size : s.setRing 0x11 x = if 64 ≤ x.toNat ∧ x.toNat ≤ 65536 ∧ x.toNat = 2 ^ Nat.log2 x.toNat
    then (stDone, s.modPart s.myPart fun p => { p with trsize := x.toNat, trmark := 0, trtail := 0, notice := false })
    else (stBadVal, s) := by
  have bad : (x.toNat < 64 || 65536 < x.toNat || x.toNat ≠ 2 ^ Nat.log2 x.toNat) = true
      ↔ ¬ (64 ≤ x.toNat ∧ x.toNat ≤ 65536 ∧ x.toNat = 2 ^ Nat.log2 x.toNat) := by
    simp only [Bool.or_eq_true, decide_eq_true_eq]; omega
  have notBase : (0x11 : Nat) ≠ 0x10 := by decide
  simp only [State.setRing, if_neg (not_not_intro settled), if_neg notBase, bad, ite_not]

end

/-! ### The command registers (10/R167) -/

/-- The command registers of the group of the turn become `c`. -/
def State.putCmd (s : State) (c : Cmd) : State :=
  s.modPart s.myPart fun p => { p with cmds := p.cmds.set s.me.index c }

section
variable (s : State) (x : Word)

theorem State.setCmd_launch :
    s.setCmd 0x20 x = if x.toNat < 2 ^ 52 then (stDone, s.putCmd { s.cmd with launch := x }) else (stBadVal, s) := by
  simp only [State.setCmd, State.putCmd, ← Nat.not_lt, ite_not]

theorem State.setCmd_team :
    s.setCmd 0x21 x = if x.toNat < 2 ^ 21 then (stDone, s.putCmd { s.cmd with team := x }) else (stBadVal, s) := by
  simp only [State.setCmd, State.putCmd, ← Nat.not_lt, ite_not]

theorem State.setCmd_addr :
    s.setCmd 0x22 x = if x.toNat < 2 ^ 52 then (stDone, s.putCmd { s.cmd with addr := x }) else (stBadVal, s) := by
  simp only [State.setCmd, State.putCmd, ← Nat.not_lt, ite_not]

theorem State.setCmd_core {n : Nat} (launch : n ≠ 0x20) (team : n ≠ 0x21) (addr : n ≠ 0x22) :
    s.setCmd n x = if x.toNat ≤ 0xBFF ∨ x = 0xFFFF_FFFF then (stDone, s.putCmd { s.cmd with core := x })
      else (stBadVal, s) := by
  unfold State.setCmd
  split
  · exact absurd rfl launch
  · exact absurd rfl team
  · exact absurd rfl addr
  · simp only [State.putCmd, Bool.or_eq_true, decide_eq_true_eq]

end

/-- Settles O42: a read by the register's number and the reader's team, then each write by what the register takes. -/
theorem systemRegisters : Obligations.SystemRegisters := by
  unfold Obligations.SystemRegisters
  refine ⟨fun mk hm f s info h => ⟨readSys_completes (exec_readSys mk hm f s) h,
      fun steward other => ⟨_, readSys_traps (exec_readSys mk hm f s) h steward other, rfl⟩⟩,
    fun f s info h => ⟨fun pending => ?_, fun settled number => ?_, fun settled number => ?_⟩,
    fun f s info h => ?_, fun f s info h => ?_⟩
  · exact writeSys_answers (exec_trapRingSet f s) h (State.setRing_busy _ _ pending)
  · exact writeSys_checked (exec_trapRingSet f s) h (number ▸ State.setRing_base _ settled)
  · exact writeSys_checked (exec_trapRingSet f s) h (number ▸ State.setRing_size _ settled)
  · exact writeSys_checked (exec_trtailWrite f s) h (by simp only [Bool.and_eq_true, decide_eq_true_eq])
  · dsimp only
    split
    next launch => exact writeSys_checked (exec_sysregWrite f s) h (launch ▸ s.setCmd_launch _)
    next team => exact writeSys_checked (exec_sysregWrite f s) h (team ▸ s.setCmd_team _)
    next addr => exact writeSys_checked (exec_sysregWrite f s) h (addr ▸ s.setCmd_addr _)
    next launch team addr => exact writeSys_checked (exec_sysregWrite f s) h (s.setCmd_core _ launch team addr)

/-! ### The commands (10/R172) -/

/-- The commands with their codes, one by one. -/
theorem forall_commands {p : (Form → Instr) × Nat → Prop} : (∀ r ∈ commands.zipIdx 1, p r) ↔ p (.preemptLight, 1)
    ∧ p (.preemptFull, 2) ∧ p (.restore, 3) ∧ p (.resume, 4) ∧ p (.resumet, 5) ∧ p (.endteam, 6) ∧ p (.cancel, 7) := by
  simp only [commands, List.zipIdx_cons, List.zipIdx_nil, List.forall_mem_cons, List.not_mem_nil, false_implies, implies_true,
    and_true, Nat.reduceAdd]

/-- The instruction of each command runs the command of its code. -/
theorem exec_command : ∀ r ∈ commands.zipIdx 1, ∀ f s, exec (r.1 f) s = writeSys (r.1 f) s fun _ _ => s.command r.2 :=
  forall_commands.2
    ⟨exec_preemptLight, exec_preemptFull, exec_restore, exec_resume, exec_resumet, exec_endteam, exec_cancel⟩

theorem command_completes {r : (Form → Instr) × Nat} (hr : r ∈ commands.zipIdx 1) {f : Form} {s : State} {info : Info}
    (h : Clear (r.1 f) info f s) :
    Completes (r.1 f) s ((s.command r.2).2.setScalar f.d (BitVec.ofNat 64 (s.command r.2).1)) :=
  writeSys_completes (act := fun _ _ => s.command r.2) (exec_command r hr f s) h

section
variable {s : State}

theorem State.command_unlisted {c : Nat} (unlisted : c = 0 ∨ 7 < c) : s.command c = (stBadVal, s) := by
  unfold State.command
  split
  case h_8 => rfl
  all_goals omega

theorem State.command_preempt (full : Bool) : s.command (if full then 2 else 1) = s.cmdPreempt full := by
  cases full <;> rfl

/-- Each command looks for its target first. -/
theorem State.command_noTarget (nothing : s.target = .nothing) : ∀ r ∈ commands.zipIdx 1, s.command r.2 = (stNoTarget, s) := by
  rw [forall_commands]
  simp only [State.command, State.cmdPreempt, State.cmdRestore, State.cmdResume, State.cmdResumet, State.cmdEnd, State.cmdCancel,
    nothing, and_self]

variable {t : Nat} (target : s.target = .team t)
include target

theorem State.cmdPreempt_accepted (full : Bool) (idle : (s.team t).preempt = none) (placed : (s.team t).state = .placed)
    (other : (s.team t).steward = false) (running : ∀ g ∈ s.groups, g.2.team = t → g.2.status ≠ .stopped)
    (aligned : s.cmd.addr.toNat % 64 = 0) :
    s.cmdPreempt full = (stDone, s.modTeam t fun x =>
      { x with preempt := some { full, addr := s.cmd.addr.toNat, stopped := [], written := [] } }) := by
  have stopped : (s.groups.any fun g => g.2.team == t && g.2.status == .stopped) = false := by
    simp only [List.any_eq_false, Bool.and_eq_true, beq_iff_eq, not_and]; exact running
  simp only [State.cmdPreempt, target, idle, placed, other, stopped, aligned, Option.isSome_none, ne_eq, not_true, decide_false,
    Bool.or_false, Bool.false_eq_true, if_false]

theorem State.command_cancel {q : Preempt} (pending : (s.team t).preempt = some q) :
    s.command 7 = if q.stopped.isEmpty then (stDone, s.modTeam t fun x => { x with preempt := none }) else (stBadState, s) := by
  simp only [State.command, State.cmdCancel, target, pending]

theorem State.command_resume {g : Nat} {x : Group} (named : s.targetGroup t = some (g, x)) :
    s.command 4 = if x.status = .stopped ∧ s.cmd.addr.toNat % 4 = 0
      then (stDone, (s.setGroup g { x with status := .running, pc := s.cmd.addr.setWidth 52 }).fill x.core)
      else (stBadState, s) := by
  have refused : (x.status ≠ .stopped || s.cmd.addr.toNat % 4 ≠ 0) = true
      ↔ ¬ (x.status = .stopped ∧ s.cmd.addr.toNat % 4 = 0) := by
    simp only [Bool.or_eq_true, decide_eq_true_eq, Decidable.not_and_iff_or_not]
  simp only [State.command, State.cmdResume, target, named, refused, ite_not, BitVec.truncate_eq_setWidth]

theorem State.command_endTeam : s.command 6 = if (s.team t).steward then (stBadState, s) else (stDone, s.endTeam t 1) := by
  simp only [State.command, State.cmdEnd, target]

end

/-- Settles O43: the instructions by the code of their command, then the commands by what their target allows. -/
theorem stewardCommands : Obligations.StewardCommands := by
  unfold Obligations.StewardCommands
  refine ⟨fun f s _ h => writeSys_completes (act := fun _ x => s.command x.toNat) (exec_srw f s) h,
    fun _ _ => State.command_unlisted,
    fun r hr => ⟨fun _ _ _ h => command_completes hr h, fun s nothing => State.command_noTarget nothing r hr⟩,
    fun _ _ full target idle placed other running aligned => (State.command_preempt full).trans
      (State.cmdPreempt_accepted target full idle placed other running aligned),
    fun _ _ _ target pending => State.command_cancel target pending,
    fun _ _ _ _ target named => State.command_resume target named, fun _ _ target => State.command_endTeam target⟩

end Sys2Proof.Machine

/-! Stage rings, thresholds and the gang (11/R175-R179, 16/R255). -/
namespace Sys2Proof.Machine
open Sys2Proof Sys2Proof.Claims

section
variable {f : Form} {s : State} {info : Info}

/-! ### `racq` and `rrel` (11/R175) -/

theorem racq_unset (h : Clear (.racq f) info f s) (unset : (s.myTeam.ring (f.d.toNat / 8)).slots = 0) :
    Waits (.racq f) s .ring :=
  waits_of_run (exec_racq f s) h (if_pos unset)

theorem racq_outside (h : Clear (.racq f) info f s) (ringSet : 0 < (s.myTeam.ring (f.d.toNat / 8)).slots)
    (outside : (s.myTeam.ring (f.d.toNat / 8)).slots ≤ f.d.toNat % 8) :
    Traps (.racq f) s (trapOf (.racq f) s.me 6 (BitVec.ofNat 64 (Instr.racq f).firstWord)) :=
  traps_of_run (exec_racq f s) h ((if_neg (Nat.ne_of_gt ringSet)).trans (if_pos outside))

/-- For a slot of the ring the outcome turns on its phase alone. -/
theorem racq_slot (h : Clear (.racq f) info f s) (slot : f.d.toNat % 8 < (s.myTeam.ring (f.d.toNat / 8)).slots) :
    exec (.racq f) s = run (.racq f) s fun _ _ =>
      if (s.myTeam.ring (f.d.toNat / 8)).phase.getLsbD (f.d.toNat % 8) = f.imm.getLsbD 0 then .ok s
      else .error (.wait .ring) := by
  have ringSet : (s.myTeam.ring (f.d.toNat / 8)).slots ≠ 0 := Nat.ne_zero_of_lt slot
  refine (exec_racq f s).trans (run_congr h ?_)
  simp only [if_neg ringSet, if_neg (Nat.not_le.2 slot), beq_iff_eq]

theorem rrel_slot (h : Clear (.rrel f) info f s) (slot : f.d.toNat % 8 < (s.myTeam.ring (f.d.toNat / 8)).slots) :
    let r := s.myTeam.ring (f.d.toNat / 8)
    Completes (.rrel f) s (s.modTeam s.me.team fun t => { t with
      rings := t.rings.set (f.d.toNat / 8) { r with phase := r.phase ^^^ BitVec.ofNat 8 (2 ^ (f.d.toNat % 8)) } }) :=
  completes_of_run (exec_rrel f s) h (if_neg (Nat.not_le.2 slot))

theorem rrel_outside (h : Clear (.rrel f) info f s) (outside : (s.myTeam.ring (f.d.toNat / 8)).slots ≤ f.d.toNat % 8) :
    Traps (.rrel f) s (trapOf (.rrel f) s.me 6 (BitVec.ofNat 64 (Instr.rrel f).firstWord)) :=
  traps_of_run (exec_rrel f s) h (if_pos outside)

/-! ### `rcfg` (16/R255) -/

theorem rcfg_sets (h : Clear (.rcfg f) info f s) (two : 2 ≤ (s.me.scalar f.a).toNat) (eight : (s.me.scalar f.a).toNat ≤ 8) :
    Completes (.rcfg f) s (s.modTeam s.me.team fun t =>
      { t with rings := t.rings.set f.d.toNat { slots := (s.me.scalar f.a).toNat, phase := 0 } }) :=
  completes_of_run (exec_rcfg f s) h <| if_neg <| by
    simp only [Nat.not_lt.2 two, Nat.not_lt.2 eight, decide_false, Bool.or_self, Bool.false_eq_true, not_false_eq_true]

theorem rcfg_outside (h : Clear (.rcfg f) info f s) (outside : (s.me.scalar f.a).toNat < 2 ∨ 8 < (s.me.scalar f.a).toNat) :
    Traps (.rcfg f) s (trapOf (.rcfg f) s.me 6 (BitVec.ofNat 64 (Instr.rcfg f).firstWord)) :=
  traps_of_run (exec_rcfg f s) h <| if_pos <| by simpa only [Bool.or_eq_true, decide_eq_true_eq] using outside

/-! ### `gang` (11/R177) -/

/-- A legal mask passes the check of `gang`: no bit above 31, 1 to 6 groups, each a matrix group of the team. -/
theorem gang_legal {v : Nat} {ms : List Nat} (low : v < 2 ^ 32) (nonempty : ms ≠ []) (six : ms.length ≤ 6)
    (roleM : ∀ k ∈ ms, ∃ g ∈ s.groups, g.2.team = s.me.team ∧ g.2.index = k ∧ g.2.role = .m) :
    ¬ (decide (2 ^ 32 ≤ v) || ms.isEmpty || decide (6 < ms.length)
      || !ms.all fun k => s.groups.any fun g => g.2.team == s.me.team && g.2.index == k && g.2.role == .m) = true := by
  have all : (ms.all fun k => s.groups.any fun g => g.2.team == s.me.team && g.2.index == k && g.2.role == .m) = true := by
    simpa only [List.all_eq_true, List.any_eq_true, Bool.and_eq_true, beq_iff_eq, and_assoc] using roleM
  simp only [all, List.isEmpty_eq_false_iff.2 nonempty, Nat.not_le.2 low, Nat.not_lt.2 six, decide_false, Bool.not_true,
    Bool.or_self, Bool.false_eq_true, not_false_eq_true]

theorem gang_names (h : Clear (.gang f) info f s) {ms : List Nat}
    (named : (List.range 32).filter (s.me.scalar f.a).toNat.testBit = ms) (low : (s.me.scalar f.a).toNat < 2 ^ 32)
    (nonempty : ms ≠ []) (six : ms.length ≤ 6)
    (roleM : ∀ k ∈ ms, ∃ g ∈ s.groups, g.2.team = s.me.team ∧ g.2.index = k ∧ g.2.role = .m) (latch : s.myTeam.latch = []) :
    Completes (.gang f) s (s.modTeam s.me.team fun t => { t with gn := ms }) := by
  subst named
  refine completes_of_run (exec_gang f s) h ((if_neg (gang_legal low nonempty six roleM)).trans (if_neg ?_))
  simp only [latch, List.isEmpty_nil, Bool.not_true, Bool.false_eq_true, not_false_eq_true]

end

/-- Settles O19: the rings by the slot's place in its ring, then the instructions that write the team's fields. -/
theorem gangsAndRings : Obligations.GangsAndRings := by
  unfold Obligations.GangsAndRings
  refine ⟨fun f s info h => ⟨fun slot phase => completes_of_run (racq_slot h slot) h (if_pos phase),
      fun slot phase => waits_of_run (racq_slot h slot) h (if_neg phase), racq_unset h,
      fun ringSet outside => ⟨_, racq_outside h ringSet outside, rfl⟩⟩,
    fun f s info h => ⟨rrel_slot h, fun outside => ⟨_, rrel_outside h outside, rfl⟩⟩,
    fun f s info h => ⟨rcfg_sets h, fun outside => ⟨_, rcfg_outside h outside, rfl⟩⟩,
    fun f s info h => completes_of_run (exec_agset f s) h rfl,
    fun f s info h low nonempty six roleM latch => gang_names h rfl low nonempty six roleM latch⟩

end Sys2Proof.Machine

/-! The arrival of `mma` and `mma.sw` at the latch of their team (13/R207, 16/R254). -/
namespace Sys2Proof.Machine
open Sys2Proof Sys2Proof.Claims

theorem supplied_eq_some {x : BitVec 8} {n : Nat} {ns : List Nat}
    (h : n = 0 ∧ ns = [] ∨ x.toNat + n ≤ 128 ∧ ns = (List.range n).map (x.toNat + ·)) : supplied x n = some ns := by
  unfold supplied
  rcases h with ⟨rfl, rfl⟩ | ⟨fits, rfl⟩
  · rfl
  · obtain rfl | pos := n.eq_zero_or_pos
    · rfl
    · exact (if_neg (Nat.ne_of_gt pos)).trans (if_pos fits)

theorem Group.badFragment_eq_none {g : Group} {ns : List Nat}
    (h : ∀ n ∈ ns, mapPlace (g.entry n) = 0 ∧ mapQKind (g.entry n) = 0 ∧ g.localHead n = none) : g.badFragment ns = none := by
  refine List.find?_eq_none.2 fun n _ bad => ?_
  obtain ⟨named, wrong⟩ := Bool.and_eq_true_iff.1 bad
  obtain ⟨place, kind, head⟩ := h n (List.contains_iff_mem.1 named)
  simp only [place, kind, head, bne_self_eq_false, Option.isSome_none, Bool.or_self, Bool.false_eq_true] at wrong

/-- The arrival that `mmaOp` enters in the latch, with the fragments of A and B from the registers `as` and `bs`. -/
def State.arrival (s : State) (f : Form) (swal : Bool) (encs : Ty × Ty) (first : Nat × Nat) (as bs : List Nat) : Arrival :=
  { gid := s.meId, index := s.me.index, form := f, swal, aenc := encs.1, benc := encs.2, first
    afrag := as.map fun n => s.me.regs.get n .fresh, bfrag := bs.map fun n => s.me.regs.get n .fresh, since := s.time }

section
variable {i : Instr} {f : Form} {s : State} {info : Info} {swal : Bool} {af an bf bn : Nat} {encs : Ty × Ty} {as bs : List Nat}

/-- An `mma` whose values are legal, of a group that neither waits for a step nor has arrived yet (16/R254). -/
theorem mmaOp_arrives (hx : exec i s = mmaOp i s swal) (h : Clear i info f s)
    (idle : s.myTeam.inEngine s.meId = false) (new : s.myTeam.latch.any (·.gid == s.meId) = false)
    (range : rangeWord (s.me.scalar f.cSpec).toNat = some (af, an, bf, bn))
    (encoded : encodings (f.type info.base) s.me.fm = some encs)
    (suppliedA : supplied f.a an = some as) (suppliedB : supplied f.b bn = some bs)
    (member : s.myTeam.gn = [] ∨ s.me.index ∈ s.myTeam.gn)
    (held : ∀ n ∈ as ++ bs, s.me.holds (n / 8) = true) (fragments : s.me.badFragment (as ++ bs) = none) :
    exec i s = .next { s.modTeam s.me.team fun t => { t with latch := t.latch ++ [s.arrival f swal encs (af, bf) as bs] } with
      me := s.me.waitOn .gang s.time } := by
  have noBlock : ((as ++ bs).find? fun n => !s.me.holds (n / 8)) = none :=
    List.find?_eq_none.2 fun n hn => by simp only [held n hn, Bool.not_true, Bool.false_eq_true, not_false_eq_true]
  have inGang : (!s.myTeam.gn.isEmpty && !s.myTeam.gn.contains s.me.index) = false := by
    rcases member with all | named
    · simp only [all, List.isEmpty_nil, Bool.not_true, Bool.false_and]
    · simp only [List.contains_iff_mem.2 named, Bool.not_true, Bool.and_false]
  have first : s.myTeam.latch.find? (·.gid == s.meId) = none := List.find?_eq_none.2 (List.any_eq_false.1 new)
  refine held_of_run (w := .gang)
    (s' := s.modTeam s.me.team fun t => { t with latch := t.latch ++ [s.arrival f swal encs (af, bf) as bs] }) hx h ?_
  simp only [idle, range, encoded, suppliedA, suppliedB, noBlock, fragments, inGang, first, State.arrival, Bool.false_eq_true, if_false]

end

theorem exec_mmaOp : ∀ r ∈ [(Instr.mma, false), (Instr.mmaSw, true)], ∀ f s, exec (r.1 f) s = mmaOp (r.1 f) s r.2 :=
  List.forall_mem_cons.2 ⟨exec_mma, List.forall_mem_singleton.2 exec_mmaSw⟩

/-- Settles O15: both instructions arrive by `mmaOp`; the registers supplied and their places are those of the statement. -/
theorem matrixArrival : Obligations.MatrixArrival := by
  unfold Obligations.MatrixArrival
  intro r hr f s info h idle new af an bf bn aenc benc as bs range encoded suppliedA suppliedB member plain
  exact mmaOp_arrives (exec_mmaOp r hr f s) h idle new range encoded (supplied_eq_some suppliedA) (supplied_eq_some suppliedB)
    member (fun n hn => (plain n hn).1) (Group.badFragment_eq_none fun n hn => (plain n hn).2)

end Sys2Proof.Machine

/-! The steps of the matrix engine: release at the latch, and the end of a step (13/R204, R207, R208, R219). -/
namespace Sys2Proof.Machine
open Sys2Proof Sys2Proof.Claims

theorem map_fst_of_some_map {α β : Type} {g : α → β} {xs : List α} {ys : List (α × β)}
    (h : some (xs.map fun x => (x, g x)) = some ys) : ys.map Prod.fst = xs := by
  obtain rfl := Option.some.inj h
  simp only [List.map_map, Function.comp_def, List.map_id']

/-- The cover fault is raised in every member: each branch of the check pairs the whole gang with its `tval`s (13/R208). -/
theorem Team.coverFault_members {t : Team} {ms : List Arrival} {fs : List (Arrival × Word)} (h : t.coverFault ms = some fs) :
    fs.map Prod.fst = ms := by
  match ms, h with
  | m :: ms, h =>
    simp only [Team.coverFault] at h
    split at h
    · exact map_fst_of_some_map h
    · split at h
      · exact map_fst_of_some_map h
      · split at h
        · exact map_fst_of_some_map h
        · exact map_fst_of_some_map (Option.ite_none_left_eq_some.1 h).2

theorem Team.coverFault_covers {t : Team} {ms : List Arrival} {fs : List (Arrival × Word)} (h : t.coverFault ms = some fs)
    {y : Arrival} (hy : y ∈ ms) : ∃ v, (y, v) ∈ fs := by
  rw [← Team.coverFault_members h] at hy
  obtain ⟨⟨_, v⟩, hv, rfl⟩ := List.mem_map.1 hy
  exact ⟨v, hv⟩

/-- The latch may release: no step executes, and the core is in no bubble (13/R204, 23/R360). -/
theorem State.latch_open {s : State} {x : Team} (idle : x.engine = []) (noBubble : s.bubble x.core = false) :
    (!x.engine.isEmpty || s.bubble x.core) = false := by
  simp only [idle, noBubble, List.isEmpty_nil, Bool.not_true, Bool.or_self]

/-- Settles O16: the branches of the latch and of the end of a step that the hypotheses select; a fault names every member. -/
theorem matrixStep : Obligations.MatrixStep := by
  unfold Obligations.MatrixStep
  refine ⟨fun s m ms full covered idle noBubble => ?released, fun s e rest oldest due => ?ended,
    fun s m ms fs full fault idle noBubble => ⟨fun y hy => Team.coverFault_covers fault hy, ?faulted⟩⟩
  case released =>
    simp only [exec_gangStepRelease, execGangStepRelease, State.releaseStep, full, covered, State.latch_open idle noBubble,
      Bool.false_eq_true, if_false]
  case ended =>
    simp only [exec_mmaStepComplete, execMmaStepComplete, State.completeStep, oldest, Nat.not_lt.2 due, memberInstr, if_false]
  case faulted =>
    simp only [exec_gangStepRelease, execGangStepRelease, State.releaseStep, full, fault, State.latch_open idle noBubble,
      Bool.false_eq_true, if_false]

end Sys2Proof.Machine

/-! `mzero` and `mzero.sw` (13/R210, R214). -/
namespace Sys2Proof.Machine
open Sys2Proof Sys2Proof.Claims

@[simp] theorem Team.setAcc_acc_same (t : Team) (a : Nat) (x : Accum) : (t.setAcc a x).acc a = x := Map.get_set_same ..

@[simp] theorem Team.setAcc_acc_other (t : Team) {a b : Nat} (x : Accum) (h : a ≠ b) : (t.setAcc a x).acc b = t.acc b :=
  Map.get_set_other _ _ _ h

theorem Team.zero_acc (t : Team) (a : Nat) : (t.zero a).acc a = freshAcc 0 0 := Team.setAcc_acc_same ..

/-- Both halves of the pair are set: the upper one last, which leaves the lower one. -/
theorem Team.zeroPair_acc (t : Team) {a b : Nat} (h : b = a ∨ b = a + 1) : (t.zeroPair a).acc b = freshAcc 2 0 := by
  change ((t.setAcc a (freshAcc 2 0)).setAcc (a + 1) (freshAcc 2 0)).acc b = _
  obtain rfl | rfl := h
  · rw [Team.setAcc_acc_other _ _ (Nat.succ_ne_self b), Team.setAcc_acc_same]
  · exact Team.setAcc_acc_same ..

theorem Team.zeroPair_count (t : Team) (a : Nat) : (t.zeroPair a).count (a / 2) = { valid := true } := Map.get_set_same ..

/-- A fresh accumulator lists no element: each of them is +0.0. -/
theorem freshAcc_cellAt (mode kind i : Nat) : cellAt (freshAcc mode kind).cells i 0 = 0 := rfl

/-- Settles O17: what the zeroed team holds at the accumulators named and at their count store. -/
theorem accumulatorZero : Obligations.AccumulatorZero := by
  unfold Obligations.AccumulatorZero
  refine ⟨fun f s info h => ⟨_, completes_of_run (exec_mzero f s) h rfl, ?plain⟩,
    fun f s info h => ⟨_, completes_of_run (exec_mzeroSw f s) h rfl, fun a ha => ?pair⟩⟩
  case plain =>
    rw [State.modTeam_same, Team.zero_acc]
    exact ⟨rfl, rfl, rfl, fun i _ => freshAcc_cellAt 0 0 i⟩
  case pair =>
    rw [State.modTeam_same, Team.zeroPair_acc _ ha, Team.zeroPair_count]
    exact ⟨rfl, rfl, rfl, fun i _ => freshAcc_cellAt 2 0 i, rfl, rfl, rfl⟩

end Sys2Proof.Machine

/-! The drains of the matrix engine (13/R215-R217, 11/R178, R179). -/
namespace Sys2Proof.Machine
open Sys2Proof Sys2Proof.Claims

section
variable {f : Form} {s s' : State} {info : Info} {row : Nat}

theorem rowOf_eq_some {g : Group} (named : (g.scalar f.b).toNat = row) (inside : row < 64) : rowOf g f = some row := by
  subst named
  exact if_pos inside

/-- A drain whose elements raise no flags of their own raises those of the promotion alone. -/
theorem drained_no_flags (s : State) (a n : Nat) :
    drained s a n 0 = ({ s.setTeam s.me.team (s.myTeam.promote a).1 with free := s.free + n } : State).raise (s.myTeam.promote a).2 := by
  rw [drained, Nat.or_zero]

theorem mdr_drains (h : Clear (.mdr f) info f s) (named : (s.me.scalar f.b).toNat = row) (inside : row < 64)
    (width : s.myTeam.widthOk f.a.toNat (f.type info.base == .f64) = true)
    {xs : List Nat} (elements : xs = (s.myTeam.promote f.a.toNat).1.accVals s.free f.a.toNat (96 * row) 96)
    (written : writeRange (.mdr f) (drained s f.a.toNat 1 0) (Spec.of f.d) 0
      (if f.type info.base == .f64 then drainPairs (s.me.active f) xs else drainWrites (s.me.active f) xs) = .ok s') :
    Completes (.mdr f) s s' := by
  subst elements
  rw [drained_no_flags] at written
  refine completes_of_run (exec_mdr f s) h ?_
  simp only [rowOf_eq_some named inside, width, Bool.not_true, Bool.false_eq_true, if_false]
  exact written

/-- A promotion changes accumulators and count stores: the thresholds of `agree` stay. -/
theorem Team.promote_ag (t : Team) (a : Nat) : (t.promote a).1.ag = t.ag := by
  simp only [Team.promote]
  split
  · rfl
  · split <;> rfl

/-- No half of the pair is a plain accumulator with defined contents. -/
theorem Team.noPlainHalf {t : Team} {a : Nat} (swallow : ∀ b ∈ [a, a + 1], (t.acc b).valid = true → (t.acc b).mode = 2) :
    (((t.acc a).valid && (t.acc a).mode != 2) || ((t.acc (a + 1)).valid && (t.acc (a + 1)).mode != 2)) = false := by
  obtain ⟨lower, rest⟩ := List.forall_mem_cons.1 swallow
  have upper := List.forall_mem_singleton.1 rest
  simp only [Bool.or_eq_false_iff, Bool.and_eq_false_imp, bne_eq_false_iff_eq]
  exact ⟨lower, upper⟩

/-- The elements that an `sdr` delivers from row `row` of the promoted pair of `ac`A, with their flags: counts, or the mode
`fn` of S+ and S- (11/R179, 13/R217). -/
def Team.sdrRow (t : Team) (counts : Bool) (fn free a row : Nat) : List (Nat × Nat) :=
  if counts then (List.range 96).map fun j =>
    (if (t.count (a / 2)).valid then (((t.count (a / 2)).cells[96 * row + j]?).map BitVec.toNat).getD 0
      else (Config.freeAcc (free + 2) (96 * row + j)).toNat, 0)
  else ((t.accVals free a (96 * row) 96).zip (t.accVals (free + 1) (a + 1) (96 * row) 96)).map fun v =>
    sdrElem fn (t.ag.get (a / 2) 0).toNat v.1 v.2

/-- The flags that the elements `xs` of a defined accumulator raise in the lanes `act`; undefined contents raise none. -/
def Team.sdrFlags (t : Team) (a : Nat) (act : BitVec 32) (xs : List (Nat × Nat)) : Nat :=
  if (t.acc a).valid then orAll (xs.zipIdx.map fun v => if laneOn act (v.2 % 32) then v.1.2 else 0) else 0

theorem sdrOp_drains {i : Instr} {fn : Nat} (hx : exec i s = sdrOp i s fn) (h : Clear i info f s)
    (named : (s.me.scalar f.b).toNat = row) (inside : row < 64)
    (swallow : ∀ b ∈ [f.a.toNat, f.a.toNat + 1], (s.myTeam.acc b).valid = true → (s.myTeam.acc b).mode = 2)
    {t : Team} (promoted : t = (s.myTeam.promote f.a.toNat).1)
    {xs : List (Nat × Nat)} (elements : xs = t.sdrRow (f.type info.base == .u32) fn s.free f.a.toNat row)
    (written : writeRange i (drained s f.a.toNat 3 (t.sdrFlags f.a.toNat (s.me.active f) xs)) (Spec.of f.d) 0
      (drainWrites (s.me.active f) (xs.map (·.1))) = .ok s') : Completes i s s' := by
  have ag : t.ag = s.myTeam.ag := promoted ▸ Team.promote_ag ..
  subst elements
  simp only [Team.sdrRow, ag] at written
  subst promoted
  refine completes_of_run hx h ?_
  simp only [rowOf_eq_some named inside, Team.noPlainHalf swallow, Bool.false_eq_true, if_false]
  exact written

theorem mdrSp_issues (h : Clear (.mdrSp f) info f s) (width : s.myTeam.widthOk f.a.toNat (f.type info.base == .f64) = true)
    (aligned : (s.me.scalar f.b).toNat % 128 = 0)
    (inside : s.myTeam.inRegion (s.me.scalar f.b).toNat (6144 * if f.type info.base == .f64 then 8 else 4) = true)
    (room : (s.core s.me.core).copies.length < 16) (mark : (s.myTeam.wm f.d.toNat).free = true) :
    let s1 := drained s f.a.toNat 1 0
    Completes (.mdrSp f) s (s1.issueCopy { s1.newCopy .drain (some f.d.toNat) (s.me.scalar f.b).toNat with
      data := ((s.myTeam.promote f.a.toNat).1.accVals s.free f.a.toNat 0 6144).flatMap fun v =>
        bytesOf v (if f.type info.base == .f64 then 8 else 4) }) := by
  have copyRoom : s.copyRoom s.me.core = true := decide_eq_true room
  rw [drained_no_flags]
  refine completes_of_run (exec_mdrSp f s) h ?_
  simp only [cellCount, width, aligned, inside, copyRoom, mark, Bool.not_true, Bool.false_eq_true, ne_eq, not_true_eq_false, if_false]

end

/-- The three modes of `sdr` are one operation (11/R179). -/
theorem exec_sdrOp : ∀ r ∈ [(Instr.sdrDiff, 0), (.sdrRatio, 1), (.sdrAgree, 2)], ∀ f s, exec (r.1 f) s = sdrOp (r.1 f) s r.2 :=
  List.forall_mem_cons.2 ⟨exec_sdrDiff, List.forall_mem_cons.2 ⟨exec_sdrRatio, List.forall_mem_singleton.2 exec_sdrAgree⟩⟩

/-- Settles O18: the drains into registers and the drain into scratchpad. -/
theorem matrixDrain : Obligations.MatrixDrain := by
  unfold Obligations.MatrixDrain
  refine ⟨fun f s s2 info row h named inside width => mdr_drains h named inside width rfl,
    fun r hr f s s2 info row h named inside swallow =>
      sdrOp_drains (exec_sdrOp r hr f s) h named inside swallow rfl rfl,
    fun f s info h width aligned inside room mark => mdrSp_issues h width aligned inside room mark⟩

end Sys2Proof.Machine

/-! A byte of a copy lands (14/R220-R222, R224, R229). -/
namespace Sys2Proof.Machine
open Sys2Proof Sys2Proof.Claims

/-! ### What a copy finds at a byte leaves its kind -/

/-- The copy that a landing leaves. -/
def Landing.copy : Landing → Copy
  | .byte _ c _ | .done _ c _ | .wait c _ | .replay _ c _ | .bad _ c _ => c

section
variable (s : State) (core : Nat) (c : Copy)

theorem State.sourceGranule_kind (a : Nat) (h : Home) : (s.sourceGranule c a h).copy.kind = c.kind := by
  cases h with
  | ram la =>
    simp only [State.sourceGranule]
    split
    · rfl
    · split
      · rfl
      · split <;> rfl
  | _ => rfl

theorem State.sourceByte_kind (a : Int) : (s.sourceByte core c a).copy.kind = c.kind := by
  unfold State.sourceByte
  dsimp only
  split
  case isTrue scratchpad =>
    split
    · rfl
    · split
      · rfl
      · split <;> rfl
  case isFalse address =>
    split
    · rfl
    · split
      case h_1 => split <;> rfl
      case h_2 | h_3 => rfl
      case h_4 =>
        split
        case h_1 =>
          split
          · rfl
          · split <;> rfl
        case h_2 | h_3 | h_4 => rfl
        case h_5 =>
          split
          · rfl
          · exact State.sourceGranule_kind ..

/-- A gather keeps what it has read of its list with the run; any other copy stays as it is. -/
theorem State.runStart_kind (r : Nat) : (s.runStart c r).elim (·.copy.kind) (·.2.kind) = c.kind := by
  unfold State.runStart
  split
  · rfl
  · split
    · split <;> rfl
    · dsimp only
      split
      · rfl
      · split <;> rfl

theorem State.copyByte_kind (k : Nat) : (s.copyByte core c k).copy.kind = c.kind := by
  unfold State.copyByte
  dsimp only
  split
  case h_1 => rfl
  case h_2 =>
    have start := s.runStart_kind c (k / c.n0)
    split
    case h_1 found => rwa [found] at start
    case h_2 a c' found =>
      rw [found] at start
      split
      · exact (State.sourceByte_kind ..).trans start
      · have low := s.sourceByte_kind core c' (a + (6 * (k % c'.n0) / 8 : Nat))
        split
        case h_1 lo c1 s1 read =>
          rw [read] at low
          have high := s1.sourceByte_kind core c1 (a + ((6 * (k % c'.n0) + 5) / 8 : Nat))
          split
          case h_1 read' =>
            rw [read'] at high
            exact high.trans (low.trans start)
          case h_2 => exact high.trans (low.trans start)
        case h_2 => exact low.trans start

end

/-- The mark closes in the step in which the copy ends (14/R222). -/
theorem State.marked_or_ended (s : State) (core id : Nat) (z : Copy) (n : Nat) (done : Prop) [Decidable done] :
    (if done then (s.markCopy z n (if done then 4 else 1)).endCopy core id z
      else (s.markCopy z n (if done then 4 else 1)).putCopy core id z)
    = if done then (s.markCopy z n 4).endCopy core id z else (s.markCopy z n 1).putCopy core id z := by
  split <;> rfl

/-! ### One byte of a copy into scratchpad (14/R221, R222) -/

section
variable {c id : Nat} {s s1 : State} {x y : Copy} {b : Byte}

theorem State.copyAnswer_unasked (s : State) (unasked : x.ask = none) : s.copyAnswer x = none :=
  Option.map_eq_none_iff.2 unasked

theorem State.thawed_unfrozen (s : State) (unfrozen : x.frozen = none) : s.thawed c x = true := by
  simp only [State.thawed, unfrozen]

theorem Copy.unfrozen_eq (unfrozen : x.frozen = none) : { x with frozen := none } = x := by
  rw [← unfrozen]

theorem Copy.unit_scratch (scratch : x.global = false) : x.unit = 1 := by
  simp only [Copy.unit, scratch, Bool.false_eq_true, if_false]

theorem State.landNext_scratch (unasked : x.ask = none) (scratch : x.global = false)
    (free : s.landBlocked c x x.pos (x.dstAt x.landed) = false) (read : s.copyByte c x x.landed = .byte b y s1) :
    s.landNext c x = .done 1 y (s1.landScratch y y.pos y.landed (x.dstAt x.landed).toNat b) := by
  have one : (List.range 1).takeWhile (fun k : Nat => !s.landBlocked c x x.pos (x.dstAt x.landed + k)) = [0] := by
    simp only [List.range_one, List.takeWhile, Int.natCast_zero, Int.add_zero, free, Bool.not_false]
  simp only [State.landNext, s.copyAnswer_unasked unasked, Copy.unit_scratch scratch, one, List.length_singleton,
    Nat.one_ne_zero, if_false, scratch, Bool.false_eq_true, read]

/-- A unit of a copy into scratchpad is its next byte. -/
theorem State.landN_scratch (unasked : x.ask = none) (scratch : x.global = false) (more : x.landed < x.total)
    (free : s.landBlocked c x x.pos (x.dstAt x.landed) = false) (read : s.copyByte c x x.landed = .byte b y s1)
    (landed : y.landed = x.landed) (total : y.total = x.total) :
    let s2 := s1.landScratch y y.pos x.landed (x.dstAt x.landed).toNat b
    let z := { y with landed := x.landed + 1 }
    State.landN c id 1 1 x s = if x.landed + 1 < x.total
      then (s2.markCopy z (x.landed + 1) 1).putCopy c id z else (s2.markCopy z (x.landed + 1) 4).endCopy c id z := by
  have left : ∀ n, ({ y with landed := n } : Copy).total = x.total := fun n => total
  simp only [State.landN, Nat.not_le.2 more, if_false, Copy.unit_scratch scratch, Nat.lt_irrefl,
    State.landNext_scratch unasked scratch free read, landed, left]
  rw [State.marked_or_ended, ← ite_not]
  simp only [Nat.not_le]

theorem copyLand_one (found : (s.core c).copies.get? id = some x) (unicast : x.kind ≠ .cpm) (unfrozen : x.frozen = none)
    (may : s.mayLand c x = true) : exec (.copyLand c id 1) s = .next (State.landN c id 1 1 x s) := by
  simp only [exec_copyLand, execCopyLand, found, unicast, s.thawed_unfrozen unfrozen, may, Copy.unfrozen_eq unfrozen,
    unfrozen, decide_false, Bool.not_true, Bool.or_self, Bool.false_eq_true, if_false, Option.isSome_none]

end

/-! ### One byte of a multicast at a position (14/R229) -/

section
variable {c id pos : Nat} {s s1 : State} {x y : Copy} {b : Byte}

/-- What a multicast keeps of its source does not count for its length (14/R222). -/
theorem Copy.total_of_cast (cast : x.kind = .cpm) (fronts : Map Nat) (data : List Byte) :
    ({ x with fronts, data } : Copy).total = x.total := by
  simp only [Copy.total, cast]

/-- The multicast when its front at a position passes byte k, which read as b. -/
def Copy.passed (y : Copy) (pos k : Nat) (b : Byte) : Copy :=
  { y with fronts := y.fronts.set pos (k + 1), data := if k < y.data.length then y.data else y.data ++ [b] }

theorem State.castN_one (cast : x.kind = .cpm) (unasked : x.ask = none) (more : x.fronts.get pos 0 < x.total)
    (free : s.landBlocked c x pos (x.dstAt (x.fronts.get pos 0)) = false)
    (read : s.copyByte c x (x.fronts.get pos 0) = .byte b y s1) (total : y.total = x.total) :
    let k := x.fronts.get pos 0
    let z := y.passed pos k b
    let s2 := (s1.landScratch z pos k (x.dstAt k).toNat b).setLine z pos (x.dstAt k).toNat
    State.castN c id pos x 1 s = if x.total ≤ z.lowest
      then (s2.markCopy z z.lowest 4).endCopy c id z else (s2.markCopy z z.lowest 1).putCopy c id z := by
  have kept : y.kind = .cpm := by
    have kind := s.copyByte_kind c x (x.fronts.get pos 0)
    rw [read] at kind
    exact kind.trans cast
  have left : (y.passed pos (x.fronts.get pos 0) b).total = x.total := (Copy.total_of_cast kept ..).trans total
  simp only [Copy.passed] at left ⊢
  simp only [State.castN, Nat.not_le.2 more, if_false, free, Bool.false_eq_true, s.copyAnswer_unasked unasked, read, left]
  exact State.marked_or_ended ..

theorem multicastLand_one (found : (s.core c).copies.get? id = some x) (cast : x.kind = .cpm) (masked : x.mask.getLsbD pos = true)
    (unfrozen : x.frozen = none) (may : s.mayLand c x = true) :
    exec (.multicastLand c id pos 1) s = .next (State.castN c id pos x 1 s) := by
  simp only [exec_multicastLand, execMulticastLand, found, Copy.unfrozen_eq unfrozen]
  simp only [cast, masked, s.thawed_unfrozen unfrozen, may, unfrozen, ne_eq, not_true_eq_false, decide_false,
    Bool.not_true, Bool.or_self, Bool.false_eq_true, if_false, Option.isSome_none]

end

/-- Settles O21: one unit of `landN` for a copy into scratchpad, one of `castN` for a multicast at a position. -/
theorem copyLanding : Obligations.CopyLanding := by
  unfold Obligations.CopyLanding
  refine ⟨fun c id s s1 x y b found unicast unfrozen unasked scratch more may free read landed total => ?scratch,
    fun c id pos s s1 x y b found cast masked unfrozen unasked more may free read total => ?cast⟩
  case scratch =>
    rw [copyLand_one found unicast unfrozen may]
    exact congrArg _ (State.landN_scratch unasked scratch more free read landed total)
  case cast =>
    rw [multicastLand_one found cast masked unfrozen may]
    exact congrArg _ (State.castN_one cast unasked more free read total)

end Sys2Proof.Machine

/-! Batches and watermarks (14/R226, R227, R230, 16/R261-R264). -/
namespace Sys2Proof.Machine
open Sys2Proof Sys2Proof.Claims

section
variable {f : Form} {s : State} {info : Info}

/-! ### `cseal` and `cwait` (14/R226, R227, 16/R261, R262) -/

theorem cseal_seals (h : Clear (.cseal f) info f s) (room : (s.me.sealed.filter fun b => b.2.incomplete).length < 16) :
    let kept : Map Batch := s.me.sealed.filter fun b => b.1 % 16 != s.me.nextb % 16 || b.2.incomplete
      || (b.2.failed.isSome && !b.2.waited)
    Completes (.cseal f) s (({ s with me := { s.me with
      sealed := kept.set s.me.nextb s.me.batch, batch := {}, nextb := s.me.nextb + 1 } } : State).setScalar f.d
        (BitVec.ofNat 64 (s.me.nextb % 16))) :=
  completes_of_run (exec_cseal f s) h (if_neg (Nat.not_le.2 room))

theorem cwait_unknown (h : Clear (.cwait f) info f s) (number : (s.me.scalar f.a).toNat < 16)
    (unknown : s.me.sealedAs (s.me.scalar f.a).toNat = none) : Completes (.cwait f) s s := by
  refine completes_of_run (exec_cwait f s) h ((if_neg (Nat.not_le.2 number)).trans ?_)
  simp only [unknown]

/-- Of a batch that has not failed, the outcome turns on the copies outstanding alone. -/
theorem cwait_unfailed (h : Clear (.cwait f) info f s) (number : (s.me.scalar f.a).toNat < 16) {k : Nat} {b : Batch}
    (named : s.me.sealedAs (s.me.scalar f.a).toNat = some (k, b)) (unfailed : b.failed = none) :
    exec (.cwait f) s = run (.cwait f) s fun _ _ => if 0 < b.copies then .error (.wait .cwait) else .ok s := by
  refine (exec_cwait f s).trans (run_congr h ((if_neg (Nat.not_le.2 number)).trans ?_))
  simp only [named, unfailed]

theorem cwait_complete (h : Clear (.cwait f) info f s) (number : (s.me.scalar f.a).toNat < 16) {k : Nat} {b : Batch}
    (named : s.me.sealedAs (s.me.scalar f.a).toNat = some (k, b)) (unfailed : b.failed = none) (complete : b.copies = 0) :
    Completes (.cwait f) s s :=
  completes_of_run (cwait_unfailed h number named unfailed) h (if_neg (Nat.not_lt.2 (Nat.le_of_eq complete)))

theorem cwait_incomplete (h : Clear (.cwait f) info f s) (number : (s.me.scalar f.a).toNat < 16) {k : Nat} {b : Batch}
    (named : s.me.sealedAs (s.me.scalar f.a).toNat = some (k, b)) (unfailed : b.failed = none) (outstanding : b.copies ≠ 0) :
    Waits (.cwait f) s .cwait :=
  waits_of_run (cwait_unfailed h number named unfailed) h (if_pos (Nat.pos_of_ne_zero outstanding))

/-! ### `wmrd` (16/R263) -/

theorem wmRead_reads {i : Instr} {field : Watermark → Nat} (hx : exec i s = wmRead i s field) (h : Clear i info f s) :
    Completes i s (s.setScalar f.d (BitVec.ofNat 64 (field (s.myTeam.wm f.a.toNat)))) :=
  completes_of_run hx h rfl

/-- The bit that says a watermark listens, as a number (14/R222). -/
theorem Watermark.state_eq (w : Watermark) : w.st + 128 * w.listen.toNat = w.st + if w.listen then 128 else 0 := by
  cases w.listen <;> rfl

/-! ### `wmcfg` (14/R230, 16/R264) -/

/-- The state with watermark n of the team of the group whose turn it is. -/
def State.putMark (s : State) (n : Nat) (w : Watermark) : State :=
  s.modTeam s.me.team fun t => { t with wms := t.wms.set n w }

theorem wmcfg_frees (h : Clear (.wmcfg f) info f s) (free : (s.myTeam.wm f.d.toNat).free = true)
    (empty : (s.me.scalar f.a).toNat = (s.me.scalar f.b).toNat) :
    Completes (.wmcfg f) s (s.putMark f.d.toNat {}) := by
  refine completes_of_run (exec_wmcfg f s) h ((if_pos empty).trans (if_neg ?_))
  simp only [free, Bool.not_true, Bool.false_eq_true, not_false_eq_true]

theorem wmcfg_listens (h : Clear (.wmcfg f) info f s) (free : (s.myTeam.wm f.d.toNat).free = true) {x y : Nat}
    (base : (s.me.scalar f.a).toNat = x) (limit : (s.me.scalar f.b).toNat = y) (range : x < y) (lined : x % 128 = 0)
    (lined' : y % 128 = 0) (inside : s.myTeam.inCohort x (y - x) = true) :
    let s1 := s.putMark f.d.toNat { base := x, limit := y, mark := x, st := 1, listen := true, order := s.order }
    Completes (.wmcfg f) s ({ s1 with order := s.order + 1 }.followLines s.me.team) := by
  subst base limit
  refine completes_of_run (exec_wmcfg f s) h ?_
  simp only [Nat.ne_of_lt range, Nat.not_lt_of_gt range, lined, lined', inside, free, ne_eq, not_true_eq_false,
    Bool.not_true, Bool.false_eq_true, if_false]
  rfl

end

/-- Settles O22: `cwait` by what is known of the batch, `wmcfg` by whether its range is empty; the rest are effects. -/
theorem batchesAndWatermarks : Obligations.BatchesAndWatermarks := by
  unfold Obligations.BatchesAndWatermarks
  refine ⟨fun f s info h room => cseal_seals h room, fun f s info h number => ?wait,
    fun f s info h => wmRead_reads (exec_wmrdMark f s) h, fun f s info h => ?state,
    fun f s info h => wmRead_reads (exec_wmrdBase f s) h, fun f s info h => wmRead_reads (exec_wmrdLimit f s) h,
    fun f s info h free => ⟨wmcfg_frees h free, wmcfg_listens h free rfl rfl⟩⟩
  case wait =>
    split
    case h_1 unknown => exact cwait_unknown h number unknown
    case h_2 named =>
      intro unfailed
      split
      case isTrue complete => exact cwait_complete h number named unfailed complete
      case isFalse outstanding => exact cwait_incomplete h number named unfailed outstanding
  case state => simpa only [Watermark.state_eq] using wmRead_reads (exec_wmrdState f s) h

end Sys2Proof.Machine

/-! The format register and the flags (15/R246, R247, 07/R117). -/
namespace Sys2Proof.Machine
open Sys2Proof Sys2Proof.Claims

/-- The low `w` bits of an operand, moved to the field at `lo`, are its bits under the mask of that field. -/
theorem ofNat_mod_shift (lo w : Nat) (x : Word) :
    BitVec.ofNat 32 (x.toNat % 2 ^ w * 2 ^ lo) = (x.setWidth 32 <<< lo) &&& BitVec.ofNat 32 ((2 ^ w - 1) * 2 ^ lo) := by
  refine BitVec.eq_of_getLsbD_eq fun i hi => ?_
  simp only [BitVec.getLsbD_and, BitVec.getLsbD_shiftLeft, BitVec.getLsbD_setWidth, BitVec.getLsbD_ofNat,
    Nat.testBit_mul_two_pow, Nat.testBit_mod_two_pow, Nat.testBit_two_pow_sub_one, BitVec.testBit_toNat, hi,
    Nat.sub_lt_of_lt hi, decide_true, Bool.true_and]
  by_cases inside : lo ≤ i
  · simp only [inside, Nat.not_lt.2 inside, decide_true, decide_false, Bool.not_false, Bool.true_and, Bool.and_comm]
  · simp only [inside, decide_false, Bool.false_and, Bool.and_false]

/-- A write of one field takes the bits of its mask from the operand and keeps all others. -/
theorem fmField_eq_mask (fm : BitVec 32) (lo w : Nat) (x : Word) :
    let mask := BitVec.ofNat 32 ((2 ^ w - 1) * 2 ^ lo)
    fmField fm lo w x = (fm &&& ~~~mask) ||| ((x.setWidth 32 <<< lo) &&& mask) := by
  simp only [fmField, ofNat_mod_shift]

theorem fmOp_writes {i : Instr} {info : Info} {f : Form} {s : State} {new : BitVec 32 → Word → BitVec 32}
    (hx : exec i s = fmOp i s new) (h : Clear i info f s) :
    Completes i s { s with me := { s.me with fm := new s.me.fm (s.me.scalar f.a + f.imm) } } :=
  completes_of_run hx h rfl

/-- A form that writes a field of `fm`, by the mask of that field (15/R246). -/
theorem fmField_result {mk : Form → Instr} {mask : BitVec 32} {lo w : Nat}
    (hx : ∀ f s, exec (mk f) s = fmOp (mk f) s fun fm x => fmField fm lo w x)
    (hm : BitVec.ofNat 32 ((2 ^ w - 1) * 2 ^ lo) = mask) : Result mk (field mask lo) := by
  subst hm
  intro f s info h
  have written := fmOp_writes (hx f s) h
  rwa [fmField_eq_mask] at written

/-- Settles O13: the field forms by the masks of their fields; the rest are effects as they stand. -/
theorem formatAndFlags : Obligations.FormatAndFlags := by
  unfold Obligations.FormatAndFlags
  exact ⟨fun f s info h => (fmOp_writes (exec_fmt f s) h :),
    fmField_result exec_fmtRnd rfl, fmField_result exec_fmtAb rfl, fmField_result exec_fmtFtz rfl,
    fmField_result exec_fmtCbs rfl, fmField_result exec_fmtTrp rfl,
    fun f s info h => completes_of_run (exec_fmrd f s) h rfl,
    fun f s info h => completes_of_run (exec_ffget f s) h rfl,
    fun f s info h => completes_of_run (exec_ffclr f s) h rfl⟩

end Sys2Proof.Machine

/-! Vector floating point where no enabled exception arises (15/R231, 08/R129). -/
namespace Sys2Proof.Machine
open Sys2Proof Sys2Proof.Claims

section
variable {i : Instr} {info : Info} {f : Form} {s s1 : State}

/-! ### Results and how they are delivered -/

/-- Where nothing traps the flags are raised and the destination is written (15/R231, 12/R185). -/
theorem fpFinish_untrapped {g : Group} {wide : Bool} {res : List FRes} (quiet : fpTrap i info f g res = none) :
    fpFinish i info f g s1 wide res
      = writeRange i (s1.raise (activeFlags (g.active f) res)) (Spec.of f.d) 0 (fpWrites (g.active f) wide res) := by
  simp only [fpFinish, quiet, fpWrites]

/-- An instruction whose effect comes to these results is done with them. -/
theorem fpDone_of_run {wide : Bool} {res : List FRes} {e : Info → Form → Except Halt State} (hx : exec i s = run i s e)
    (h : Clear i info f s) (he : e info f = fpFinish i info f s.me s1 wide res) : FpDone i info f s s1 wide res :=
  fun quiet _ written => completes_of_run hx h (he.trans ((fpFinish_untrapped quiet).trans written))

/-- No instruction is illegal for a mode of arithmetic (12/R182). -/
theorem ModeLegal.not_reserved {rounds : Bool} (legal : rounds = true → ModeLegal s) :
    (rounds && (arithMode s.me.fm).isNone) = false := by
  cases rounds with
  | false => rfl
  | true => simpa only [Bool.true_and, ModeLegal, ← Option.not_isNone, Bool.not_eq_true'] using legal rfl

/-! ### The element-wise form, the reduction and the packed dot product -/

theorem fpElem_done {rounds : Bool} {op : Fmt → Nat → Nat → Nat → FRes} (hx : exec i s = fpElem i s rounds op)
    (h : Clear i info f s) (legal : rounds = true → ModeLegal s) (taken : Taken i info f false s s1) :
    FpDone i info f s s1 (f.type info.base == .f64)
      (fpResults s f (f.type info.base) (op ((fmtOf (f.type info.base)).getD fmtF32))) :=
  fpDone_of_run (hx.trans (runIf_eq_run h (ModeLegal.not_reserved legal))) h (by simp only [taken.sources, taken.ready])

theorem redOp_done {rounds : Bool} {pad : FpNum} {opr : FpNum → FpNum → ExRes} (hx : exec i s = redOp i s rounds pad opr)
    (h : Clear i info f s) (legal : rounds = true → ModeLegal s) (taken : Taken i info f false s s1) :
    let leaves := (List.range 32).map fun l =>
      if laneOn (s.me.active f) l then fmtF32.read s.me.ftz ((s.source f.a .f32).lane l) else pad
    let p := redTree opr 5 leaves
    FpDone i info f s s1 false (List.replicate 32
      { bits := (fmtF32.write .arith .rne false (p.1.headD pad)).bits, flags := p.2 }) :=
  fpDone_of_run (hx.trans (runIf_eq_run h (ModeLegal.not_reserved legal))) h (by simp only [taken.sources, taken.ready])

theorem dotOp_done (hx : exec i s = dotOp i s) (h : Clear i info f s) (legal : dotBad s.me info f = false)
    (taken : Taken i info f false s s1) :
    let t := f.type info.base
    let p := (dotTypes info f s.me.fm).getD (t, t)
    let a := s.source f.a p.1
    let b := s.source f.b p.2
    FpDone i info f s s1 false ((List.range 32).map fun l => dotLane s.me (elemWidth t) p.1 p.2
      (a.lane l) (b.lane l) ((s.source f.d .f32).lane l) (dotScale t a l) (dotScale t b l)) :=
  fpDone_of_run (hx.trans (runIf_eq_run h legal)) h (by simp only [taken.sources, taken.ready])

end

/-! ### The element-wise instructions (15/R233-R238, R240) -/

/-- Each row's instruction is the element-wise form of the row's result. -/
theorem exec_fpRows : ∀ r ∈ fpRows, ∀ f s, exec (r.ins f) s = fpElem (r.ins f) s r.rounds (r.op f s) := by
  simp only [fpRows, List.forall_mem_cons]
  exact ⟨exec_vaddFp, exec_vsubFp, exec_vmulFp, exec_vfma, exec_vminFp, exec_vmaxFp, exec_vcmpFp, exec_vabs, exec_vneg,
    exec_vcpsgn, exec_vrcp, exec_vrsq, exec_vsqrt, exec_vexp2, exec_vlog2, exec_vsin, exec_vcos, exec_vrint,
    List.forall_mem_nil _⟩

/-- FP32 is the base type of every row (04/R61, 05/R79). -/
theorem fpRows_base : ∀ r ∈ fpRows, ∀ f, (r.ins f).row.map (·.1.base) = some .f32 := by
  simp only [fpRows, List.forall_mem_cons]
  and_intros
  case refine_2 => exact List.forall_mem_nil _
  all_goals exact fun _ => rfl

/-- Settles O8: every row is the element-wise form of its result, with FP32 as its base type. -/
theorem floatResults : Obligations.FloatResults := by
  unfold Obligations.FloatResults
  intro r hr f s s1 info h legal taken
  have base : info.base = .f32 := by
    have rowBase := fpRows_base r hr f
    rwa [h.row, Option.map_some, Option.some_inj] at rowBase
  have done := fpElem_done (exec_fpRows r hr f s) h legal taken
  rwa [base] at done

/-! ### Reductions, and comparisons into a predicate (15/R235, R239) -/

theorem vcmppFp_base {f f' : Form} {info : Info} (h : (Instr.vcmppFp f).row = some (info, f')) : info.base = .f32 := by
  cases h; rfl

theorem vcmppFp_completes {f : Form} {s s1 : State} {info : Info} (h : Clear (.vcmppFp f) info f s)
    (sources : readSources (.vcmppFp f) info f false s = .ok s1) :
    let fm := (fmtOf (f.type .f32)).getD fmtF32
    let res := fpResults s f (f.type .f32) fun a b _ =>
      { bits := (numCompare f.fn.toNat (fm.read s.me.ftz a) (fm.read s.me.ftz b)).1.toNat
        flags := (numCompare f.fn.toNat (fm.read s.me.ftz a) (fm.read s.me.ftz b)).2 }
    fpTrap (.vcmppFp f) info f s.me res = none →
    Completes (.vcmppFp f) s ((s1.raise (activeFlags (s.me.active f) res)).setPred f.d.toNat (maskOf fun l =>
      if laneOn (s.me.active f) l then (res.getD l ⟨0, 0⟩).bits == 1 else laneOn (s.me.pred f.d.toNat) l)) := by
  intro fm res quiet
  have base : info.base = .f32 := vcmppFp_base h.row
  subst fm res
  exact completes_of_run (exec_vcmppFp f s) h (by simp only [sources, base, quiet])

/-- Settles O10: the three reductions are one operation, and `vcmpp` completes with its effect where nothing traps. -/
theorem floatReduceCompare : Obligations.FloatReduceCompare := by
  unfold Obligations.FloatReduceCompare
  refine ⟨List.forall_mem_cons.2 ⟨?add, List.forall_mem_cons.2 ⟨?min, List.forall_mem_singleton.2 ?max⟩⟩,
    fun f s s1 info h sources => vcmppFp_completes h sources⟩
  case add => exact fun f s s1 info => redOp_done (exec_vredAdd f s)
  case min => exact fun f s s1 info => redOp_done (exec_vredMin f s)
  case max => exact fun f s s1 info => redOp_done (exec_vredMax f s)

/-! ### Packed dot products (15/R245) -/

theorem exec_dotOp : ∀ mk ∈ [Instr.vdot2, .vdot4, .vdot8], ∀ f s, exec (mk f) s = dotOp (mk f) s :=
  List.forall_mem_cons.2 ⟨exec_vdot2, List.forall_mem_cons.2 ⟨exec_vdot4, List.forall_mem_singleton.2 exec_vdot8⟩⟩

/-- Settles O11: the three are one operation. -/
theorem dotProducts : Obligations.DotProducts := by
  unfold Obligations.DotProducts
  exact fun mk hmk f s s1 info h legal taken => dotOp_done (exec_dotOp mk hmk f s) h legal taken

end Sys2Proof.Machine

/-! `vcvt` (15/R241-R243, 12/R198, R202). -/
namespace Sys2Proof.Machine
open Sys2Proof Sys2Proof.Claims Sys2Proof.Opcode

/-- A conversion draws where RND is stochastic and its destination is one of the narrow types (12/R197, 15/R241). -/
theorem draws_iff (g : Group) (t : Ty) :
    draws g t = true ↔ fmRnd g.fm = 4 ∧ t ∈ [Ty.bf16, .e5m2, .e4m3, .e2m1, .mxe5m2, .mxe4m3, .mxe2m1] := by
  simp only [draws, drawsFor, Bool.and_eq_true, beq_iff_eq, List.contains_iff_mem]

/-- How many elements of each lane a conversion reads: four of an FP6 source, else E of 15/R242. -/
def cvtPerLane (src dst : Ty) : Nat := if Ty.isFp6 src then 4 else cvtCount src dst

/-- The results of a conversion: exact from FP6, in whole blocks for an MX destination, else element by element. -/
def State.cvtOut (s : State) (f : Form) (src dst : Ty) : CvtOut :=
  if Ty.isFp6 src then s.cvtFp6 (Spec.of f.a) src dst
  else if Ty.isMx dst then s.cvtBlocks (Spec.of f.a) src dst (cvtPerLane src dst)
  else s.cvtPlain (Spec.of f.a) src dst (cvtPerLane src dst)

/-- Its results lane by lane, each with the flags of all elements of the lane. -/
def CvtOut.byLane (out : CvtOut) (dst : Ty) : List FRes :=
  out.elems.map fun es =>
    { bits := packNat (elemWidth dst) (fun j => (es.getD j ⟨0, 0⟩).bits) (perLane dst)
      flags := es.foldl (fun a e => a ||| e.flags) 0 }

/-- What a conversion writes, unit by unit of its destination. -/
def State.cvtUnits (s : State) (f : Form) (src dst : Ty) : List VWrite :=
  (List.range (cvtPerLane src dst / perLane dst)).flatMap fun u =>
    cvtWrites dst (s.me.active f) (Ty.isMx dst) (s.cvtOut f src dst) u

/-- The lanes whose generators a conversion may step: those of whole blocks for an MX destination. -/
def Group.cvtLanes (g : Group) (f : Form) (dst : Ty) : BitVec 32 :=
  if Ty.isMx dst then blockMask dst (g.active f) else g.active f

section
variable {f : Form} {s s1 s2 s3 s4 : State} {info : Info} {src dst : Ty}

/-- A conversion whose results trap nothing raises their flags, steps its generators where it draws on them, and writes. -/
theorem vcvt_completes (h : Clear (.vcvt f) info f s) (source : src = (cvtSource f).getD .f32) (dest : dst = f.type .f32)
    (legal : cvtBad s.me src dst = false) (taken : Taken (.vcvt f) info f false s s1)
    (unloaded : (draws s.me dst && s.me.loading (.opf 7)) = false)
    (quiet : fpTrap (.vcvt f) info f s.me ((s.cvtOut f src dst).byLane dst) = none)
    (raised : s2 = s1.raise (activeFlags (s.me.active f) ((s.cvtOut f src dst).byLane dst)))
    (stepped : s3 = if draws s.me dst then s2.stepSeeds (s.me.cvtLanes f dst) (cvtPerLane src dst) else s2)
    (written : writeRange (.vcvt f) s3 (Spec.of f.d) 0 (s.cvtUnits f src dst) = .ok s4) : Completes (.vcvt f) s s4 := by
  subst source dest stepped raised
  simp only [State.cvtOut, State.cvtUnits, CvtOut.byLane, cvtPerLane, Group.cvtLanes] at quiet written
  rw [Completes, exec_vcvt, execVcvt]
  refine runIf_ok h legal ?_
  simp only [taken.sources, taken.ready, unloaded, quiet, Bool.false_eq_true, if_false]
  exact written

end

/-- Settles O12: the conversion by whether it draws on its generators. -/
theorem conversion : Obligations.Conversion := by
  unfold Obligations.Conversion
  intro f s s1 info h src dst drawn legal taken loaded n m blocks out res quiet s2 s3 s4 stepped unstepped written
  have draws_drawn : draws s.me dst = true ↔ drawn := draws_iff ..
  by_cases hd : drawn
  · have draw : draws s.me dst = true := draws_drawn.2 hd
    exact vcvt_completes h rfl rfl legal taken (by rw [loaded hd, Bool.and_false]) quiet rfl
      ((stepped hd).trans (if_pos draw).symm) written
  · have noDraw : draws s.me dst ≠ true := fun draw => hd (draws_drawn.1 draw)
    exact vcvt_completes h rfl rfl legal taken (by rw [Bool.eq_false_iff.2 noDraw, Bool.false_and]) quiet rfl
      ((unstepped hd).trans (if_neg noDraw).symm) written

end Sys2Proof.Machine

/-! `vsclset` on a register in scratchpad (15/R248, 03/R36, 26/R390). -/
namespace Sys2Proof.Machine
open Sys2Proof Sys2Proof.Claims Sys2Proof.Opcode

/-- Group 1 of role V has its turn; its `v4` is slot 0 of the team's scratchpad, in whose first word a double error stands. -/
def damagedSlot : State :=
  { State.reset with
    meId := 1
    me := { team := 1, role := .v, pc := 0x1000, held := 0xFFFF, sched := .active, pmap := [(4, 0x2000_0000)] }
    teams := [(1, { state := .placed, ngroups := 1, n := 1, m := 1 })]
    spDamage := [(1, [0])] }

/-- The operands of `vsclset v4, v1`, every lane active. -/
def sclsetV4 : Form := { Form.blank with len := .ext, fn := 1, d := 4, a := 1 }

/-- The words of the team's scratchpad that hold double errors after a step. -/
def damageAfter : Host.Outcome State Fault Refusal → List Nat
  | .next t => t.spDamage.get 1 []
  | _ => []

/-- The row of `vsclset` (05/R79, R81). -/
def sclsetInfo : Info := vint 0x3F 1 [] .v .unused

theorem sclsetV4_clear : Clear (.vsclset sclsetV4) sclsetInfo sclsetV4 damagedSlot where
  row := rfl
  admitted := by rfl
  target := rfl

theorem sclsetV4_taken : Taken (.vsclset sclsetV4) sclsetInfo sclsetV4 false damagedSlot damagedSlot where
  sources := by rfl
  ready := by rfl

/-- What the statement has `v4` receive: its old lanes again, and new scale bytes. -/
def sclsetV4Write : VWrite :=
  scaledWrite (damagedSlot.me.active sclsetV4) (damagedSlot.specReg (Spec.of sclsetV4.d)).lane
    fun q => (damagedSlot.source sclsetV4.a .u32).lane (4 * q)

/-- The instruction stores no data, so the word keeps its error. -/
theorem vsclset_keeps_damage : damageAfter (exec (.vsclset sclsetV4) damagedSlot) = [0] := by decide +kernel

/-- The write of the statement stores all bytes of the word, which clears the error. -/
theorem sclsetV4Write_clears_damage : damageAfter (.next (retire (.vsclset sclsetV4) (damagedSlot.me.active sclsetV4)
    (damagedSlot.writeSlot damagedSlot.me.team (mapSlot (damagedSlot.me.entry 4)) sclsetV4Write))) = [] := by decide +kernel

/-- Refutes O14: the statement has `vsclset` store the old lanes of its destination again. In scratchpad that is a write of data,
which clears the double errors of the words it covers (26/R390); `vsclset` leaves the data (15/R248), and with it the error. -/
theorem not_seedScaleCodebook : ¬ Obligations.SeedScaleCodebook := by
  unfold Obligations.SeedScaleCodebook
  rintro ⟨-, sets, -⟩
  have completes : Completes (.vsclset sclsetV4) damagedSlot
      (damagedSlot.writeSlot damagedSlot.me.team (mapSlot (damagedSlot.me.entry 4)) sclsetV4Write) :=
    sets sclsetV4 damagedSlot damagedSlot _ _ sclsetV4_clear sclsetV4_taken
      (fun _ => 0) (by decide +kernel) (writeReg_sp (by decide) (by decide) (by decide))
  have kept := vsclset_keeps_damage
  rw [completes] at kept
  exact absurd (kept.symm.trans sclsetV4Write_clears_damage) (by decide)

end Sys2Proof.Machine

/-!
PROOF of O59. Main memory is written by four operations alone: a column (`State.writeColumn`), a coded block (`State.writeCoded`), the zeros
of a new stripe (`State.zeroStripe`) and a granule of an exchange (`State.moveGranule`). Each keeps the canonical form. Every other function
of the model has a lemma here that says that it leaves memory as it is (`_mem`), or, where it may call one of the four, that it keeps
the form (`_inv`). The lemmas stand in the order of the definitions they speak of.
-/

namespace Sys2Proof.Machine

open Sys2Proof Sys2Proof.Claims

/-- A stop that carries a state leaves its main memory in canonical form. -/
def Halt.Inv : Halt → Prop
  | .fail _ s | .held _ s | .park _ s => s.Inv
  | _ => True

/-- The state of a result, or of the stop in its place, has its main memory in canonical form. -/
def InvOf {α : Type} (st : α → State) : Except Halt α → Prop
  | .ok x => (st x).Inv
  | .error h => h.Inv

/-- The next state of an outcome, if it has one, has its main memory in canonical form. -/
def NextInv (o : Host.Outcome State Fault Refusal) : Prop := ∀ t, o = .next t → t.Inv

theorem foldl_mem {α : Type} {f : State → α → State} (h : ∀ s a, (f s a).mem = s.mem) (l : List α) (s : State) : (l.foldl f s).mem = s.mem :=
  foldl_keeps f State.mem h l s

theorem ranked_error_inv {α β : Type} {a : Except Halt α} {b : Except Halt β} (ha : ∀ e, a = .error e → e.Inv) (hb : ∀ e, b = .error e → e.Inv) :
    ∀ e, ranked a b = .error e → e.Inv := by
  fun_cases ranked a b <;> grind

theorem ranked_inv {α β : Type} {a : Except Halt α} {b : Except Halt β} {st : α → State} (ha : InvOf st a) (hb : ∀ e, b = .error e → e.Inv) :
    InvOf st (ranked a b) := by
  fun_cases ranked a b <;> grind [InvOf]

theorem InvOf.inv_of_error {α : Type} {st : α → State} {r : Except Halt α} {e : Halt} (h : InvOf st r) (he : r = .error e) : e.Inv := by
  subst he; exact h

theorem InvOf.inv_of_ok {α : Type} {st : α → State} {r : Except Halt α} {x : α} (h : InvOf st r) (he : r = .ok x) : (st x).Inv := by
  subst he; exact h

theorem InvOf.map_me {r : Except Halt State} {g : State → Group} (h : InvOf id r) : InvOf id (r.map fun s => { s with me := g s }) := by
  cases r <;> exact h

theorem Except.map_inv {α β : Type} {st : α → State} {st' : β → State} {f : α → β} {r : Except Halt α} (h : InvOf st r) (hf : ∀ x, st' (f x) = st x) :
    InvOf st' (r.map f) := by
  cases r <;> simp_all [InvOf, Except.map]

/-! ### The shared operations -/

theorem State.dropGroup_mem (s : State) (g : Nat) : (s.dropGroup g).mem = s.mem := by
  grind [State.dropGroup]

theorem State.turn_mem (s : State) (g : Nat) : (s.turn g).mem = s.mem := by
  grind [State.turn]

theorem State.noTurn_mem (s : State) : s.noTurn.mem = s.mem := by
  grind [State.noTurn]

theorem State.notePace_mem (s : State) : s.notePace.mem = s.mem := rfl

theorem State.addReport_mem (s : State) (p : Nat) (r : Report) : (s.addReport p r).mem = s.mem := rfl

theorem State.enter_mem (s : State) (g : Nat) (cycles : Nat) : (s.enter g cycles).mem = s.mem := State.modGroup_mem ..

theorem State.seat_mem (s : State) (g : Nat) : (s.seat g).mem = s.mem := State.modGroup_mem ..

theorem State.ownBank_mem (s : State) (p b r : Nat) (o : Option (Nat × Nat)) : (s.ownBank p b r o).mem = s.mem := rfl


/-! ### Issue, traps and parks -/

theorem Halt.trapInv (t : Trap) : (Halt.trap t).Inv := trivial

theorem Halt.waitInv (w : Wait) : (Halt.wait w).Inv := trivial

theorem illegal_inv (i : Instr) (g : Group) : (illegal i g).Inv := trivial

theorem placeFault_inv (i : Instr) (g : Group) (a b : Nat) : (placeFault i g a b).Inv := trivial

theorem misaligned_inv (i : Instr) (g : Group) (a : Word) : (misaligned i g a).Inv := trivial

theorem badAddress_inv (i : Instr) (g : Group) (a : Word) : (badAddress i g a).Inv := trivial

theorem InvOf.error_inv {α : Type} {st : α → State} {h : Halt} : InvOf st (.error h) = h.Inv := rfl

theorem issueCheck_inv (i : Instr) (info : Info) (f : Form) (bad : Bool) (s : State) :
    ∀ e : Halt, issueCheck i info f bad s = .error e → e.Inv := by
  fun_cases issueCheck i info f bad s <;> grind [illegal, placeFault, Halt.Inv]

theorem State.reportPark_mem (s : State) (g : Group) (t : Trap) (va : Word) (entry : Nat) : (s.reportPark g t va entry).mem = s.mem :=
  rfl

theorem State.park_mem (s : State) (t : Trap) (va : Word) (ins : Option Instr) (pos : Nat) (pc : VAddr) :
    (s.park t va ins pos pc).mem = s.mem := by
  grind [State.park, State.modCore_mem, State.reportPark_mem, State.fill_mem, State.takeTrap_mem]

theorem State.counted_mem (s : State) : s.counted.mem = s.mem := by
  grind [State.counted]

theorem settle_inv {i : Instr} {s : State} {r : Except Halt State} (h : s.Inv) (hr : InvOf id r) : NextInv (settle i s r) := by
  have hh : ∀ x, Halt.Inv (.trap x) := fun _ => trivial
  fun_cases settle i s r <;> grind [InvOf, Halt.Inv, NextInv, misaligned, retire_mem, State.takeTrap_mem, State.counted_mem,
    State.park_mem, State.Inv]

theorem runIf_inv {i : Instr} {s : State} {bad : Info → Form → Bool} {e : Info → Form → Except Halt State} (h : s.Inv)
    (he : ∀ info f, InvOf id (e info f)) : NextInv (runIf i s bad e) := by
  unfold runIf
  split
  · grind [NextInv]
  · next info f _ => exact settle_inv h (by split; exact issueCheck_inv _ _ _ _ _ _ ‹_›; exact he info f)

theorem run_inv {i : Instr} {s : State} {e : Info → Form → Except Halt State} (h : s.Inv)
    (he : ∀ info f, InvOf id (e info f)) : NextInv (run i s e) := runIf_inv h he


/-! ### Columns, granules and their codes: the writers of main memory -/

theorem State.logArray_mem (s : State) (p : Nat) (la : Nat) (ekind : Nat) (bank : Nat) (syms : Nat) (w : Who) :
    (s.logArray p la ekind bank syms w).mem = s.mem := by
  grind [State.logArray, State.modPart_mem, State.notify_mem]

theorem State.logTransfer_mem (s : State) (p : Nat) (bus : Nat) (outcome : Nat) (b : Beat) (w : Who) :
    (s.logTransfer p bus outcome b w).mem = s.mem := by
  grind [State.logTransfer, State.notify_mem, State.modPart_mem]

theorem State.correct_mem (s : State) (p : Nat) (b : Nat) (col : Nat) (syms : Nat) (w : Who) : (s.correct p b col syms w).mem = s.mem := by
  grind [State.correct, State.logArray_mem, State.modPart_mem]

theorem State.meetBeat_mem (s : State) (la : Nat) (w : Who) {t} (e : s.meetBeat la w = some t) : t.mem = s.mem := by
  grind [State.meetBeat, State.modPart_mem, State.logTransfer_mem]

theorem State.readColumn_mem (s : State) (la : Nat) (w : Who) : (s.readColumn la w).2.mem = s.mem := by
  grind [State.readColumn, State.logArray_mem, State.meetBeat_mem, State.correct_mem]

theorem State.meetColumns_mem (w : Who) (cs : List Nat) (s : State) : (State.meetColumns w cs s).2.mem = s.mem := by
  fun_induction State.meetColumns w cs s <;> grind [State.readColumn_mem]

theorem State.readOffs_mem {s : State} {la : Nat} {w : Who} {offs : List Nat} {x t} (e : s.readOffs la w offs = .ok (x, t)) :
    t.mem = s.mem := by
  grind [State.readOffs, State.meetColumns_mem]

theorem State.readOffs_error_mem {s : State} {la : Nat} {w : Who} {offs : List Nat} {x t} (e : s.readOffs la w offs = .error (x, t)) :
    t.mem = s.mem := by
  grind [State.readOffs, State.meetColumns_mem]

theorem foldl_inv {α : Type} {f : State → α → State} (h : ∀ s a, s.Inv → (f s a).Inv) (l : List α) :
    ∀ s : State, s.Inv → (l.foldl f s).Inv := by
  induction l with
  | nil => exact fun _ h => h
  | cons a l ih => exact fun s hs => ih _ (h s a hs)

theorem State.writeColumn_inv (s : State) (col : Nat) (bytes : List (Nat × Byte)) (w : Who) (h : s.Inv) :
    (s.writeColumn col bytes w).Inv := by
  have wf := fun m => Memory.wf_foldl_write (64 * col) bytes m
  grind [State.writeColumn, State.meetBeat_mem, State.correct_mem, State.logArray_mem, State.Inv]

theorem State.writeRaw_inv (s : State) (w : Who) (cells : List (Nat × Byte)) (h : s.Inv) : (s.writeRaw w cells).Inv :=
  foldl_inv (fun s _ h => s.writeColumn_inv _ _ _ h) _ _ h

theorem State.mergeColumns_mem (w : Who) (cs : List Nat) (s : State) :
    (State.mergeColumns w cs s).2.mem = s.mem ∧ ∀ t ∈ (State.mergeColumns w cs s).1, t.mem = s.mem := by
  fun_induction State.mergeColumns w cs s <;> grind [State.meetBeat_mem, State.correct_mem, State.logArray_mem]

theorem Memory.wf_foldl_writeAt {m : Memory} (at_ : Nat → Nat) (cells : List (Nat × Byte)) (h : Memory.wf m = true) :
    Memory.wf (cells.foldl (fun m c => Memory.write m (at_ c.1) c.2) m) = true := by
  induction cells generalizing m with
  | nil => exact h
  | cons c cells ih => exact ih (Memory.wf_write m _ _ h)

theorem State.writeCoded_inv (s : State) (z : Bool) (k : Nat) (cells : List (Nat × Byte)) (w : Who) (h : s.Inv) :
    (s.writeCoded z k cells w).Inv := by
  have merged : ∀ cs, (State.mergeColumns w cs s).2.Inv ∧ ∀ t ∈ (State.mergeColumns w cs s).1, t.Inv := by
    grind [State.mergeColumns_mem, State.Inv]
  unfold State.writeCoded
  dsimp only
  split
  · next t e => exact (congrArg (fun r : Option State × State => r.2.Inv) e).mp (merged _).1
  · next u t e =>
    have hu : u.Inv := (merged _).2 u (by rw [e]; rfl)
    split
    · next v b =>
      obtain ⟨c, -, hc⟩ := List.exists_of_findSome?_eq_some b
      exact (congrArg (Memory.wf · = true) (State.meetBeat_mem _ _ _ hc)).mpr hu
    · exact Memory.wf_foldl_writeAt u.located cells hu

theorem State.writeRuns_inv (s : State) (la : Nat) (w : Who) (runs : List (Nat × List Byte)) (h : s.Inv) : (s.writeRuns la w runs).Inv :=
  foldl_inv (fun s _ h => s.writeCoded_inv _ _ _ _ h) _ _ (s.writeRaw_inv _ _ h)

theorem State.applyHome_inv {s : State} {la : Nat} {w : Who} {op : HomeOp} {x t} (h : s.Inv) (e : s.applyHome la w op = .ok (x, t)) :
    t.Inv := by
  grind [State.applyHome, State.writeRuns_inv, State.readOffs_mem, State.Inv]

theorem State.applyHome_error_inv {s : State} {la : Nat} {w : Who} {op : HomeOp} {x t} (h : s.Inv) (e : s.applyHome la w op = .error (x,
  t)) : t.Inv := by
  grind [State.applyHome, State.readOffs_error_mem, State.Inv]


/-! ### Translation -/

theorem State.refuse_mem (s : State) (la : Nat) : (s.refuse la).mem = s.mem := by
  grind [State.refuse, State.logArray_mem]

theorem State.entryAt_mem (s : State) (p : Nat) (a : Nat) (w : Who) : (s.entryAt p a w).2.mem = s.mem := by
  grind [State.entryAt, State.refuse_mem, State.readOffs_mem, State.readOffs_error_mem]

theorem State.walkFrom_mem (p va : Nat) (w : Who) (table : Nat) (s : State) (ls : List (Nat × Nat)) :
    (State.walkFrom p va w table s ls).2.mem = s.mem := by
  fun_induction State.walkFrom p va w table s ls <;> grind [State.entryAt_mem]

theorem State.treeWalk_mem (s : State) (p : Nat) (va : Nat) (w : Who) : (s.treeWalk p va w).2.mem = s.mem := State.walkFrom_mem ..

theorem State.walk_mem (s : State) (p : Nat) (va : Nat) (w : Who) : (s.walk p va w).2.mem = s.mem := by
  grind [State.walk, State.treeWalk_mem]

theorem State.lookup_mem (s : State) (p : Nat) (core : Nat) (va : Nat) (w : Who) : (s.lookup p core va w).2.mem = s.mem := by
  grind [State.lookup, State.walk_mem]

theorem State.translate_mem (s : State) (p : Nat) (core : Nat) (va : Nat) (w : Who) (write : Bool) (fetch : Bool) :
    (s.translate p core va w write fetch).2.mem = s.mem := by
  grind [State.translate, State.lookup_mem]

theorem State.invalidate_mem (s : State) (cores : Nat → Bool) (va : Nat) (n : Nat) : (s.invalidate cores va n).mem = s.mem := rfl

theorem State.invalidatePart_mem (s : State) (p : Nat) (va : Nat) (n : Nat) : (s.invalidatePart p va n).mem = s.mem := rfl

theorem State.fillLeaf_mem (s : State) (core : Nat) (va : Nat) (shared : Bool) : (s.fillLeaf core va shared).mem = s.mem := by
  grind [State.fillLeaf, State.modCluster_mem, State.modCore_mem, State.walk_mem]


/-! ### Accesses and the combining buffer -/

theorem State.modQueue_mem (s : State) (p : Nat) (q : Nat) (f : Inbound → Inbound) : (s.modQueue p q f).mem = s.mem := rfl

theorem State.controlStore_mem (s : State) (p : Nat) (n : Nat) (x : Word) : (s.controlStore p n x).mem = s.mem := rfl

theorem State.consStore_mem (s : State) (p : Nat) (n : Nat) (x : Word) : (s.consStore p n x).mem = s.mem := rfl

theorem State.fieldStore_mem (s : State) (p : Nat) (n : Nat) (field : Nat) (x : Word) : (s.fieldStore p n field x).mem = s.mem := rfl

theorem State.descStore_mem (s : State) (p : Nat) (off : Nat) (x : Word) : (s.descStore p off x).mem = s.mem := by
  grind [State.descStore, State.consStore_mem, State.fieldStore_mem, State.controlStore_mem]

theorem State.sendWrite_mem (s : State) (g : Nat) (va : Nat) (la : Nat) (bs : List Byte) : (s.sendWrite g va la bs).mem = s.mem :=
  State.modGroup_mem ..

theorem State.sendLine_mem (g : Nat) (s : State) (l : WcLine) : (s.sendLine g l).mem = s.mem :=
  foldl_mem (fun s _ => s.sendWrite_mem ..) _ _

theorem State.drainWc_mem (s : State) (g : Nat) : (s.drainWc g).mem = s.mem := by
  unfold State.drainWc
  split
  · rfl
  · rw [foldl_mem (State.sendLine_mem g), State.setGroup_mem]

theorem State.combine_mem (s : State) (va : Nat) (la : Nat) (b : Byte) : (s.combine va la b).mem = s.mem := by
  grind [State.combine, State.sendLine_mem]

theorem State.combineRuns_mem (s : State) (va la : Nat) (runs : List (Nat × List Byte)) : (s.combineRuns va la runs).mem = s.mem :=
  foldl_mem (fun s _ => foldl_mem (fun s _ => s.combine_mem ..) _ s) _ _

theorem ask_inv (i : Instr) (s : State) (va : Word) (due : Nat) (mine : Map Byte) (send : Nat → Outgoing) (again : Bool) (h : s.Inv) :
    InvOf (·.2) (ask i s va due mine send again) := by
  grind [ask, State.Inv, Halt.Inv, InvOf, NextInv]

theorem askRemote_inv (i : Instr) (s : State) (va : Word) (module : Nat) (la : Nat) (op : HomeOp) (again : Bool) (h : s.Inv) :
    InvOf (·.2) (askRemote i s va module la op again) :=
  ask_inv _ _ _ _ _ _ _ h

theorem State.acknowledged_inv (s : State) (rel : Bool) (sys : Bool) (h : s.Inv) : InvOf (fun _ => s) (s.acknowledged rel sys) := by
  grind [State.acknowledged, State.Inv, Halt.Inv, InvOf, NextInv]

theorem ramOp_inv (i : Instr) (s : State) (va : Word) (la n source : Nat) (op : HomeOp) (h : s.Inv) :
    InvOf (·.2) (ramOp i s va la n source op) := by
  grind [ramOp, State.Inv, Halt.Inv, InvOf, State.refuse_mem, State.applyHome_inv, State.applyHome_error_inv]

theorem translated_inv (i : Instr) (s : State) (va : Word) (write : Bool) (h : s.Inv) : InvOf (·.2.2) (translated i s va write) := by
  grind [translated, State.Inv, Halt.Inv, InvOf, NextInv, State.translate_mem]

theorem inOrder_inv {g : Group} {k : Home} {n : Nat} {rel : Bool} {e : Halt} (h : g.inOrder k n rel = .error e) : e.Inv := by
  grind [Group.inOrder, Halt.Inv]

theorem acknowledged_inv {s : State} (rel sys : Bool) (hs : s.Inv) : InvOf (fun _ => s) (s.acknowledged rel sys) := by
  grind [State.acknowledged, Halt.Inv, InvOf]

theorem returned_inv {g : Group} {rel : Bool} {e : Halt} (h : g.returned rel = .error e) : e.Inv := by
  grind [Group.returned, Halt.Inv]

theorem loadBytes_inv (i : Instr) (s : State) (va : Word) (n : Nat) (offs : List Nat) (scalar : Bool) (h : s.Inv) :
    InvOf (·.2) (loadBytes i s va n offs scalar) := by
  have tr := translated_inv i s va false h
  fun_cases loadBytes i s va n offs scalar <;> grind [inOrder_inv, State.readOffs_mem, State.readOffs_error_mem, State.refuse_mem,
    ask_inv, askRemote_inv, State.Inv, InvOf, Halt.Inv]

theorem State.release_mem (s : State) (rel : Bool) (wide : Bool) : (s.release rel wide).mem = s.mem := by
  grind [State.release, State.drainWc_mem]

theorem storeRuns_inv (i : Instr) (s : State) (va : Word) (n : Nat) (runs : List (Nat × List Byte)) (scalar rel wide sys : Bool) (h
  : s.Inv) :
    InvOf id (storeRuns i s va n runs scalar rel wide sys) := by
  have tr := translated_inv i s va true h
  fun_cases storeRuns i s va n runs scalar rel wide sys <;> grind [inOrder_inv, acknowledged_inv, ramOp_inv, askRemote_inv,
    State.release_mem, State.Inv, InvOf, Halt.Inv, State.descStore_mem, State.modPart_mem, foldl_mem, State.combineRuns_mem,
    State.sendWrite_mem, Except.map_inv]

theorem ringOp_mem (s : State) (w : Nat) (op : HomeOp) : (ringOp s w op).2.mem = s.mem := by
  cases op with
  | xrd wide clear => cases clear <;> rfl
  | _ => rfl

theorem homeAccess_inv (i : Instr) (s : State) (va : Word) (n : Nat) (op : HomeOp) (scalar rel wide sys : Bool) (h : s.Inv) :
    InvOf (·.2) (homeAccess i s va n op scalar rel wide sys) := by
  have tr := fun b => translated_inv i s va b h
  fun_cases homeAccess i s va n op scalar rel wide sys <;> grind [inOrder_inv, acknowledged_inv, ramOp_inv, askRemote_inv, ask_inv,
    State.release_mem, State.drainWc_mem, State.Inv, InvOf, Halt.Inv, ringOp_mem]


/-! ### The scratchpad -/

theorem State.followLines_mem (s : State) (t : Nat) : (s.followLines t).mem = s.mem := rfl


/-! ### Operands and destinations -/

theorem State.setBankReg_mem (s : State) (p : Nat) (b : Nat) (r : Nat) (v : VReg) : (s.setBankReg p b r v).mem = s.mem := rfl

theorem popOne_inv (i : Instr) (s : State) (n : Nat) (h : s.Inv) : InvOf id (popOne i s n) := by
  grind [popOne, State.Inv, Halt.Inv, InvOf, NextInv, State.modCulvert_mem]

theorem popAll_inv (i : Instr) (s : State) (ns : List Nat) (h : s.Inv) : InvOf id (popAll i s ns) := by
  fun_induction popAll i s ns <;> grind [popOne_inv, InvOf]

theorem spFault_inv (i : Instr) (s : State) (x : Nat) (h : s.Inv) : (spFault i s x).Inv := by
  grind [spFault, State.Inv, Halt.Inv, InvOf, NextInv, State.logArray_mem]

theorem slotGate_inv (info : Info) (s : State) (i : Instr) (f : Form) (h : s.Inv) : InvOf (fun _ => s) (slotGate info s i f) := by
  have keeps : ∀ (r : Except Halt Unit) (g : Except Halt Unit → Nat → Except Halt Unit) (ns : List Nat),
      (∀ r n, InvOf (fun _ => s) r → InvOf (fun _ => s) (g r n)) → InvOf (fun _ => s) r → InvOf (fun _ => s) (ns.foldl g r) := by
    intro r g ns hg hr
    induction ns generalizing r with
    | nil => exact hr
    | cons n ns ih => exact ih _ (hg r n hr)
  refine keeps _ _ _ (fun r n hr => ?_) h
  have fault : ∀ x, (spFault i s x).Inv := fun x => spFault_inv i s x h
  grind [InvOf, Halt.Inv]

theorem readSources_inv (i : Instr) (info : Info) (f : Form) (always : Bool) (s : State) (h : s.Inv) :
    InvOf id (readSources i info f always s) := by
  grind [readSources, State.Inv, Halt.Inv, InvOf, NextInv, slotGate_inv, popAll_inv]

theorem pushCulvert_inv (i : Instr) (s : State) (n : Nat) (v : VReg) (h : s.Inv) : InvOf id (pushCulvert i s n v) := by
  grind [pushCulvert, State.Inv, Halt.Inv, InvOf, NextInv, State.modCulvert_mem]

theorem writeReg_inv (i : Instr) (s : State) (x : Spec) (w : VWrite) (first : Bool) (h : s.Inv) : InvOf id (writeReg i s x w first) := by
  fun_cases writeReg i s x w first <;> grind [State.Inv, Halt.Inv, InvOf, NextInv, State.writeSlot_mem, State.setBankReg_mem,
    pushCulvert_inv, foldl_mem]

theorem destReady_inv (i : Instr) (info : Info) (f : Form) (s : State) (h : s.Inv) : InvOf (fun _ => s) (destReady i info f s) := by
  grind [destReady, State.Inv, Halt.Inv, InvOf, NextInv, pushCulvert_inv]

theorem writeRange_inv (i : Instr) (s : State) (x : Spec) (j : Nat) (ws : List VWrite) (h : s.Inv) : InvOf id (writeRange i s x j ws) := by
  fun_induction writeRange i s x j ws <;> grind [writeReg_inv, InvOf]


/-! ### Loads and stores -/

theorem alignCheck_inv {i : Instr} {g : Group} {x : Word} {n : Nat} {e : Halt} (h : alignCheck i g x n = .error e) : e.Inv := by
  grind [alignCheck, misaligned, Halt.Inv]

theorem globalCheck_inv {i : Instr} {g : Group} {x : Word} {n : Nat} {e : Halt} (h : globalCheck i g x n = .error e) : e.Inv := by
  grind [globalCheck, badAddress, Halt.Inv, alignCheck_inv]

theorem scratchCheck_inv {i : Instr} {s : State} {x : Word} {n : Nat} {e : Halt} (h : scratchCheck i s x n = .error e) : e.Inv := by
  grind [scratchCheck, badAddress, Halt.Inv, alignCheck_inv]

theorem loadVector_inv (i : Instr) (s : State) (f : Form) (act : BitVec 32) (bs : List Byte) (h : s.Inv) :
    InvOf id (loadVector i s f act bs) :=
  writeReg_inv _ _ _ _ _ h

theorem loadScalar_mem (s : State) (f : Form) (t : Ty) (bs : List Byte) : (loadScalar s f t bs).mem = s.mem := rfl

theorem destReady_error_inv {i : Instr} {info : Info} {f : Form} {s : State} (h : s.Inv) :
    ∀ e, destReady i info f s = .error e → e.Inv := by
  grind [destReady, pushCulvert_inv, InvOf]

@[simp] theorem execLd_inv (f : Form) (s : State) (h : s.Inv) : NextInv (execLd f s) := by
  refine run_inv h fun info f => ?_
  have bytes := fun a b c d => loadBytes_inv (.ld f) s a b c d h
  have ranks := fun a b c d => ranked_inv (b := destReady (.ld f) info f s) (bytes a b c d) (destReady_error_inv h)
  dsimp only
  repeat' split
  all_goals grind [InvOf, globalCheck_inv, loadVector_inv, loadScalar_mem, State.Inv]

@[simp] theorem execSt_inv (f : Form) (s : State) (h : s.Inv) : NextInv (execSt f s) := by
  refine run_inv h fun info f => ?_
  have released : ∀ (rel wide : Bool), (s.release rel wide).Inv := by grind [State.release_mem, State.Inv]
  have own : ∀ e, readSources (.st f) info f false s = .error e → e.Inv := fun e => (readSources_inv _ _ _ _ _ h).inv_of_error
  have stored := fun a b c d e g k => ranked_inv (storeRuns_inv (.st f) s a b c d e g k h) own
  dsimp only
  split
  · split
    · exact returned_inv ‹_›
    · exact Except.map_inv (acknowledged_inv _ _ (released _ _)) fun _ => rfl
  · split
    · exact globalCheck_inv ‹_›
    · split
      · exact (stored _ _ _ _ _ _ _).inv_of_error ‹_›
      · exact readSources_inv _ _ _ _ _ ((stored _ _ _ _ _ _ _).inv_of_ok ‹_›)

theorem spLoadGate_inv (i : Instr) (s : State) (x : Nat) (bs : List Nat) (h : s.Inv) : InvOf (fun _ => s) (spLoadGate i s x bs) := by
  grind [spLoadGate, State.Inv, Halt.Inv, InvOf, NextInv, spFault_inv]

@[simp] theorem execLdSp_inv (f : Form) (s : State) (h : s.Inv) : NextInv (execLdSp f s) := by
  refine run_inv h fun info f => ?_
  grind [NextInv, State.Inv, InvOf, Halt.Inv, illegal_inv, misaligned_inv, loadScalar_mem, loadVector_inv, scratchCheck_inv, spLoadGate_inv]

theorem State.spRuns_mem (s : State) (t : Nat) (x : Nat) (runs : List (Nat × List Byte)) : (s.spRuns t x runs).mem = s.mem :=
  State.spStore_mem ..

@[simp] theorem execStSp_inv (f : Form) (s : State) (h : s.Inv) : NextInv (execStSp f s) := by
  refine run_inv h fun info f => ?_
  grind [NextInv, State.Inv, InvOf, Halt.Inv, illegal_inv, misaligned_inv, scratchCheck_inv, State.spRuns_mem, readSources_inv]

theorem State.splitRam_mem (s : State) (y : Group) (l : Split) (la : Nat) : (s.splitRam y l la).2.mem = s.mem :=
  foldl_keeps _ (fun acc : List Nat × State => acc.2.mem) (fun acc c => acc.2.readColumn_mem ..) _ ([], s)

theorem State.splitFinds_mem (s : State) (y : Group) (l : Split) {t} (e : s.splitFinds y l = some t) : t.2.mem = s.mem := by
  grind [State.splitFinds, State.splitRam_mem]

theorem State.sendSplit_mem (s : State) (l : Split) : (s.sendSplit l).mem = s.mem := by
  unfold State.sendSplit
  dsimp only
  split
  · rfl
  · rfl
  · split
    · exact State.splitFinds_mem _ _ _ ‹_›
    · rfl

theorem splitAllowed_inv {i : Instr} {s : State} {va : Word} {k : Home} (hs : s.Inv) : ∀ e, splitAllowed i s va k = .error e → e.Inv := by
  fun_cases splitAllowed i s va k <;> grind [Halt.Inv, State.refuse_mem, State.Inv]

@[simp] theorem execLds_inv (f : Form) (s : State) (h : s.Inv) : NextInv (execLds f s) := by
  refine run_inv h fun info f => ?_
  have found := fun x => translated_inv (.lds f) s x false h
  have sent : ∀ (t : State) (l : Split) (g : Group), t.Inv → ({ t.sendSplit l with me := g } : State).Inv := by
    grind [State.sendSplit_mem, State.Inv]
  dsimp only
  split
  · exact h
  · split
    · exact globalCheck_inv ‹_›
    · split
      · exact trivial
      · split
        · exact trivial
        · split
          · have := (found _).inv_of_error ‹_›
            exact this
          · exact (found _).inv_of_error ‹_›
          · next home sc t ok =>
            have ht : t.Inv := (found _).inv_of_ok ok
            split
            · exact ranked_error_inv (splitAllowed_inv ht) (fun e => inOrder_inv) _ ‹_›
            · exact sent _ _ _ ht

theorem State.landReg_mem (s : State) (g : Nat) (inner : Bool) (x : Spec) (w : VWrite) : (s.landReg g inner x w).mem = s.mem := by
  fun_cases State.landReg s g inner x w <;> grind [State.modGroup_mem, State.writeSlot_mem, foldl_mem]

theorem State.landSplit_mem (s : State) (g : Nat) (n : Nat) : (s.landSplit g n).mem = s.mem := by
  fun_cases State.landSplit s g n
  · rfl
  · rfl
  · next l _ xs bad t found mask u =>
    rw [State.modGroup_mem, State.landReg_mem]
    cases got : l.got with
    | none => exact State.splitFinds_mem _ _ _ (by simpa [got] using found)
    | some r => simp_all

@[simp] theorem execLdsReply_inv (g : Nat) (n : Nat) (s : State) (h : s.Inv) : NextInv (execLdsReply g n s) := by
  grind [execLdsReply, NextInv, State.Inv, State.landSplit_mem]

@[simp] theorem execKwait_inv (f : Form) (s : State) (h : s.Inv) : NextInv (execKwait f s) := by
  refine run_inv h fun info f => ?_
  grind [NextInv, State.Inv, InvOf, Halt.Inv, illegal_inv, misaligned_inv]

@[simp] theorem execFence_inv (f : Form) (s : State) (h : s.Inv) : NextInv (execFence f s) := by
  refine run_inv h fun info f => ?_
  have drained : (if (f.ord == 1) = true then s else s.drainWc s.meId).Inv := by grind [State.drainWc_mem, State.Inv]
  dsimp only
  split
  · exact returned_inv ‹_›
  · exact Except.map_inv (acknowledged_inv _ _ drained) fun _ => rfl

theorem State.setBarrier_mem (s : State) (g : Group) (cohort : Bool) (b : Barrier) : (s.setBarrier g cohort b).mem = s.mem := by
  grind [State.setBarrier, State.modTeam_mem, State.modCohort_mem]

@[simp] theorem execBar_inv (f : Form) (s : State) (h : s.Inv) : NextInv (execBar f s) := by
  refine run_inv h fun info f => ?_
  grind [NextInv, State.Inv, InvOf, Halt.Inv, illegal_inv, misaligned_inv, State.setBarrier_mem, State.drainWc_mem]

theorem State.endTeamBar_mem (s : State) (t : Nat) : (s.endTeamBar t).mem = s.mem := by
  grind [State.endTeamBar, State.modTeam_mem]

theorem State.endCohortBar_mem (s : State) (k : Nat) : (s.endCohortBar k).mem = s.mem := by
  grind [State.endCohortBar, State.modCohort_mem]

theorem State.withdrawBar_mem (s : State) (g : Nat) : (s.withdrawBar g).mem = s.mem := by
  grind [State.withdrawBar, State.modGroup_mem, State.setBarrier_mem]

theorem State.timeOut_mem (s : State) (g : Nat) (device : Bool) : (s.timeOut g device).mem = s.mem := State.modGroup_mem ..

@[simp] theorem execRemoteTimeout_inv (s : State) (h : s.Inv) : NextInv (execRemoteTimeout s) := by
  grind [execRemoteTimeout, NextInv, State.Inv, State.timeOut_mem]

@[simp] theorem execDeviceCompletionTimeout_inv (s : State) (h : s.Inv) : NextInv (execDeviceCompletionTimeout s) := by
  grind [execDeviceCompletionTimeout, NextInv, State.Inv, State.timeOut_mem]

theorem State.answer_mem (s : State) (g : Nat) (seq : Nat) (ok : Bool) (bytes : List Byte) : (s.answer g seq ok bytes).mem = s.mem :=
  State.modGroup_mem ..

@[simp] theorem execDeviceCompletion_inv (g : Nat) (seq : Nat) (ok : Bool) (bytes : List Byte) (s : State) (h : s.Inv) :
    NextInv (execDeviceCompletion g seq ok bytes s) := by
  grind [execDeviceCompletion, NextInv, State.Inv, State.answer_mem]

@[simp] theorem execWcIdleDrain_inv (s : State) (h : s.Inv) : NextInv (execWcIdleDrain s) := by
  grind [execWcIdleDrain, NextInv, State.Inv, State.drainWc_mem]


/-! ### Scalar arithmetic -/

theorem scalarOp_inv (i : Instr) (s : State) (op : Nat → Nat → Nat → Nat) (h : s.Inv) : NextInv (scalarOp i s op) := by
  refine run_inv h fun info f => ?_
  grind [NextInv, State.Inv, InvOf, Halt.Inv, illegal_inv, misaligned_inv, State.setScalar_mem]

@[simp] theorem execMov_inv (f : Form) (s : State) (h : s.Inv) : NextInv (execMov f s) := by
  refine run_inv h fun info f => ?_
  grind [NextInv, State.Inv, InvOf, Halt.Inv, illegal_inv, misaligned_inv, State.setScalar_mem]

@[simp] theorem execAdd_inv (f : Form) (s : State) (h : s.Inv) : NextInv (execAdd f s) := scalarOp_inv _ _ _ h

@[simp] theorem execSub_inv (f : Form) (s : State) (h : s.Inv) : NextInv (execSub f s) := scalarOp_inv _ _ _ h

@[simp] theorem execMul_inv (f : Form) (s : State) (h : s.Inv) : NextInv (execMul f s) := scalarOp_inv _ _ _ h

@[simp] theorem execMulh_inv (f : Form) (s : State) (h : s.Inv) : NextInv (execMulh f s) := scalarOp_inv _ _ _ h

@[simp] theorem execMulhu_inv (f : Form) (s : State) (h : s.Inv) : NextInv (execMulhu f s) := scalarOp_inv _ _ _ h

@[simp] theorem execDiv_inv (f : Form) (s : State) (h : s.Inv) : NextInv (execDiv f s) := scalarOp_inv _ _ _ h

@[simp] theorem execDivu_inv (f : Form) (s : State) (h : s.Inv) : NextInv (execDivu f s) := scalarOp_inv _ _ _ h

@[simp] theorem execRem_inv (f : Form) (s : State) (h : s.Inv) : NextInv (execRem f s) := scalarOp_inv _ _ _ h

@[simp] theorem execRemu_inv (f : Form) (s : State) (h : s.Inv) : NextInv (execRemu f s) := scalarOp_inv _ _ _ h

@[simp] theorem execAnd_inv (f : Form) (s : State) (h : s.Inv) : NextInv (execAnd f s) := scalarOp_inv _ _ _ h

@[simp] theorem execOr_inv (f : Form) (s : State) (h : s.Inv) : NextInv (execOr f s) := scalarOp_inv _ _ _ h

@[simp] theorem execXor_inv (f : Form) (s : State) (h : s.Inv) : NextInv (execXor f s) := scalarOp_inv _ _ _ h

@[simp] theorem execAndn_inv (f : Form) (s : State) (h : s.Inv) : NextInv (execAndn f s) := scalarOp_inv _ _ _ h

@[simp] theorem execShl_inv (f : Form) (s : State) (h : s.Inv) : NextInv (execShl f s) := scalarOp_inv _ _ _ h

@[simp] theorem execShr_inv (f : Form) (s : State) (h : s.Inv) : NextInv (execShr f s) := scalarOp_inv _ _ _ h

@[simp] theorem execSra_inv (f : Form) (s : State) (h : s.Inv) : NextInv (execSra f s) := scalarOp_inv _ _ _ h

@[simp] theorem execRol_inv (f : Form) (s : State) (h : s.Inv) : NextInv (execRol f s) := scalarOp_inv _ _ _ h

theorem minmaxOp_inv (i : Instr) (s : State) (signed : Bool) (greater : Bool) (h : s.Inv) : NextInv (minmaxOp i s signed greater) := by
  refine run_inv h fun info f => ?_
  grind [NextInv, State.Inv, InvOf, Halt.Inv, illegal_inv, misaligned_inv, State.setScalar_mem]

@[simp] theorem execMin_inv (f : Form) (s : State) (h : s.Inv) : NextInv (execMin f s) := minmaxOp_inv _ _ _ _ h

@[simp] theorem execMax_inv (f : Form) (s : State) (h : s.Inv) : NextInv (execMax f s) := minmaxOp_inv _ _ _ _ h

@[simp] theorem execMinu_inv (f : Form) (s : State) (h : s.Inv) : NextInv (execMinu f s) := minmaxOp_inv _ _ _ _ h

@[simp] theorem execMaxu_inv (f : Form) (s : State) (h : s.Inv) : NextInv (execMaxu f s) := minmaxOp_inv _ _ _ _ h

@[simp] theorem execCmp_inv (f : Form) (s : State) (h : s.Inv) : NextInv (execCmp f s) := by
  refine run_inv h fun info f => ?_
  grind [NextInv, State.Inv, InvOf, Halt.Inv, illegal_inv, misaligned_inv, State.setPred_mem]

@[simp] theorem execSel_inv (f : Form) (s : State) (h : s.Inv) : NextInv (execSel f s) := by
  refine run_inv h fun info f => ?_
  grind [NextInv, State.Inv, InvOf, Halt.Inv, illegal_inv, misaligned_inv, State.setScalar_mem]

@[simp] theorem execClz_inv (f : Form) (s : State) (h : s.Inv) : NextInv (execClz f s) := by
  refine run_inv h fun info f => ?_
  grind [NextInv, State.Inv, InvOf, Halt.Inv, illegal_inv, misaligned_inv, State.setScalar_mem]

@[simp] theorem execCtz_inv (f : Form) (s : State) (h : s.Inv) : NextInv (execCtz f s) := by
  refine run_inv h fun info f => ?_
  grind [NextInv, State.Inv, InvOf, Halt.Inv, illegal_inv, misaligned_inv, State.setScalar_mem]

@[simp] theorem execPopc_inv (f : Form) (s : State) (h : s.Inv) : NextInv (execPopc f s) := by
  refine run_inv h fun info f => ?_
  grind [NextInv, State.Inv, InvOf, Halt.Inv, illegal_inv, misaligned_inv, State.setScalar_mem]

@[simp] theorem execSxt_inv (f : Form) (s : State) (h : s.Inv) : NextInv (execSxt f s) := by
  refine run_inv h fun info f => ?_
  grind [NextInv, State.Inv, InvOf, Halt.Inv, illegal_inv, misaligned_inv, State.setScalar_mem]

@[simp] theorem execZxt_inv (f : Form) (s : State) (h : s.Inv) : NextInv (execZxt f s) := by
  refine run_inv h fun info f => ?_
  grind [NextInv, State.Inv, InvOf, Halt.Inv, illegal_inv, misaligned_inv, State.setScalar_mem]


/-! ### Integer vectors -/

theorem elementOp_inv (i : Instr) (s : State) (op : Nat → Bool → Nat → Nat → Nat → Nat) (h : s.Inv) : NextInv (elementOp i s op) := by
  refine run_inv h fun info f => ?_
  grind [NextInv, State.Inv, InvOf, Halt.Inv, illegal_inv, misaligned_inv, writeReg_inv, readSources_inv, destReady_inv]

@[simp] theorem execVaddInt_inv (f : Form) (s : State) (h : s.Inv) : NextInv (execVaddInt f s) := elementOp_inv _ _ _ h

@[simp] theorem execVsubInt_inv (f : Form) (s : State) (h : s.Inv) : NextInv (execVsubInt f s) := elementOp_inv _ _ _ h

@[simp] theorem execVmulInt_inv (f : Form) (s : State) (h : s.Inv) : NextInv (execVmulInt f s) := elementOp_inv _ _ _ h

@[simp] theorem execVmulh_inv (f : Form) (s : State) (h : s.Inv) : NextInv (execVmulh f s) := elementOp_inv _ _ _ h

@[simp] theorem execVmad_inv (f : Form) (s : State) (h : s.Inv) : NextInv (execVmad f s) := elementOp_inv _ _ _ h

@[simp] theorem execVand_inv (f : Form) (s : State) (h : s.Inv) : NextInv (execVand f s) := elementOp_inv _ _ _ h

@[simp] theorem execVor_inv (f : Form) (s : State) (h : s.Inv) : NextInv (execVor f s) := elementOp_inv _ _ _ h

@[simp] theorem execVxor_inv (f : Form) (s : State) (h : s.Inv) : NextInv (execVxor f s) := elementOp_inv _ _ _ h

@[simp] theorem execVandn_inv (f : Form) (s : State) (h : s.Inv) : NextInv (execVandn f s) := elementOp_inv _ _ _ h

@[simp] theorem execVshl_inv (f : Form) (s : State) (h : s.Inv) : NextInv (execVshl f s) := elementOp_inv _ _ _ h

@[simp] theorem execVshr_inv (f : Form) (s : State) (h : s.Inv) : NextInv (execVshr f s) := elementOp_inv _ _ _ h

@[simp] theorem execVsra_inv (f : Form) (s : State) (h : s.Inv) : NextInv (execVsra f s) := elementOp_inv _ _ _ h

@[simp] theorem execVminInt_inv (f : Form) (s : State) (h : s.Inv) : NextInv (execVminInt f s) := elementOp_inv _ _ _ h

@[simp] theorem execVmaxInt_inv (f : Form) (s : State) (h : s.Inv) : NextInv (execVmaxInt f s) := elementOp_inv _ _ _ h

@[simp] theorem execVcmpInt_inv (f : Form) (s : State) (h : s.Inv) : NextInv (execVcmpInt f s) := elementOp_inv _ _ _ h

@[simp] theorem execVsel_inv (f : Form) (s : State) (h : s.Inv) : NextInv (execVsel f s) := elementOp_inv _ _ _ h

@[simp] theorem execVclz_inv (f : Form) (s : State) (h : s.Inv) : NextInv (execVclz f s) := elementOp_inv _ _ _ h

@[simp] theorem execVpopc_inv (f : Form) (s : State) (h : s.Inv) : NextInv (execVpopc f s) := elementOp_inv _ _ _ h

theorem laneOp_inv (i : Instr) (s : State) (op : Ty → Nat → Nat) (h : s.Inv) : NextInv (laneOp i s op) := by
  refine run_inv h fun info f => ?_
  grind [NextInv, State.Inv, InvOf, Halt.Inv, illegal_inv, misaligned_inv, writeReg_inv, readSources_inv, destReady_inv]

@[simp] theorem execVpack_inv (f : Form) (s : State) (h : s.Inv) : NextInv (execVpack f s) := laneOp_inv _ _ _ h

@[simp] theorem execVunpack_inv (f : Form) (s : State) (h : s.Inv) : NextInv (execVunpack f s) := laneOp_inv _ _ _ h

@[simp] theorem execVmov_inv (f : Form) (s : State) (h : s.Inv) : NextInv (execVmov f s) := by
  refine run_inv h fun info f => ?_
  grind [NextInv, State.Inv, InvOf, Halt.Inv, illegal_inv, misaligned_inv, writeReg_inv, readSources_inv, destReady_inv]

@[simp] theorem execVcmppInt_inv (f : Form) (s : State) (h : s.Inv) : NextInv (execVcmppInt f s) := by
  refine run_inv h fun info f => ?_
  grind [NextInv, State.Inv, InvOf, Halt.Inv, illegal_inv, misaligned_inv, State.setPred_mem, readSources_inv]

@[simp] theorem execVget_inv (f : Form) (s : State) (h : s.Inv) : NextInv (execVget f s) := by
  refine run_inv h fun info f => ?_
  grind [NextInv, State.Inv, InvOf, Halt.Inv, illegal_inv, misaligned_inv, readSources_inv, State.setScalar_mem]

theorem shuffleOp_inv (i : Instr) (s : State) (sel : Nat → Nat → Nat) (h : s.Inv) : NextInv (shuffleOp i s sel) := by
  refine run_inv h fun info f => ?_
  grind [NextInv, State.Inv, InvOf, Halt.Inv, illegal_inv, misaligned_inv, writeReg_inv, readSources_inv, destReady_inv]

@[simp] theorem execVshflIdx_inv (f : Form) (s : State) (h : s.Inv) : NextInv (execVshflIdx f s) := shuffleOp_inv _ _ _ h

@[simp] theorem execVshflUp_inv (f : Form) (s : State) (h : s.Inv) : NextInv (execVshflUp f s) := shuffleOp_inv _ _ _ h

@[simp] theorem execVshflDn_inv (f : Form) (s : State) (h : s.Inv) : NextInv (execVshflDn f s) := shuffleOp_inv _ _ _ h

@[simp] theorem execVshflXor_inv (f : Form) (s : State) (h : s.Inv) : NextInv (execVshflXor f s) := shuffleOp_inv _ _ _ h

@[simp] theorem execVshflBc_inv (f : Form) (s : State) (h : s.Inv) : NextInv (execVshflBc f s) := shuffleOp_inv _ _ _ h

@[simp] theorem execQswz_inv (f : Form) (s : State) (h : s.Inv) : NextInv (execQswz f s) := by
  refine run_inv h fun info f => ?_
  grind [NextInv, State.Inv, InvOf, Halt.Inv, illegal_inv, misaligned_inv, writeReg_inv, readSources_inv, destReady_inv]


/-! ### Floating-point vectors -/

theorem State.raise_mem (s : State) (flags : Nat) : (s.raise flags).mem = s.mem := rfl

theorem fpFinish_inv (i : Instr) (info : Info) (f : Form) (g : Group) (s : State) (wide : Bool) (res : List FRes) (h : s.Inv) :
    InvOf id (fpFinish i info f g s wide res) := by
  grind [fpFinish, State.Inv, Halt.Inv, InvOf, NextInv, State.raise_mem, writeRange_inv]

theorem fpElem_inv (i : Instr) (s : State) (rounds : Bool) (op : Fmt → Nat → Nat → Nat → FRes) (h : s.Inv) :
    NextInv (fpElem i s rounds op) := by
  refine runIf_inv h fun info f => ?_
  grind [NextInv, State.Inv, InvOf, Halt.Inv, illegal_inv, misaligned_inv, fpFinish_inv, readSources_inv, destReady_inv]

@[simp] theorem execVaddFp_inv (f : Form) (s : State) (h : s.Inv) : NextInv (execVaddFp f s) := fpElem_inv _ _ _ _ h

@[simp] theorem execVsubFp_inv (f : Form) (s : State) (h : s.Inv) : NextInv (execVsubFp f s) := fpElem_inv _ _ _ _ h

@[simp] theorem execVmulFp_inv (f : Form) (s : State) (h : s.Inv) : NextInv (execVmulFp f s) := fpElem_inv _ _ _ _ h

@[simp] theorem execVfma_inv (f : Form) (s : State) (h : s.Inv) : NextInv (execVfma f s) := fpElem_inv _ _ _ _ h

@[simp] theorem execVminFp_inv (f : Form) (s : State) (h : s.Inv) : NextInv (execVminFp f s) := fpElem_inv _ _ _ _ h

@[simp] theorem execVmaxFp_inv (f : Form) (s : State) (h : s.Inv) : NextInv (execVmaxFp f s) := fpElem_inv _ _ _ _ h

@[simp] theorem execVcmpFp_inv (f : Form) (s : State) (h : s.Inv) : NextInv (execVcmpFp f s) := fpElem_inv _ _ _ _ h

@[simp] theorem execVcmppFp_inv (f : Form) (s : State) (h : s.Inv) : NextInv (execVcmppFp f s) := by
  refine run_inv h fun info f => ?_
  grind [NextInv, State.Inv, InvOf, Halt.Inv, illegal_inv, misaligned_inv, State.setPred_mem, State.raise_mem, readSources_inv]

@[simp] theorem execVabs_inv (f : Form) (s : State) (h : s.Inv) : NextInv (execVabs f s) := fpElem_inv _ _ _ _ h

@[simp] theorem execVneg_inv (f : Form) (s : State) (h : s.Inv) : NextInv (execVneg f s) := fpElem_inv _ _ _ _ h

@[simp] theorem execVcpsgn_inv (f : Form) (s : State) (h : s.Inv) : NextInv (execVcpsgn f s) := fpElem_inv _ _ _ _ h

@[simp] theorem execVrcp_inv (f : Form) (s : State) (h : s.Inv) : NextInv (execVrcp f s) := fpElem_inv _ _ _ _ h

@[simp] theorem execVrsq_inv (f : Form) (s : State) (h : s.Inv) : NextInv (execVrsq f s) := fpElem_inv _ _ _ _ h

@[simp] theorem execVsqrt_inv (f : Form) (s : State) (h : s.Inv) : NextInv (execVsqrt f s) := fpElem_inv _ _ _ _ h

@[simp] theorem execVrint_inv (f : Form) (s : State) (h : s.Inv) : NextInv (execVrint f s) := fpElem_inv _ _ _ _ h

theorem redOp_inv (i : Instr) (s : State) (rounds : Bool) (pad : FpNum) (opr : FpNum → FpNum → ExRes) (h : s.Inv) :
    NextInv (redOp i s rounds pad opr) := by
  refine runIf_inv h fun info f => ?_
  grind [NextInv, State.Inv, InvOf, Halt.Inv, illegal_inv, misaligned_inv, fpFinish_inv, readSources_inv, destReady_inv]

@[simp] theorem execVredAdd_inv (f : Form) (s : State) (h : s.Inv) : NextInv (execVredAdd f s) := redOp_inv _ _ _ _ _ h

@[simp] theorem execVredMin_inv (f : Form) (s : State) (h : s.Inv) : NextInv (execVredMin f s) := redOp_inv _ _ _ _ _ h

@[simp] theorem execVredMax_inv (f : Form) (s : State) (h : s.Inv) : NextInv (execVredMax f s) := redOp_inv _ _ _ _ _ h

theorem dotOp_inv (i : Instr) (s : State) (h : s.Inv) : NextInv (dotOp i s) := by
  refine runIf_inv h fun info f => ?_
  grind [NextInv, State.Inv, InvOf, Halt.Inv, illegal_inv, misaligned_inv, fpFinish_inv, readSources_inv, destReady_inv]

@[simp] theorem execVdot2_inv (f : Form) (s : State) (h : s.Inv) : NextInv (execVdot2 f s) := dotOp_inv _ _ h

@[simp] theorem execVdot4_inv (f : Form) (s : State) (h : s.Inv) : NextInv (execVdot4 f s) := dotOp_inv _ _ h

@[simp] theorem execVdot8_inv (f : Form) (s : State) (h : s.Inv) : NextInv (execVdot8 f s) := dotOp_inv _ _ h


/-! ### Atomics and exact sums -/

theorem atomAllowed_inv {i : Instr} {s : State} {x : Word} {t : Ty} {k : Home} (hs : s.Inv) :
    ∀ e, atomAllowed i s x t k = .error e → e.Inv := by
  fun_cases atomAllowed i s x t k <;> grind [Halt.Inv, State.refuse_mem, State.Inv]

theorem lanesOk_inv {i : Instr} {g : Group} {ls : List (Nat × Word)} {e : Halt} (h : lanesOk i g ls = .error e) : e.Inv := by
  fun_induction lanesOk i g ls <;> grind [globalCheck_inv]

theorem lanesHomes_inv (i : Instr) (t : Ty) (s : State) (ls : List (Nat × Word)) (h : s.Inv) : InvOf (·.2.2) (lanesHomes i t s ls) := by
  fun_induction lanesHomes i t s ls with
  | case1 => exact h
  | case2 s l x rest e he => exact (translated_inv i s x true h).inv_of_error he
  | case3 s l x rest h' sc s' ht e he =>
    have hs' := (translated_inv i s x true h).inv_of_ok ht
    exact ranked_error_inv (atomAllowed_inv hs') (fun e => inOrder_inv) e he
  | case4 s l x rest h' sc s' ht u hu e he ih => exact (ih ((translated_inv i s x true h).inv_of_ok ht)).inv_of_error he
  | case5 s l x rest h' sc s' ht u hu hs sc' s'' he ih =>
    have := (ih ((translated_inv i s x true h).inv_of_ok ht)).inv_of_ok he
    exact this

theorem awayGranules_inv (i : Instr) (op : Granule → HomeOp) (s : State) (x3 : List Granule) (h : s.Inv) :
    InvOf (·.2) (awayGranules i op s x3) := by
  fun_induction awayGranules i op s x3 <;> grind [State.Inv, Halt.Inv, InvOf, NextInv, foldl_mem]

theorem nearGranules_inv (i : Instr) (op : Granule → HomeOp) (s : State) (olds : Map Nat) (ks : List Granule) (h : s.Inv) :
    InvOf (·.2) (nearGranules i op s olds ks) := by
  fun_induction nearGranules i op s olds ks <;> grind [homeAccess_inv, InvOf]

theorem vectorAtom_inv (i : Instr) (info : Info) (f : Form) (s : State) (h : s.Inv) : InvOf id (vectorAtom i info f s) := by
  have released : ∀ {t : State} (rel wide : Bool), t.Inv → (t.release rel wide).Inv := by grind [State.release_mem, State.Inv]
  have drained : ∀ {t : State} (p : Bool), t.Inv → (if p = true then t.drainWc t.meId else t).Inv := by grind [State.drainWc_mem, State.Inv]
  unfold vectorAtom
  dsimp only
  split
  · split
    · exact returned_inv ‹_›
    · split
      · exact (acknowledged_inv _ _ (released _ _ h)).inv_of_error ‹_›
      · exact (writeReg_inv _ _ _ _ _ (released _ _ h)).map_me
  · split
    · exact lanesOk_inv ‹_›
    · have own : ∀ e, (match readSources i info f false s with
          | .error h => (.error h : Except Halt State)
          | .ok s1 => writeReg i s1 (Spec.of f.d) (laneWrite (s.me.active f) fun _ => 0) false) = .error e → e.Inv := by
        grind [readSources_inv, writeReg_inv, InvOf]
      have homes := ranked_inv (lanesHomes_inv i (f.type info.base) s (atomLanes s f) h) own
      split
      · exact homes.inv_of_error ‹_›
      · next hs sc t found =>
        have ht : t.Inv := homes.inv_of_ok found
        split
        · exact returned_inv ‹_›
        · have hr := released (f.releases || sc) f.wide ht
          split
          · exact (acknowledged_inv _ _ hr).inv_of_error ‹_›
          · split
            · exact (awayGranules_inv _ _ _ _ (drained _ hr)).inv_of_error ‹_›
            · have ha := (awayGranules_inv _ _ _ _ (drained _ hr)).inv_of_ok ‹_›
              split
              · exact (nearGranules_inv _ _ _ _ _ ha).inv_of_error ‹_›
              · have hn := (nearGranules_inv _ _ _ _ _ ha).inv_of_ok ‹_›
                split
                · exact (readSources_inv _ _ _ _ _ hn).inv_of_error ‹_›
                · exact (writeReg_inv _ _ _ _ _ ((readSources_inv _ _ _ _ _ hn).inv_of_ok ‹_›)).map_me

theorem scalarAtom_inv (i : Instr) (info : Info) (f : Form) (s : State) (h : s.Inv) : InvOf id (scalarAtom i info f s) := by
  grind [scalarAtom, InvOf, globalCheck_inv, homeAccess_inv, State.Inv, State.setScalar_mem]

theorem atomOp_inv (i : Instr) (s : State) (h : s.Inv) : NextInv (atomOp i s) := by
  refine run_inv h fun info f => ?_
  grind [NextInv, State.Inv, InvOf, Halt.Inv, illegal_inv, misaligned_inv, vectorAtom_inv, scalarAtom_inv]

@[simp] theorem execAtomAdd_inv (f : Form) (s : State) (h : s.Inv) : NextInv (execAtomAdd f s) := atomOp_inv _ _ h

@[simp] theorem execAtomMin_inv (f : Form) (s : State) (h : s.Inv) : NextInv (execAtomMin f s) := atomOp_inv _ _ h

@[simp] theorem execAtomMax_inv (f : Form) (s : State) (h : s.Inv) : NextInv (execAtomMax f s) := atomOp_inv _ _ h

@[simp] theorem execAtomAnd_inv (f : Form) (s : State) (h : s.Inv) : NextInv (execAtomAnd f s) := atomOp_inv _ _ h

@[simp] theorem execAtomOr_inv (f : Form) (s : State) (h : s.Inv) : NextInv (execAtomOr f s) := atomOp_inv _ _ h

@[simp] theorem execAtomXor_inv (f : Form) (s : State) (h : s.Inv) : NextInv (execAtomXor f s) := atomOp_inv _ _ h

@[simp] theorem execAtomExch_inv (f : Form) (s : State) (h : s.Inv) : NextInv (execAtomExch f s) := atomOp_inv _ _ h

@[simp] theorem execAtomCas_inv (f : Form) (s : State) (h : s.Inv) : NextInv (execAtomCas f s) := atomOp_inv _ _ h

@[simp] theorem execXsum_inv (f : Form) (s : State) (h : s.Inv) : NextInv (execXsum f s) := by
  refine run_inv h fun info f => ?_
  have own : ∀ e, readSources (.xsum f) info f false s = .error e → e.Inv := fun e => (readSources_inv _ _ _ _ _ h).inv_of_error
  have added := fun a b c d e g k => ranked_inv (homeAccess_inv (.xsum f) s a b c d e g k h) own
  dsimp only
  split
  · exact h
  · split
    · exact globalCheck_inv ‹_›
    · split
      · exact (added _ _ _ _ _ _ _).inv_of_error ‹_›
      · exact readSources_inv _ _ _ _ _ ((added _ _ _ _ _ _ _).inv_of_ok ‹_›)

theorem cellBytes_inv (i : Instr) (f : Form) (base : Ty) (clear : Bool) (s : State) (h : s.Inv) :
    InvOf (·.2) (cellBytes i f base clear s) := by
  grind [cellBytes, State.Inv, Halt.Inv, InvOf, NextInv, homeAccess_inv]

theorem readCell_inv (i : Instr) (s : State) (clear : Bool) (h : s.Inv) : NextInv (readCell i s clear) := by
  refine runIf_inv h fun info f => ?_
  grind [InvOf, globalCheck_inv, cellBytes_inv, State.Inv, State.raise_mem, State.setScalar_mem]

@[simp] theorem execXrd_inv (f : Form) (s : State) (h : s.Inv) : NextInv (execXrd f s) := readCell_inv _ _ _ h

@[simp] theorem execXrdClr_inv (f : Form) (s : State) (h : s.Inv) : NextInv (execXrdClr f s) := readCell_inv _ _ _ h

theorem State.reply_mem (s : State) (r : HomeReq) (ok : Bool) (bytes : List Byte) : (s.reply r ok bytes).mem = s.mem := rfl

theorem State.applyRequest_inv (s : State) (r : HomeReq) (h : s.Inv) : (s.applyRequest r).2.2.Inv := by
  grind [State.applyRequest, State.refuse_mem, State.applyHome_inv, State.applyHome_error_inv, State.Inv]

theorem State.serve_inv (s : State) (r : HomeReq) (h : s.Inv) : (s.serve r).Inv := by
  grind [State.serve, State.Inv, Halt.Inv, InvOf, NextInv, State.reply_mem, State.applyRequest_inv]

theorem State.arrive_inv (s : State) (r : HomeReq) (h : s.Inv) : (s.arrive r).Inv := by
  grind [State.arrive, State.Inv, Halt.Inv, InvOf, NextInv, State.serve_inv]

theorem State.drainInbox_inv (s : State) (h : s.Inv) : s.drainInbox.Inv :=
  foldl_inv (fun s r h => s.arrive_inv r h) _ _ h

@[simp] theorem execHomeRequest_inv (r : HomeReq) (s : State) (h : s.Inv) : NextInv (execHomeRequest r s) := by
  grind [execHomeRequest, NextInv, State.Inv, State.arrive_inv]


/-! ### Control flow -/

@[simp] theorem execNop_inv (f : Form) (s : State) (h : s.Inv) : NextInv (execNop f s) := by
  refine run_inv h fun info f => ?_
  grind [NextInv, State.Inv, InvOf, Halt.Inv, illegal_inv, misaligned_inv]

@[simp] theorem execLps_inv (f : Form) (s : State) (h : s.Inv) : NextInv (execLps f s) := by
  refine run_inv h fun info f => ?_
  grind [NextInv, State.Inv, InvOf, Halt.Inv, illegal_inv, misaligned_inv]

theorem predOp_inv (i : Instr) (s : State) (op : BitVec 32 → BitVec 32 → BitVec 32) (h : s.Inv) : NextInv (predOp i s op) := by
  refine run_inv h fun info f => ?_
  grind [NextInv, State.Inv, InvOf, Halt.Inv, illegal_inv, misaligned_inv, State.setPred_mem]

@[simp] theorem execPmov_inv (f : Form) (s : State) (h : s.Inv) : NextInv (execPmov f s) := predOp_inv _ _ _ h

@[simp] theorem execPand_inv (f : Form) (s : State) (h : s.Inv) : NextInv (execPand f s) := predOp_inv _ _ _ h

@[simp] theorem execPor_inv (f : Form) (s : State) (h : s.Inv) : NextInv (execPor f s) := predOp_inv _ _ _ h

@[simp] theorem execPxor_inv (f : Form) (s : State) (h : s.Inv) : NextInv (execPxor f s) := predOp_inv _ _ _ h

@[simp] theorem execPandn_inv (f : Form) (s : State) (h : s.Inv) : NextInv (execPandn f s) := predOp_inv _ _ _ h

@[simp] theorem execPnot_inv (f : Form) (s : State) (h : s.Inv) : NextInv (execPnot f s) := predOp_inv _ _ _ h

@[simp] theorem execPget_inv (f : Form) (s : State) (h : s.Inv) : NextInv (execPget f s) := by
  refine run_inv h fun info f => ?_
  grind [NextInv, State.Inv, InvOf, Halt.Inv, illegal_inv, misaligned_inv, State.setScalar_mem]

@[simp] theorem execPset_inv (f : Form) (s : State) (h : s.Inv) : NextInv (execPset f s) := by
  refine run_inv h fun info f => ?_
  grind [NextInv, State.Inv, InvOf, Halt.Inv, illegal_inv, misaligned_inv, State.setPred_mem]

@[simp] theorem execEmget_inv (f : Form) (s : State) (h : s.Inv) : NextInv (execEmget f s) := by
  refine run_inv h fun info f => ?_
  grind [NextInv, State.Inv, InvOf, Halt.Inv, illegal_inv, misaligned_inv, State.setScalar_mem]

@[simp] theorem execEmset_inv (f : Form) (s : State) (h : s.Inv) : NextInv (execEmset f s) := by
  refine run_inv h fun info f => ?_
  grind [NextInv, State.Inv, InvOf, Halt.Inv, illegal_inv, misaligned_inv]

@[simp] theorem execReservedOpcode_inv (word : BitVec 32) (s : State) (h : s.Inv) : NextInv (execReservedOpcode word s) := by
  grind [execReservedOpcode, NextInv, State.Inv, State.counted_mem, State.takeTrap_mem]


/-! ### The hardware's own accesses -/

theorem State.hwAsked_mem (s : State) : s.hwAsked.mem = s.mem := rfl

def Hw.Inv {α : Type} : Hw α → Prop
  | .ok _ s | .fail _ s | .wait s => s.Inv

theorem State.keepAsks_mem (s t : State) : (s.keepAsks t).mem = s.mem := rfl

theorem State.hwAsk_inv (s : State) (core va module la : Nat) (op : HomeOp) (h : s.Inv) : (s.hwAsk core va module la op).Inv := by
  grind [State.hwAsk, Hw.Inv, State.Inv]

theorem State.hwAskHost_inv (s : State) (core : Nat) (w : Who) (va la n : Nat) (h : s.Inv) : (s.hwAskHost core w va la n).Inv := by
  grind [State.hwAskHost, Hw.Inv, State.Inv]

theorem State.hwReadPiece_inv (s : State) (p core : Nat) (w : Who) (va n : Nat) (h : s.Inv) : (s.hwReadPiece p core w va n).Inv := by
  fun_cases State.hwReadPiece s p core w va n <;> grind [Hw.Inv, State.Inv, State.translate_mem, State.refuse_mem, State.readOffs_mem,
    State.readOffs_error_mem, State.hwAsk_inv, State.hwAskHost_inv]

theorem hwReadAll_inv (p core : Nat) (w : Who) (s : State) (ps : List (Nat × Nat)) (h : s.Inv) : (hwReadAll p core w s ps).Inv := by
  fun_induction hwReadAll p core w s ps <;> grind [Hw.Inv, State.hwReadPiece_inv]

theorem State.hwRead_inv (s : State) (p core : Nat) (w : Who) (va n : Nat) (h : s.Inv) :
    (s.hwRead p core w va n).Inv := hwReadAll_inv _ _ _ _ _ h

theorem State.hwTarget_inv (s : State) (p core va n : Nat) (h : s.Inv) : (s.hwTarget p core va n).Inv := by
  fun_cases State.hwTarget s p core va n <;> grind [Hw.Inv, State.Inv, State.translate_mem, State.refuse_mem]

theorem hwWritable_inv (p core : Nat) (s : State) (ps : List (Nat × Nat)) (h : s.Inv) : (hwWritable p core s ps).Inv := by
  fun_induction hwWritable p core s ps <;> grind [Hw.Inv, State.hwTarget_inv]

theorem State.hwPut_inv (s : State) (p core : Nat) (w : Who) (va : Nat) (k : Home) (bs : List Byte) (h : s.Inv) :
    (s.hwPut p core w va k bs).Inv := by
  fun_cases State.hwPut s p core w va k bs <;> grind [Hw.Inv, State.Inv, State.writeRuns_inv, State.modPart_mem, State.hwAsk_inv]

theorem hwWriteAll_inv (p core : Nat) (w : Who) (s : State) (ps : List (Nat × Nat)) (bs : List Byte) (h : s.Inv) :
    (hwWriteAll p core w s ps bs).Inv := by
  fun_induction hwWriteAll p core w s ps bs <;> grind [Hw.Inv, State.hwTarget_inv, State.hwPut_inv]

theorem State.hwWrite_inv (s : State) (p core : Nat) (w : Who) (va : Nat) (bs : List Byte) (h : s.Inv) :
    (s.hwWrite p core w va bs).Inv := by
  grind [State.hwWrite, Hw.Inv, hwWritable_inv, hwWriteAll_inv]

theorem State.idleBank_mem (s : State) (p : Nat) (b : Nat) : (s.idleBank p b).mem = s.mem := by
  grind [State.idleBank, State.modPart_mem]

theorem State.idleBanks_mem (s : State) : s.idleBanks.mem = s.mem := by
  grind [State.idleBanks, State.idleBank_mem, foldl_mem]

theorem State.busyAs_mem (s old : State) : (s.busyAs old).mem = s.mem := rfl

theorem State.idly_inv {α : Type} (s : State) (f : State → Hw α) (hf : ∀ t, t.Inv → (f t).Inv) (h : s.Inv) : (s.idly f).Inv := by
  grind [State.idly, Hw.Inv, State.Inv, State.idleBanks_mem, State.busyAs_mem]


/-! ### Near-bank instructions and pages -/

theorem bankRow_inv (i : Instr) (s : State) (b : Nat) (x : Word) (store : Bool) (h : s.Inv) : InvOf (·.2) (bankRow i s b x store) := by
  fun_cases bankRow i s b x store <;> grind [InvOf, Halt.Inv, State.Inv, spanFault, misaligned, badAddress, State.lookup_mem]

theorem readRow_inv (i : Instr) (s : State) (x : Word) (la : Nat) (offs : List Nat) (h : s.Inv) : InvOf (·.2) (readRow i s x la offs) := by
  grind [readRow, InvOf, Halt.Inv, State.Inv, State.readOffs_mem, State.readOffs_error_mem]

@[simp] theorem execNbld_inv (f : Form) (s : State) (h : s.Inv) : NextInv (execNbld f s) := by
  refine run_inv h fun info f => ?_
  grind [NextInv, State.Inv, InvOf, Halt.Inv, illegal_inv, misaligned_inv, bankRow_inv, readRow_inv, loadVector_inv]

@[simp] theorem execNbfma_inv (f : Form) (s : State) (h : s.Inv) : NextInv (execNbfma f s) := by
  refine runIf_inv h fun info f => ?_
  grind [NextInv, State.Inv, InvOf, Halt.Inv, illegal_inv, misaligned_inv, bankRow_inv, readRow_inv, fpFinish_inv, readSources_inv]

@[simp] theorem execNbdot_inv (f : Form) (s : State) (h : s.Inv) : NextInv (execNbdot f s) := by
  refine runIf_inv h fun info f => ?_
  grind [NextInv, State.Inv, InvOf, Halt.Inv, illegal_inv, misaligned_inv, bankRow_inv, readRow_inv, fpFinish_inv, readSources_inv]

@[simp] theorem execNbst_inv (f : Form) (s : State) (h : s.Inv) : NextInv (execNbst f s) := by
  refine run_inv h fun info f => ?_
  grind [NextInv, State.Inv, InvOf, Halt.Inv, illegal_inv, misaligned_inv, bankRow_inv, State.writeRuns_inv]

theorem State.walkAll_mem (p v : Nat) (w : Who) (ks : List Nat) (s : State) : (State.walkAll p v w ks s).2.mem = s.mem := by
  fun_induction State.walkAll p v w ks s <;> grind [State.walk_mem]

theorem State.markStripe_mem (s : State) (p : Nat) (h : Nat) (x : Nat) (taken : Bool) : (s.markStripe p h x taken).mem = s.mem := rfl

theorem State.zeroStripe_inv (s : State) (p h x : Nat) (hs : s.Inv) : (s.zeroStripe p h x).Inv := Memory.wf_filter _ _ hs

theorem State.writeLeaf_inv (s : State) (p : Nat) (v : Nat) (e : Word) (w : Who) (h : s.Inv) : (s.writeLeaf p v e w).Inv := by
  grind [State.writeLeaf, State.Inv, Halt.Inv, InvOf, NextInv, State.writeRuns_inv, State.modPart_mem]

theorem walkFails_inv (i : Instr) (va : Word) (s : State) (h : s.Inv) : (walkFails i va s).Inv := by
  grind [walkFails, State.Inv, Halt.Inv, InvOf, NextInv]

theorem pageCheck_inv {i : Instr} {g : Group} {v : Word} {e : Halt} (h : pageCheck i g v = .error e) : e.Inv := by
  grind [pageCheck, misaligned, badAddress, Halt.Inv]

@[simp] theorem execMapc_inv (f : Form) (s : State) (h : s.Inv) : NextInv (execMapc f s) := by
  refine runIf_inv h fun info f => ?_
  have walked := fun p v w => State.walkAll_mem p v w (List.range 32) s
  dsimp only
  split
  · exact pageCheck_inv ‹_›
  · split
    · exact h
    · split <;> grind [InvOf, Halt.Inv, walkFails, State.setScalar_mem, State.invalidatePart_mem, State.writeLeaf_inv, State.zeroStripe_inv,
        State.markStripe_mem, State.Inv]

@[simp] theorem execUnmapc_inv (f : Form) (s : State) (h : s.Inv) : NextInv (execUnmapc f s) := by
  refine run_inv h fun info f => ?_
  have walked := fun p v w => State.walk_mem s p v w
  dsimp only
  split
  · exact pageCheck_inv ‹_›
  · split
    · exact trivial
    · split <;> grind [InvOf, Halt.Inv, walkFails, State.setScalar_mem, State.invalidatePart_mem, State.writeLeaf_inv,
    State.markStripe_mem, State.Inv]

@[simp] theorem execXinv_inv (f : Form) (s : State) (h : s.Inv) : NextInv (execXinv f s) := by
  refine run_inv h fun info f => ?_
  dsimp only
  repeat' split
  all_goals grind [InvOf, Halt.Inv, misaligned, badAddress, returned_inv, State.drainWc_mem, State.invalidate_mem, State.Inv]


/-! ### Places and queues -/

theorem State.freeSlot_mem (s : State) (p : Nat) (e : BitVec 32) : (s.freeSlot p e).mem = s.mem := by
  grind [State.freeSlot, State.ownBank_mem]

@[simp] theorem execPlc_inv (f : Form) (s : State) (h : s.Inv) : NextInv (execPlc f s) := by
  refine run_inv h fun info f => ?_
  have fault := fun x => spFault_inv (.plc f) s x h
  dsimp only
  repeat' split
  all_goals grind [InvOf, Halt.Inv, placeFault, State.freeSlot_mem, State.ownBank_mem, State.writeSlot_mem, State.setBankReg_mem, State.Inv]

@[simp] theorem execQfree_inv (f : Form) (s : State) (h : s.Inv) : NextInv (execQfree f s) := by
  refine run_inv h fun info f => ?_
  grind [NextInv, State.Inv, InvOf, Halt.Inv, illegal_inv, misaligned_inv, State.setScalar_mem]

@[simp] theorem execCulvertEntryArrival_inv (s : State) (h : s.Inv) : NextInv (execCulvertEntryArrival s) := by
  grind [execCulvertEntryArrival, NextInv, State.Inv, State.modCulvert_mem]

@[simp] theorem execSlotReturn_inv (s : State) (h : s.Inv) : NextInv (execSlotReturn s) := by
  grind [execSlotReturn, NextInv, State.Inv, State.modCulvert_mem]

theorem State.asGroup_mem (s : State) (g : Nat) (f : State → State) (hf : ∀ t, (f t).mem = t.mem) : (s.asGroup g f).mem = s.mem := by
  grind [State.asGroup, State.noTurn_mem, State.turn_mem]

theorem State.swapWith_mem (s : State) (f : Form) (h : Nat) (w : XWait) : (s.swapWith f h w).mem = s.mem := by
  unfold State.swapWith
  rw [State.asGroup_mem _ _ _ (fun t => retire_mem _ _ t), State.setGroup_mem]

@[simp] theorem execXchg_inv (f : Form) (s : State) (h : s.Inv) : NextInv (execXchg f s) := by
  refine runIf_inv h fun info f => ?_
  dsimp only
  repeat' split
  all_goals grind [InvOf, Halt.Inv, placeFault, State.swapWith_mem, State.Inv]


/-! ### Power states -/

theorem State.gateIsland_mem (s : State) (c : Nat) : (s.gateIsland c).mem = s.mem := rfl

theorem State.wakeIsland_mem (s : State) (c : Nat) : (s.wakeIsland c).mem = s.mem := by
  grind [State.wakeIsland, State.modCluster_mem, State.modCore_mem]

theorem State.gateRequest_mem (s : State) (c : Nat) : (s.gateRequest c).2.mem = s.mem := by
  grind [State.gateRequest, State.modCore_mem, State.gateIsland_mem]

@[simp] theorem execPgr_inv (f : Form) (s : State) (h : s.Inv) : NextInv (execPgr f s) := by
  refine runIf_inv h fun info f => ?_
  grind [NextInv, State.Inv, InvOf, Halt.Inv, illegal_inv, misaligned_inv, State.setScalar_mem, State.gateRequest_mem]

@[simp] theorem execHeldRequestGrant_inv (s : State) (h : s.Inv) : NextInv (execHeldRequestGrant s) := by
  grind [execHeldRequestGrant, NextInv, State.Inv, State.modCore_mem, State.gateIsland_mem]

@[simp] theorem execGatingDischarged_inv (s : State) (h : s.Inv) : NextInv (execGatingDischarged s) := by
  grind [execGatingDischarged, NextInv, State.Inv, State.modCore_mem]

@[simp] theorem execGateCancelled_inv (s : State) (h : s.Inv) : NextInv (execGateCancelled s) := by
  grind [execGateCancelled, NextInv, State.Inv, State.modCore_mem]

@[simp] theorem execHoldEnd_inv (s : State) (h : s.Inv) : NextInv (execHoldEnd s) := by
  grind [execHoldEnd, NextInv, State.Inv, State.modCluster_mem, State.modCore_mem]

@[simp] theorem execInrushSlot_inv (s : State) (h : s.Inv) : NextInv (execInrushSlot s) := by
  grind [execInrushSlot, NextInv, State.Inv, State.modCluster_mem, State.modCore_mem]

@[simp] theorem execWakeComplete_inv (s : State) (h : s.Inv) : NextInv (execWakeComplete s) := by
  grind [execWakeComplete, NextInv, State.Inv, State.modCore_mem]

@[simp] theorem execLevelReached_inv (s : State) (h : s.Inv) : NextInv (execLevelReached s) := by
  grind [execLevelReached, NextInv, State.Inv, State.modCore_mem]

@[simp] theorem execPerf_inv (f : Form) (s : State) (h : s.Inv) : NextInv (execPerf f s) := by
  refine run_inv h fun info f => ?_
  grind [NextInv, State.Inv, InvOf, Halt.Inv, illegal_inv, misaligned_inv, readSources_inv]

@[simp] theorem execWeirInterval_inv (cl : Nat) (used : Nat) (s : State) (h : s.Inv) : NextInv (execWeirInterval cl used s) := by
  grind [execWeirInterval, NextInv, State.Inv, State.modCluster_mem, State.modCore_mem, foldl_mem]

theorem State.thermalAbort_mem (s : State) (cl : Nat) : (s.thermalAbort cl).mem = s.mem := by
  grind [State.thermalAbort, State.modGroup_mem, foldl_mem]

@[simp] theorem execThermalPoll_inv (cl : Nat) (tclu : Nat) (tbase : Nat) (s : State) (h : s.Inv) :
    NextInv (execThermalPoll cl tclu tbase s) := by
  grind [execThermalPoll, NextInv, State.Inv, State.notify_mem, State.modCluster_mem, State.thermalAbort_mem]

@[simp] theorem execDroopDetected_inv (terrace : Nat) (ps : List Nat) (s : State) (h : s.Inv) :
    NextInv (execDroopDetected terrace ps s) := by
  grind [execDroopDetected, NextInv, State.Inv, State.modPart_mem, foldl_mem]

@[simp] theorem execCurrentSlewExceeded_inv (s : State) (h : s.Inv) : NextInv (execCurrentSlewExceeded s) := by
  grind [execCurrentSlewExceeded, NextInv, State.Inv, State.modPart_mem]

@[simp] theorem execSlewThrottleEnd_inv (s : State) (h : s.Inv) : NextInv (execSlewThrottleEnd s) := by
  grind [execSlewThrottleEnd, NextInv, State.Inv, State.modPart_mem]

@[simp] theorem execVoltageReplan_inv (lowered : List (Nat × Nat)) (s : State) (h : s.Inv) : NextInv (execVoltageReplan lowered s) := by
  grind [execVoltageReplan, NextInv, State.Inv, State.modPart_mem, foldl_mem]

theorem powerQuery_inv (i : Instr) (s : State) (word : Nat → Word) (h : s.Inv) : NextInv (powerQuery i s word) := by
  refine runIf_inv h fun info f => ?_
  grind [NextInv, State.Inv, InvOf, Halt.Inv, illegal_inv, misaligned_inv, State.setScalar_mem]

@[simp] theorem execPwrqLvl_inv (f : Form) (s : State) (h : s.Inv) : NextInv (execPwrqLvl f s) := powerQuery_inv _ _ _ h

@[simp] theorem execPwrqGate_inv (f : Form) (s : State) (h : s.Inv) : NextInv (execPwrqGate f s) := powerQuery_inv _ _ _ h

@[simp] theorem execPwrqWeir_inv (f : Form) (s : State) (h : s.Inv) : NextInv (execPwrqWeir f s) := powerQuery_inv _ _ _ h

@[simp] theorem execPwrqTherm_inv (f : Form) (s : State) (h : s.Inv) : NextInv (execPwrqTherm f s) := powerQuery_inv _ _ _ h


/-! ### Teams and their ends -/

theorem State.giveBlock_mem (s : State) (c : Nat) : (s.giveBlock c).mem = s.mem := by
  grind [State.giveBlock, State.setGroup_mem, State.modCore_mem]

theorem State.giveBlocks_mem (s : State) (c : Nat) (n : Nat) : (s.giveBlocks c n).mem = s.mem := by
  fun_induction State.giveBlocks s c n <;> grind [State.giveBlock_mem]

theorem State.freePlaces_mem (s : State) (g : Group) (ns : List Nat) : (s.freePlaces g ns).mem = s.mem := by
  grind [State.freePlaces, State.freeSlot_mem, foldl_mem]

theorem State.freeBanks_mem (s : State) (p : Nat) (g : Nat) : (s.freeBanks p g).mem = s.mem := rfl

theorem State.releaseGroup_mem (s : State) (g : Nat) : (s.releaseGroup g).mem = s.mem := by
  grind [State.releaseGroup, State.modGroup_mem, State.modCore_mem, State.giveBlocks_mem, State.freeBanks_mem]

theorem State.grantEmergency_mem (s : State) (c : Nat) : (s.grantEmergency c).mem = s.mem := by
  grind [State.grantEmergency, State.setGroup_mem, State.modCore_mem]

@[simp] theorem execEmergencyBlockGrant_inv (s : State) (h : s.Inv) : NextInv (execEmergencyBlockGrant s) := by
  grind [execEmergencyBlockGrant, NextInv, State.Inv, State.grantEmergency_mem]

theorem State.setAway_mem (s : State) : s.setAway.mem = s.mem := rfl

theorem State.orphan_mem (s : State) (t : Nat) (index : Nat) : (s.orphan t index).mem = s.mem := by
  grind [State.orphan, State.modGroup_mem, State.modTeam_mem, State.takeTrap_mem, foldl_mem]

theorem State.leaveGroup_mem (s : State) (g : Nat) : (s.leaveGroup g).mem = s.mem := by
  grind [State.leaveGroup, State.modTeam_mem, State.orphan_mem, State.releaseGroup_mem, State.drainWc_mem, State.fill_mem,
    State.dropGroup_mem, State.endCohortBar_mem, State.endTeamBar_mem]

theorem State.releaseCohort_mem (s : State) (k : Nat) : (s.releaseCohort k).mem = s.mem := by
  grind [State.releaseCohort]

theorem State.dropCopies_mem (s : State) (t : Nat) (ended : Bool) : (s.dropCopies t ended).mem = s.mem := by
  grind [State.dropCopies, State.modCohort_mem]

theorem State.keepSources_mem (s : State) (t : Nat) : (s.keepSources t).mem = s.mem := rfl

theorem State.markEnd_mem (s : State) (p : Nat) (slot : Nat) (index : Nat) (tval : Nat) : (s.markEnd p slot index tval).mem = s.mem := rfl

theorem State.finishTeam_mem (s : State) (t : Nat) (tval : Nat) : (s.finishTeam t tval).mem = s.mem := by
  grind [State.finishTeam, State.dropCopies_mem, State.markEnd_mem, State.keepSources_mem, State.releaseCohort_mem,
    State.endCohortBar_mem, State.modCohort_mem]

theorem State.exitGroup_mem (s : State) (g : Nat) : (s.exitGroup g).mem = s.mem := by
  grind [State.exitGroup, State.finishTeam_mem, State.leaveGroup_mem]

@[simp] theorem execGroupExit_inv (s : State) (h : s.Inv) : NextInv (execGroupExit s) := by
  grind [execGroupExit, NextInv, State.Inv, State.exitGroup_mem]

theorem State.unreserve_mem (s : State) (p : Nat) (keep : Option Nat) : (s.unreserve p keep).mem = s.mem := rfl

theorem State.tellTender_mem (s : State) (t : Tender) (w : Word) : (s.tellTender t w).mem = s.mem := State.modGroup_mem ..

theorem State.endTender_mem (s : State) (p : Nat) (t : Tender) (status : Nat) (bid : Nat) (core : Nat) :
    (s.endTender p t status bid core).mem = s.mem :=
  State.tellTender_mem ..

theorem State.cancelTender_mem (s : State) (p : Nat) (slot : Nat) (team : Nat) : (s.cancelTender p slot team).mem = s.mem := by
  grind [State.cancelTender, State.endTender_mem, State.modPart_mem, State.tellTender_mem, foldl_mem]

theorem State.endTeam_mem (s : State) (t : Nat) (tval : Nat) : (s.endTeam t tval).mem = s.mem := by
  grind [State.endTeam, State.modTeam_mem, State.finishTeam_mem, State.leaveGroup_mem, State.setAway_mem, foldl_mem]

@[simp] theorem execTeamEndReport_inv (p : Nat) (slot : Nat) (s : State) (h : s.Inv) : NextInv (execTeamEndReport p slot s) := by
  grind [execTeamEndReport, NextInv, State.Inv, State.notify_mem, State.modPart_mem]

theorem State.teamReported_mem (s : State) (p : Nat) (slot : Nat) : (s.teamReported p slot).mem = s.mem := by
  grind [State.teamReported, State.modPart_mem]

theorem State.reportBatches_mem (s : State) (p : Nat) (r : Report) (bs : List Batch) : (s.reportBatches p r bs).mem = s.mem := by
  grind [State.reportBatches, State.notify_mem, foldl_mem]

@[simp] theorem execBatchFailureReport_inv (s : State) (h : s.Inv) : NextInv (execBatchFailureReport s) := by
  grind [execBatchFailureReport, NextInv, State.Inv, State.reportBatches_mem]

theorem State.takePend_mem (s : State) (g : Nat) : (s.takePend g).mem = s.mem := by
  grind [State.takePend, State.setGroup_mem, State.takeTrap_mem, State.withdrawBar_mem]

@[simp] theorem execTrapEntry_inv (s : State) (h : s.Inv) : NextInv (execTrapEntry s) := by
  grind [execTrapEntry, NextInv, State.Inv, State.takePend_mem]


/-! ### Traps, blocks and the system registers -/

@[simp] theorem execTrap_inv (f : Form) (s : State) (h : s.Inv) : NextInv (execTrap f s) := by
  refine run_inv h fun info f => ?_
  grind [NextInv, State.Inv, InvOf, Halt.Inv, illegal_inv, misaligned_inv]

theorem State.comeBack_mem (s : State) (g : Nat) (pc : VAddr) : (s.comeBack g pc).mem = s.mem := by
  grind [State.comeBack, State.modGroup_mem, State.takeTrap_mem]

@[simp] theorem execTret_inv (f : Form) (s : State) (h : s.Inv) : NextInv (execTret f s) := by
  have logged : ∀ a b c d e w, (s.logArray a b c d e w).Inv := by grind [State.logArray_mem, State.Inv]
  unfold execTret
  dsimp only
  split
  · grind [NextInv]
  · split
    · exact settle_inv h (issueCheck_inv _ _ _ _ _ _ ‹_›)
    · split
      · exact settle_inv h trivial
      · split
        · exact settle_inv h (logged _ _ _ _ _ _)
        · grind [NextInv, State.comeBack_mem, State.Inv]

@[simp] theorem execTrr_inv (f : Form) (s : State) (h : s.Inv) : NextInv (execTrr f s) := by
  refine run_inv h fun info f => ?_
  grind [NextInv, State.Inv, InvOf, Halt.Inv, illegal_inv, misaligned_inv, State.setScalar_mem]

@[simp] theorem execTrw_inv (f : Form) (s : State) (h : s.Inv) : NextInv (execTrw f s) := by
  refine run_inv h fun info f => ?_
  grind [NextInv, State.Inv, InvOf, Halt.Inv, illegal_inv, misaligned_inv]

theorem State.stopMarked_mem (s : State) (g : Nat) : (s.stopMarked g).mem = s.mem := by
  grind [State.stopMarked, State.modTeam_mem, State.setGroup_mem, State.fill_mem, State.setAway_mem]

@[simp] theorem execSpt_inv (f : Form) (s : State) (h : s.Inv) : NextInv (execSpt f s) := by
  have ran : NextInv (run (.spt f) s fun _ f => .ok (if s.requested s.me
      then { s with me := { s.me with stopAt := some (0, f.imm.truncate 16 &&& s.me.held) } } else s)) :=
    run_inv h fun info f => by dsimp only; split <;> exact h
  unfold execSpt
  dsimp only
  split
  · grind [NextInv, State.stopMarked_mem, State.Inv]
  · exact ran

theorem State.stopGroup_mem (s : State) (g : Nat) (cause : Nat) : (s.stopGroup g cause).mem = s.mem := by
  grind [State.stopGroup, State.modGroup_mem, State.modTeam_mem, State.stopMarked_mem, State.withdrawBar_mem]

@[simp] theorem execForcedSave_inv (s : State) (h : s.Inv) : NextInv (execForcedSave s) := by
  grind [execForcedSave, NextInv, State.Inv, State.stopGroup_mem]

@[simp] theorem execStallPreemption_inv (s : State) (h : s.Inv) : NextInv (execStallPreemption s) := by
  grind [execStallPreemption, NextInv, State.Inv, State.stopGroup_mem]

@[simp] theorem execNpr_inv (f : Form) (s : State) (h : s.Inv) : NextInv (execNpr f s) := by
  refine run_inv h fun info f => ?_
  grind [NextInv, State.Inv, InvOf, Halt.Inv, illegal_inv, misaligned_inv]

@[simp] theorem execEpr_inv (f : Form) (s : State) (h : s.Inv) : NextInv (execEpr f s) := by
  refine run_inv h fun info f => ?_
  grind [NextInv, State.Inv, InvOf, Halt.Inv, illegal_inv, misaligned_inv]

@[simp] theorem execNprTimeLimit_inv (s : State) (h : s.Inv) : NextInv (execNprTimeLimit s) := by
  grind [execNprTimeLimit, NextInv, State.Inv, State.notify_mem, State.setGroup_mem]

@[simp] theorem execRbget_inv (f : Form) (s : State) (h : s.Inv) : NextInv (execRbget f s) := by
  refine run_inv h fun info f => ?_
  grind [NextInv, State.Inv, InvOf, Halt.Inv, illegal_inv, misaligned_inv, State.modCore_mem]

@[simp] theorem execRbput_inv (f : Form) (s : State) (h : s.Inv) : NextInv (execRbput f s) := by
  refine run_inv h fun info f => ?_
  dsimp only
  repeat' split
  all_goals grind [InvOf, Halt.Inv, placeFault, State.freePlaces_mem, State.modCore_mem, State.giveBlock_mem, State.Inv]

theorem readSys_inv (i : Instr) (s : State) (h : s.Inv) : NextInv (readSys i s) := by
  refine run_inv h fun info f => ?_
  grind [NextInv, State.Inv, InvOf, Halt.Inv, illegal_inv, misaligned_inv, State.setScalar_mem]

@[simp] theorem execSrr_inv (f : Form) (s : State) (h : s.Inv) : NextInv (execSrr f s) := readSys_inv _ _ h

@[simp] theorem execTrmarkRead_inv (f : Form) (s : State) (h : s.Inv) : NextInv (execTrmarkRead f s) := readSys_inv _ _ h

theorem writeSys_inv {i : Instr} {s : State} {act : Form → Word → Nat × State} (h : s.Inv) (ha : ∀ f x, (act f x).2.mem = s.mem) :
    NextInv (writeSys i s act) := by
  refine run_inv h fun info f => ?_
  grind [InvOf, State.setScalar_mem, State.Inv]

theorem State.setRing_mem (s : State) (n : Nat) (x : Word) : (s.setRing n x).2.mem = s.mem := by
  grind [State.setRing, State.modPart_mem]

@[simp] theorem execTrapRingSet_inv (f : Form) (s : State) (h : s.Inv) :
    NextInv (execTrapRingSet f s) := writeSys_inv h fun _ _ => s.setRing_mem _ _

@[simp] theorem execTrtailWrite_inv (f : Form) (s : State) (h : s.Inv) : NextInv (execTrtailWrite f s) :=
  writeSys_inv h fun _ _ => by dsimp only; split <;> rfl

theorem State.setCmd_mem (s : State) (n : Nat) (x : Word) : (s.setCmd n x).2.mem = s.mem := by
  fun_cases State.setCmd s n x <;> grind [State.modPart_mem, foldl_mem]

@[simp] theorem execSysregWrite_inv (f : Form) (s : State) (h : s.Inv) :
    NextInv (execSysregWrite f s) := writeSys_inv h fun _ _ => s.setCmd_mem _ _

theorem State.cmdPreempt_mem (s : State) (full : Bool) : (s.cmdPreempt full).2.mem = s.mem := by
  grind [State.cmdPreempt, State.modTeam_mem]

theorem State.moveCulverts_mem (s : State) (t : Nat) (old : Nat) (new : Nat) : (s.moveCulverts t old new).mem = s.mem := by
  grind [State.moveCulverts]

theorem State.cmdRestore_mem (s : State) : s.cmdRestore.2.mem = s.mem := by
  fun_cases State.cmdRestore s <;> grind [State.modTeam_mem, foldl_mem]

theorem State.cmdResume_mem (s : State) : s.cmdResume.2.mem = s.mem := by
  grind [State.cmdResume, State.setGroup_mem, State.fill_mem]

theorem State.cmdResumet_mem (s : State) : s.cmdResumet.2.mem = s.mem := by
  grind [State.cmdResumet, State.setGroup_mem, State.comeBack_mem, State.fill_mem]

theorem State.cmdEnd_mem (s : State) : s.cmdEnd.2.mem = s.mem := by
  grind [State.cmdEnd, State.endTeam_mem, State.cancelTender_mem, State.markEnd_mem]

theorem State.cmdCancel_mem (s : State) : s.cmdCancel.2.mem = s.mem := by
  grind [State.cmdCancel, State.modTeam_mem]

theorem State.command_mem (s : State) (code : Nat) : (s.command code).2.mem = s.mem := by
  fun_cases State.command s code <;> grind [State.cmdResume_mem, State.cmdResumet_mem, State.cmdCancel_mem, State.cmdEnd_mem,
    State.cmdPreempt_mem, State.cmdRestore_mem, foldl_mem]

@[simp] theorem execSrw_inv (f : Form) (s : State) (h : s.Inv) : NextInv (execSrw f s) := writeSys_inv h fun _ _ => s.command_mem _

@[simp] theorem execPreemptLight_inv (f : Form) (s : State) (h : s.Inv) :
    NextInv (execPreemptLight f s) := writeSys_inv h fun _ _ => s.cmdPreempt_mem _

@[simp] theorem execPreemptFull_inv (f : Form) (s : State) (h : s.Inv) :
    NextInv (execPreemptFull f s) := writeSys_inv h fun _ _ => s.cmdPreempt_mem _

@[simp] theorem execRestore_inv (f : Form) (s : State) (h : s.Inv) : NextInv (execRestore f s) := writeSys_inv h fun _ _ => s.cmdRestore_mem

@[simp] theorem execResume_inv (f : Form) (s : State) (h : s.Inv) : NextInv (execResume f s) := writeSys_inv h fun _ _ => s.cmdResume_mem

@[simp] theorem execResumet_inv (f : Form) (s : State) (h : s.Inv) : NextInv (execResumet f s) := writeSys_inv h fun _ _ => s.cmdResumet_mem

@[simp] theorem execEndteam_inv (f : Form) (s : State) (h : s.Inv) : NextInv (execEndteam f s) := writeSys_inv h fun _ _ => s.cmdEnd_mem

@[simp] theorem execCancel_inv (f : Form) (s : State) (h : s.Inv) : NextInv (execCancel f s) := writeSys_inv h fun _ _ => s.cmdCancel_mem


/-! ### The matrix engine -/

@[simp] theorem execMzero_inv (f : Form) (s : State) (h : s.Inv) : NextInv (execMzero f s) := by
  refine run_inv h fun info f => ?_
  grind [NextInv, State.Inv, InvOf, Halt.Inv, illegal_inv, misaligned_inv, State.modTeam_mem]

@[simp] theorem execMzeroSw_inv (f : Form) (s : State) (h : s.Inv) : NextInv (execMzeroSw f s) := by
  refine run_inv h fun info f => ?_
  grind [NextInv, State.Inv, InvOf, Halt.Inv, illegal_inv, misaligned_inv, State.modTeam_mem]

theorem mmaOp_inv (i : Instr) (s : State) (swal : Bool) (h : s.Inv) : NextInv (mmaOp i s swal) := by
  have arrives : ∀ (t : Nat) (f : Team → Team), (s.modTeam t f).Inv := fun _ _ => h
  refine run_inv h fun info f => ?_
  dsimp only
  repeat' split
  all_goals grind [InvOf, Halt.Inv, illegal]

@[simp] theorem execMma_inv (f : Form) (s : State) (h : s.Inv) : NextInv (execMma f s) := mmaOp_inv _ _ _ h

@[simp] theorem execMmaSw_inv (f : Form) (s : State) (h : s.Inv) : NextInv (execMmaSw f s) := mmaOp_inv _ _ _ h

theorem State.releaseStep_mem (s : State) (t : Nat) : (s.releaseStep t).mem = s.mem := by
  unfold State.releaseStep
  dsimp only
  split
  · rfl
  · split
    · rfl
    · split
      · rfl
      · exact foldl_mem (fun u _ => State.asGroup_mem _ _ _ fun v => by rw [State.takeTrap_mem, State.counted_mem]) _ _
      · exact foldl_mem (fun u _ => State.modGroup_mem _ _ _) _ _

@[simp] theorem execGangStepRelease_inv (s : State) (h : s.Inv) : NextInv (execGangStepRelease s) := by
  grind [execGangStepRelease, NextInv, State.Inv, State.releaseStep_mem]

theorem State.completeStep_mem (s : State) (t : Nat) : (s.completeStep t).mem = s.mem := by
  fun_cases State.completeStep s t
  · rfl
  · rfl
  · exact foldl_mem (fun u _ => State.asGroup_mem _ _ _ fun v => by rw [retire_mem, State.raise_mem]) _ _

@[simp] theorem execMmaStepComplete_inv (s : State) (h : s.Inv) : NextInv (execMmaStepComplete s) := by
  grind [execMmaStepComplete, NextInv, State.Inv, State.completeStep_mem]

@[simp] theorem execGang_inv (f : Form) (s : State) (h : s.Inv) : NextInv (execGang f s) := by
  refine run_inv h fun info f => ?_
  grind [NextInv, State.Inv, InvOf, Halt.Inv, illegal_inv, misaligned_inv, State.modTeam_mem]

@[simp] theorem execMdr_inv (f : Form) (s : State) (h : s.Inv) : NextInv (execMdr f s) := by
  refine run_inv h fun info f => ?_
  grind [NextInv, State.Inv, InvOf, Halt.Inv, illegal_inv, misaligned_inv, State.raise_mem, State.setTeam_mem, writeRange_inv]

theorem sdrOp_inv (i : Instr) (s : State) (fn : Nat) (h : s.Inv) : NextInv (sdrOp i s fn) := by
  refine run_inv h fun info f => ?_
  grind [NextInv, State.Inv, InvOf, Halt.Inv, illegal_inv, misaligned_inv, State.raise_mem, State.setTeam_mem, writeRange_inv]

@[simp] theorem execSdrDiff_inv (f : Form) (s : State) (h : s.Inv) : NextInv (execSdrDiff f s) := sdrOp_inv _ _ _ h

@[simp] theorem execSdrRatio_inv (f : Form) (s : State) (h : s.Inv) : NextInv (execSdrRatio f s) := sdrOp_inv _ _ _ h

@[simp] theorem execSdrAgree_inv (f : Form) (s : State) (h : s.Inv) : NextInv (execSdrAgree f s) := sdrOp_inv _ _ _ h

@[simp] theorem execAgset_inv (f : Form) (s : State) (h : s.Inv) : NextInv (execAgset f s) := by
  refine run_inv h fun info f => ?_
  grind [NextInv, State.Inv, InvOf, Halt.Inv, illegal_inv, misaligned_inv, State.modTeam_mem]

@[simp] theorem execRacq_inv (f : Form) (s : State) (h : s.Inv) : NextInv (execRacq f s) := by
  refine run_inv h fun info f => ?_
  grind [NextInv, State.Inv, InvOf, Halt.Inv, illegal_inv, misaligned_inv]

@[simp] theorem execRrel_inv (f : Form) (s : State) (h : s.Inv) : NextInv (execRrel f s) := by
  refine run_inv h fun info f => ?_
  grind [NextInv, State.Inv, InvOf, Halt.Inv, illegal_inv, misaligned_inv, State.modTeam_mem]

@[simp] theorem execRcfg_inv (f : Form) (s : State) (h : s.Inv) : NextInv (execRcfg f s) := by
  refine run_inv h fun info f => ?_
  grind [NextInv, State.Inv, InvOf, Halt.Inv, illegal_inv, misaligned_inv, State.modTeam_mem]


/-! ### Copies -/

theorem State.modBatch_mem (s : State) (g : Nat) (serial : Nat) (f : Batch → Batch) : (s.modBatch g serial f).mem = s.mem := by
  grind [State.modBatch]

@[simp] theorem execCseal_inv (f : Form) (s : State) (h : s.Inv) : NextInv (execCseal f s) := by
  refine run_inv h fun info f => ?_
  grind [NextInv, State.Inv, InvOf, Halt.Inv, illegal_inv, misaligned_inv, State.setScalar_mem]

@[simp] theorem execCwait_inv (f : Form) (s : State) (h : s.Inv) : NextInv (execCwait f s) := by
  refine run_inv h fun info f => ?_
  grind [NextInv, State.Inv, InvOf, Halt.Inv, illegal_inv, misaligned_inv, State.modBatch_mem]

theorem State.castIssue_mem (s : State) (c : Copy) : (s.castIssue c).mem = s.mem := by
  grind [State.castIssue, State.followLines_mem, State.modCohort_mem, foldl_mem]

theorem State.markCopy_mem (s : State) (c : Copy) (landed : Nat) (st : Nat) : (s.markCopy c landed st).mem = s.mem := by
  grind [State.markCopy, State.modTeam_mem]

theorem State.putCopy_mem (s : State) (core : Nat) (id : Nat) (c : Copy) : (s.putCopy core id c).mem = s.mem := rfl

theorem State.eraseCopy_mem (s : State) (core : Nat) (id : Nat) : (s.eraseCopy core id).mem = s.mem := rfl

theorem State.endCopy_mem (s : State) (core : Nat) (id : Nat) (c : Copy) : (s.endCopy core id c).mem = s.mem := by
  grind [State.endCopy, State.modBatch_mem, State.eraseCopy_mem, State.releaseCohort_mem, State.modCohort_mem]

theorem State.freeEntry_mem (s : State) (core : Nat) (e : Nat) : (s.freeEntry core e).mem = s.mem := rfl

def Landing.state : Landing → State
  | .byte _ _ s | .done _ _ s | .wait _ s | .replay _ _ s | .bad _ _ s => s

theorem State.skipCast_mem (s : State) (dead : Nat → Bool) (core : Nat) (id : Nat) (c : Copy) :
    (s.skipCast dead core id c).mem = s.mem := by
  have thawed : ∀ (t : State) (o : Option Nat), (o.elim t (t.freeEntry core)).mem = t.mem := by
    rintro t (_ | e)
    · rfl
    · exact t.freeEntry_mem core e
  fun_cases State.skipCast s dead core id c
  · rfl
  all_goals grind [State.endCopy_mem, State.markCopy_mem, State.putCopy_mem]

theorem State.issueCopy_mem (s : State) (c : Copy) : (s.issueCopy c).mem = s.mem := by
  grind [State.issueCopy, State.skipCast_mem, State.putCopy_mem, State.modTeam_mem, State.modBatch_mem, State.castIssue_mem]

theorem copyOp_inv (i : Instr) (s : State) (kind : CopyKind) (h : s.Inv) : NextInv (copyOp i s kind) := by
  refine run_inv h fun info f => ?_
  grind [NextInv, State.Inv, InvOf, Halt.Inv, illegal_inv, misaligned_inv, State.issueCopy_mem, readSources_inv]

@[simp] theorem execCpy_inv (f : Form) (s : State) (h : s.Inv) : NextInv (execCpy f s) := copyOp_inv _ _ _ h

@[simp] theorem execCpg_inv (f : Form) (s : State) (h : s.Inv) : NextInv (execCpg f s) := copyOp_inv _ _ _ h

@[simp] theorem execCpm_inv (f : Form) (s : State) (h : s.Inv) : NextInv (execCpm f s) := copyOp_inv _ _ _ h

@[simp] theorem execMdrSp_inv (f : Form) (s : State) (h : s.Inv) : NextInv (execMdrSp f s) := by
  refine run_inv h fun info f => ?_
  dsimp only
  repeat' split
  all_goals grind [InvOf, Halt.Inv, illegal, misaligned, badAddress, State.setTeam_mem, State.raise_mem, State.issueCopy_mem, State.Inv]

theorem State.copyTranslate_mem (s : State) (core : Nat) (c : Copy) (a : Nat) (va : Word) (write : Bool) :
    (s.copyTranslate core c a va write).2.mem = s.mem := by
  grind [State.copyTranslate, State.translate_mem]

theorem State.copyAsk_mem (s : State) (c : Copy) (write : Bool) (n : Nat) (va : Word) (limit : Bool) (out : Nat → Outgoing) :
    (s.copyAsk c write n va limit out).state.mem = s.mem := rfl

theorem State.sourceGranule_mem (s : State) (c : Copy) (a : Nat) (h : Home) : (s.sourceGranule c a h).state.mem = s.mem := by
  fun_cases State.sourceGranule s c a h <;> grind [Landing.state, State.refuse_mem, State.readOffs_mem, State.readOffs_error_mem,
    State.copyAsk_mem]

theorem State.sourceByte_mem (s : State) (core : Nat) (c : Copy) (a : Int) : (s.sourceByte core c a).state.mem = s.mem := by
  fun_cases State.sourceByte s core c a <;> grind [Landing.state, State.logArray_mem, State.copyTranslate_mem, State.sourceGranule_mem]

theorem State.runStart_mem (s : State) (c : Copy) (r : Nat) {l : Landing} (h : s.runStart c r = .inl l) : l.state.mem = s.mem := by
  grind [State.runStart, Landing.state, State.logArray_mem]

theorem State.copyByte_mem (s : State) (core : Nat) (c : Copy) (k : Nat) : (s.copyByte core c k).state.mem = s.mem := by
  fun_cases State.copyByte s core c k <;> grind [Landing.state, State.runStart_mem, State.sourceByte_mem]

theorem State.cohortByte_mem (s : State) (k : Nat) (pos : Nat) (x : Nat) (b : Byte) : (s.cohortByte k pos x b).mem = s.mem := rfl

theorem State.landScratch_mem (s : State) (c : Copy) (pos : Nat) (k : Nat) (x : Nat) (b : Byte) :
    (s.landScratch c pos k x b).mem = s.mem := by
  grind [State.landScratch, State.cohortByte_mem, State.spWrite_mem, State.spHeal_mem]

theorem State.landRun_inv (s : State) (core : Nat) (c : Copy) (a : Nat) (bs : List Byte) (h : s.Inv) :
    (s.landRun core c a bs).state.Inv := by
  fun_cases State.landRun s core c a bs <;> grind [Landing.state, State.copyTranslate_mem, State.refuse_mem, State.writeRuns_inv,
    State.modPart_mem, State.copyAsk_mem, State.Inv]

theorem State.copyBytes_mem (core n k : Nat) (bs : List Byte) (c : Copy) (s : State) :
    (State.copyBytes core n k bs c s).2.2.1.mem = s.mem ∧ ∀ l ∈ (State.copyBytes core n k bs c s).2.2.2, l.state.mem = s.mem := by
  fun_induction State.copyBytes core n k bs c s <;> grind [Landing.state, State.copyByte_mem]

theorem State.landGlobal_inv (s : State) (core : Nat) (c : Copy) (a n : Nat) (h : s.Inv) : (s.landGlobal core c a n).state.Inv := by
  fun_cases State.landGlobal s core c a n <;> grind [Landing.state, State.copyBytes_mem, State.landRun_inv, State.Inv]

theorem State.copyAnswer_mem (s : State) (c : Copy) {l : Landing} (h : s.copyAnswer c = some l) : l.state.mem = s.mem := by
  obtain ⟨a, -, rfl⟩ := Option.map_eq_some_iff.1 h
  grind [Landing.state]

theorem State.landNext_inv (s : State) (core : Nat) (c : Copy) (h : s.Inv) : (s.landNext core c).state.Inv := by
  have answered : ∀ l, s.copyAnswer c = some l → l.state.Inv := by grind [State.copyAnswer_mem, State.Inv]
  have lands : ∀ (c : Copy) (t : State) (k : Nat) (b : Byte), t.Inv → (t.landScratch c c.pos k (c.dstAt k).toNat b).Inv := by
    grind [State.landScratch_mem, State.Inv]
  fun_cases State.landNext s core c <;> grind [Landing.state, State.copyByte_mem, State.landGlobal_inv, State.landScratch_mem, State.Inv]

theorem State.breakCopy_mem (s : State) (core : Nat) (id : Nat) (c : Copy) (va : Word) : (s.breakCopy core id c va).mem = s.mem := by
  grind [State.breakCopy, State.notify_mem, State.endCopy_mem, State.modBatch_mem, State.markCopy_mem]

theorem State.freezeCopy_mem (s : State) (core : Nat) (id : Nat) (c : Copy) (va : Word) (entry : Option Nat) :
    (s.freezeCopy core id c va entry).mem = s.mem := by
  grind [State.freezeCopy, State.notify_mem, State.putCopy_mem, State.modCore_mem, State.markCopy_mem]

theorem State.landN_inv (core id k n : Nat) (c : Copy) (s : State) (h : s.Inv) : (State.landN core id k n c s).Inv := by
  fun_induction State.landN core id k n c s <;>
    grind [Landing.state, State.landNext_inv, State.putCopy_mem, State.endCopy_mem, State.markCopy_mem, State.freezeCopy_mem,
    State.breakCopy_mem, State.Inv]

@[simp] theorem execCopyLand_inv (c : Nat) (id : Nat) (n : Nat) (s : State) (h : s.Inv) : NextInv (execCopyLand c id n s) := by
  grind [execCopyLand, NextInv, State.Inv, State.landN_inv, State.markCopy_mem]

theorem State.setLine_mem (s : State) (c : Copy) (pos : Nat) (t : Nat) : (s.setLine c pos t).mem = s.mem := by
  grind [State.setLine, State.followLines_mem, State.modCohort_mem]

theorem State.castN_mem (core id pos : Nat) (c : Copy) (n : Nat) (s : State) : (State.castN core id pos c n s).mem = s.mem := by
  induction n generalizing c s with
  | zero => exact s.putCopy_mem ..
  | succ n ih =>
    unfold State.castN
    dsimp only
    split
    · exact s.putCopy_mem ..
    · split
      · exact s.putCopy_mem ..
      · split
        · have byte := s.copyByte_mem core c (c.fronts.get pos 0)
          split <;> grind [Landing.state, State.landScratch_mem, State.setLine_mem, State.putCopy_mem,
            State.endCopy_mem, State.markCopy_mem, State.freezeCopy_mem, State.breakCopy_mem]
        · next b c' t answer =>
          have answered := s.copyAnswer_mem c answer
          have byte := t.copyByte_mem core c' (c.fronts.get pos 0)
          split <;> grind [Landing.state, State.landScratch_mem, State.setLine_mem, State.putCopy_mem,
            State.endCopy_mem, State.markCopy_mem, State.freezeCopy_mem, State.breakCopy_mem]
        · next va c' t answer => rw [State.breakCopy_mem]; exact s.copyAnswer_mem c answer
        · exact s.putCopy_mem ..

@[simp] theorem execMulticastLand_inv (c : Nat) (id : Nat) (pos : Nat) (n : Nat) (s : State) (h : s.Inv) :
    NextInv (execMulticastLand c id pos n s) := by
  grind [execMulticastLand, NextInv, State.Inv, State.castN_mem, State.markCopy_mem]

theorem wmRead_inv (i : Instr) (s : State) (field : Watermark → Nat) (h : s.Inv) : NextInv (wmRead i s field) := by
  refine run_inv h fun info f => ?_
  grind [NextInv, State.Inv, InvOf, Halt.Inv, illegal_inv, misaligned_inv, State.setScalar_mem]

@[simp] theorem execWmrdMark_inv (f : Form) (s : State) (h : s.Inv) : NextInv (execWmrdMark f s) := wmRead_inv _ _ _ h

@[simp] theorem execWmrdState_inv (f : Form) (s : State) (h : s.Inv) : NextInv (execWmrdState f s) := wmRead_inv _ _ _ h

@[simp] theorem execWmrdBase_inv (f : Form) (s : State) (h : s.Inv) : NextInv (execWmrdBase f s) := wmRead_inv _ _ _ h

@[simp] theorem execWmrdLimit_inv (f : Form) (s : State) (h : s.Inv) : NextInv (execWmrdLimit f s) := wmRead_inv _ _ _ h

@[simp] theorem execWmcfg_inv (f : Form) (s : State) (h : s.Inv) : NextInv (execWmcfg f s) := by
  refine run_inv h fun info f => ?_
  dsimp only
  repeat' split
  all_goals grind [InvOf, Halt.Inv, illegal, misaligned, badAddress, State.modTeam_mem, State.followLines_mem, State.Inv]

theorem State.stillFaults_mem (s : State) (core : Nat) (va : Word) (write : Bool) : (s.stillFaults core va write).2.2.mem = s.mem := by
  grind [State.stillFaults, State.translate_mem]

theorem accessMeaning_inv {i : Instr} {r : State → Host.Outcome State Fault Refusal} (h : accessMeaning i = some r) (s : State) (hs
  : s.Inv) :
    NextInv (r s) := by
  cases i <;> simp only [accessMeaning, Option.some.injEq, reduceCtorEq] at h <;> subst h <;> simp [hs]

theorem State.asReduced_inv {s : State} {reduced : Bool} {f : State → Host.Outcome State Fault Refusal} (hf : ∀ t,
  t.Inv → NextInv (f t)) (h : s.Inv) :
    NextInv (s.asReduced reduced f) := by
  unfold State.asReduced
  split
  · have := hf (s.modPart s.myPart fun x => { x with service := 1 }) h
    dsimp only
    split <;> grind [NextInv, State.Inv, State.modPart_mem]
  · exact hf s h

theorem State.finishAccess_inv (s : State) (p : Parked) (found : Option (Word × Home × Bool)) (h : s.Inv) :
    (s.finishAccess p found).Inv := by
  unfold State.finishAccess
  dsimp only
  split
  · exact h
  · split
    · exact h
    · next r hr =>
      obtain ⟨i, -, hi⟩ := Option.bind_eq_some_iff.1 hr
      have := State.asReduced_inv (s := { s with me := { s.me with status := .running, parked := none, granted := found } }) (reduced := p.reduced)
        (accessMeaning_inv hi) h
      split
      · next t ht =>
        have := this t ht
        exact this
      · exact h

theorem State.asGroup_inv {s : State} {g : Nat} {f : State → State} (hf : ∀ t, t.Inv → (f t).Inv) (h : s.Inv) : (s.asGroup g f).Inv := by
  have := hf (s.turn g) (by grind [State.turn_mem, State.Inv])
  grind [State.asGroup, State.noTurn_mem, State.turn_mem, State.Inv]

theorem State.resumeAccess_inv (s : State) (g : Nat) (p : Parked) (found : Option (Word × Home × Bool)) (h : s.Inv) :
    (s.resumeAccess g p found).Inv := by
  have := State.asGroup_inv (s := s) (g := g) (fun t ht => t.finishAccess_inv p found ht) h
  grind [State.resumeAccess, State.fill_mem, State.Inv]

theorem State.condemned_mem (s : State) (g : Nat) (p : Parked) : (s.condemned g p).mem = s.mem := by
  unfold State.condemned
  split
  · rw [State.fill_mem]
    exact State.asGroup_mem _ _ _ fun t => by rw [State.takeTrap_mem]; split <;> rfl
  · exact State.modGroup_mem _ _ _

theorem State.replayEntry_inv (s : State) (core : Nat) (e : Nat) (o : FbOwner) (va : Word) (h : s.Inv) :
    (s.replayEntry core e o va).Inv := by
  fun_cases State.replayEntry s core e o va <;> grind [State.Inv, Halt.Inv, InvOf, NextInv, State.notify_mem, State.putCopy_mem,
    State.condemned_mem, State.reportPark_mem, State.freeEntry_mem, State.resumeAccess_inv, State.markCopy_mem, State.stillFaults_mem,
    foldl_mem]

theorem State.condemnEntry_mem (s : State) (core : Nat) (e : Nat) (o : FbOwner) (va : Word) : (s.condemnEntry core e o va).mem = s.mem := by
  fun_cases State.condemnEntry s core e o va <;> grind [State.condemned_mem, State.breakCopy_mem, State.freeEntry_mem, foldl_mem]

@[simp] theorem execFbsvc_inv (f : Form) (s : State) (h : s.Inv) : NextInv (execFbsvc f s) := by
  have drained : (s.drainWc s.meId).Inv := by grind [State.drainWc_mem, State.Inv]
  unfold execFbsvc
  extract_lets bad
  refine runIf_inv h fun info f => ?_
  dsimp only
  split
  · exact trivial
  · cases hr : s.me.returned true with
    | error e => exact returned_inv hr
    | ok u =>
      simp only [Except.map, InvOf, id]
      repeat' split
      all_goals grind [State.setScalar_mem, State.replayEntry_inv, State.condemnEntry_mem, State.Inv]

@[simp] theorem execAccessRestart_inv (s : State) (h : s.Inv) : NextInv (execAccessRestart s) := by
  grind [execAccessRestart, NextInv, State.Inv, State.setGroup_mem, State.condemned_mem, State.modCore_mem, State.reportPark_mem,
    State.resumeAccess_inv, State.stillFaults_mem]


/-! ### Frames of pre-emption -/

theorem State.writeFrame_inv (s : State) (t i : Nat) (full still : Bool) (base : Nat) (h : s.Inv) :
    (s.writeFrame t i full still base).Inv :=
  s.hwWrite_inv _ _ _ _ _ h

theorem State.failPreempt_mem (s : State) (t : Nat) (va : Nat) : (s.failPreempt t va).mem = s.mem := by
  unfold State.failPreempt
  dsimp only
  rw [State.notify_mem, State.fill_mem, State.setAway_mem, foldl_mem fun u _ => State.modGroup_mem _ _ _, State.modTeam_mem]

@[simp] theorem execGroupFrameWrite_inv (s : State) (h : s.Inv) : NextInv (execGroupFrameWrite s) := by
  have drained : ∀ t i full still base, (({ s.drainWc s.subject with free := s.free + 1 } : State).writeFrame t i full still base).Inv :=
    fun t i full still base => State.writeFrame_inv _ t i full still base (by grind [State.drainWc_mem, State.Inv])
  intro t ht
  simp only [execGroupFrameWrite, Host.Outcome.next.injEq] at ht
  subst ht
  split
  · split
    · exact h
    · split <;> grind [Hw.Inv, State.setAway_mem, State.modTeam_mem, State.hwAsked_mem, State.failPreempt_mem, State.Inv]
  · exact h

theorem State.writeFrames_inv (t : Nat) (full : Bool) (base : Nat) (is : List Nat) (s : State) (h : s.Inv) :
    (State.writeFrames t full base is s).Inv := by
  fun_induction State.writeFrames t full base is s <;> grind [Hw.Inv, State.writeFrame_inv]

theorem State.leaveCore_mem (s : State) (t : Nat) (q : Preempt) : (s.leaveCore t q).mem = s.mem := by
  unfold State.leaveCore
  dsimp only
  rw [State.notify_mem, State.setAway_mem, State.modTeam_mem, foldl_mem]
  · grind [State.keepSources_mem]
  · intro u g
    rw [State.modGroup_mem]
    split
    · exact u.releaseGroup_mem _
    · rfl

@[simp] theorem execTeamSectionsWrite_inv (s : State) (h : s.Inv) : NextInv (execTeamSectionsWrite s) := by
  have written : ∀ t full base is, (State.writeFrames t full base is { s with free := s.free + 1 }).Inv :=
    fun t full base is => State.writeFrames_inv t full base is _ h
  intro t ht
  simp only [execTeamSectionsWrite, Host.Outcome.next.injEq] at ht
  subst ht
  split
  · exact h
  · split
    · exact h
    · split <;> grind [Hw.Inv, State.leaveCore_mem, State.hwAsked_mem, State.failPreempt_mem, State.Inv]

def Frames.Inv : Frames → Prop
  | .ok _ s | .refused _ s | .wait s => s.Inv

theorem State.readFrames_inv (t : Nat) (is : List Nat) (s : State) (h : s.Inv) : (State.readFrames t is s).Inv := by
  have read : ∀ (u : State) (p c : Nat) (w : Who) (a n : Nat), u.Inv → (u.hwRead p c w a n).Inv := fun u p c w a n hu => u.hwRead_inv p c w a n hu
  fun_induction State.readFrames t is s <;> grind [Frames.Inv, Hw.Inv]

theorem State.claimBanks_mem (p g : Nat) (es : List (Nat × BitVec 32)) (s : State) :
    ∀ t, State.claimBanks p g es s = some t → t.2.mem = s.mem := by
  fun_induction State.claimBanks p g es s <;> grind [State.ownBank_mem]

theorem State.putPlaced_mem (s : State) (t : Nat) (p : Nat) (e : BitVec 32) (v : VReg) : (s.putPlaced t p e v).mem = s.mem := by
  grind [State.putPlaced, State.writeSlot_mem, State.setBankReg_mem]

theorem State.putSection_mem (s : State) (t : Nat) (p : Nat) (g : Group) (f : Frame) (pl : Nat) (k : Nat) :
    (s.putSection t p g f pl k).mem = s.mem := by
  grind [State.putSection, State.putPlaced_mem, foldl_mem]

theorem State.putQueues_mem (s : State) (g : Group) (f : Frame) : (s.putQueues g f).mem = s.mem := by
  grind [State.putQueues, State.modCulvert_mem, foldl_mem]

theorem State.refuseRestore_mem (s : State) (t : Nat) (code : Nat) : (s.refuseRestore t code).mem = s.mem := rfl

theorem State.recordOf_mem (s : State) (t : Nat) (i : Nat) : (s.recordOf t i).2.2.mem = s.mem := by
  grind [State.recordOf]

theorem State.restoreGroup_mem (s : State) (t : Nat) (f : Frame) (full : Bool) : ∀ u, s.restoreGroup t f full = some u → u.mem = s.mem := by
  have places : ∀ (u : State) (r : Relief) (p : Nat), ((List.range 8).foldl (fun u j =>
      u.putPlaced t p (r.map.getD j 0) (r.regs.getD j .fresh)) u).mem = u.mem := fun u _ _ => foldl_mem (fun u _ => u.putPlaced_mem ..) _ u
  have claimed : ∀ p g es (v : State) m u, (if full then State.claimBanks p g es v else some ([], v)) = some (m, u) → u.mem = v.mem := by
    intro p g es v m u e
    split at e
    · exact State.claimBanks_mem _ _ _ _ _ e
    · simp_all
  intro u hu
  unfold State.restoreGroup at hu
  dsimp only at hu
  split at hu
  · grind [State.leaveGroup_mem]
  · rcases hv : s.recordOf t f.index with ⟨g, old, v⟩
    have hv' : v.mem = s.mem := by grind [State.recordOf_mem]
    simp only [hv] at hu
    split at hu
    · simp at hu
    · next m w hw =>
      rw [← hv', ← claimed _ _ _ _ _ _ hw]
      have moved : ∀ (x : State) (b : Prop) [Decidable b] k, (if b then x else { x with cores := k }).mem = x.mem := by
        intro x b _ k; split <;> rfl
      split at hu
      · simp only [Option.some.injEq] at hu
        rw [← hu, moved, State.seat_mem, State.setGroup_mem]
      · simp only [Option.some.injEq] at hu
        rw [← hu]
        split
        · rw [State.putSection_mem, State.putSection_mem, State.putQueues_mem, State.modCore_mem, moved, State.seat_mem, State.setGroup_mem]
        · rw [places, State.putSection_mem, State.putSection_mem, State.putQueues_mem, State.modCore_mem, moved, State.seat_mem, State.setGroup_mem]

theorem State.restoreGroups_mem (t : Nat) (full : Bool) (fs : List Frame) (s : State) :
    ∀ u, State.restoreGroups t full fs s = some u → u.mem = s.mem := by
  fun_induction State.restoreGroups t full fs s <;> grind [State.restoreGroup_mem]

theorem State.notePlace_mem (s : State) (t : Nat) : (s.notePlace t).mem = s.mem := rfl

theorem State.restoreTeam_mem (s : State) (t : Nat) (fs : List Frame) : ∀ u, s.restoreTeam t fs = some u → u.mem = s.mem := by
  intro u hu
  unfold State.restoreTeam at hu
  dsimp only at hu
  split at hu
  · simp at hu
  · split at hu
    · simp at hu
    · next v hv =>
      have hv' := State.restoreGroups_mem _ _ _ _ _ hv
      simp only [Option.some.injEq] at hu
      rw [← hu, State.notify_mem, State.fill_mem, State.setAway_mem]
      split <;> simp [State.followLines_mem, State.modCore_mem, State.notePlace_mem, State.moveCulverts_mem, State.modTeam_mem, hv']

theorem State.unhold_mem (s : State) (t : Nat) : (s.unhold t).mem = s.mem := by
  grind [State.unhold, State.modTeam_mem]

theorem State.restoreTeams_mem (s : State) (ts : List (Nat × List Frame)) : ∀ u, s.restoreTeams ts = some u → u.mem = s.mem := by
  fun_induction State.restoreTeams s ts <;> grind [State.restoreTeam_mem]

theorem State.framesOf_inv (ts : List Nat) (s : State) (h : s.Inv) : (State.framesOf ts s).Inv := by
  fun_induction State.framesOf ts s <;> grind [Hw.Inv, Frames.Inv, State.readFrames_inv]

theorem State.holdRestore_mem (s : State) (t : Nat) : (s.holdRestore t).mem = s.mem := rfl

theorem State.restoreAll_inv (s : State) (ts : List Nat) (h : s.Inv) : (s.restoreAll ts).Inv := by
  have frames := State.framesOf_inv ts s h
  fun_cases State.restoreAll s ts <;>
    grind [Hw.Inv, State.restoreTeams_mem, State.hwAsked_mem, foldl_mem, State.holdRestore_mem, State.refuseRestore_mem, State.Inv]

@[simp] theorem execRestorePlacement_inv (s : State) (h : s.Inv) : NextInv (execRestorePlacement s) := by
  have unheld : (s.unhold s.subject).Inv := by grind [State.unhold_mem, State.Inv]
  have restored := fun ts => (s.unhold s.subject).restoreAll_inv ts unheld
  intro t ht
  simp only [execRestorePlacement, Host.Outcome.next.injEq] at ht
  subst ht
  split
  · exact h
  · split
    · exact unheld
    · split
      · exact unheld
      · split
        · next v ok =>
          have hv : v.Inv := (congrArg Hw.Inv ok).mp (restored _)
          split
          · exact hv
          · exact (congrArg (Memory.wf · = true) (foldl_mem (fun u _ => u.wakeIsland_mem _) _ _)).mpr unheld
        · exact unheld
        · exact unheld


/-! ### Launches and placement -/

theorem State.readTable_inv (s : State) (p core : Nat) (w : Who) (e : Nat) (h : s.Inv) : (s.readTable p core w e).Inv := by
  have first := s.hwRead_inv p core w e 16 h
  unfold State.readTable
  split
  · next bs t read =>
    rw [read] at first
    split
    · exact first
    · exact t.hwRead_inv _ _ _ _ _ first
  · exact first

/-- What the checks of a record leave keeps the form of main memory. -/
def Checked.Inv : Checked → Prop
  | .bad _ _ s | .wait s | .ok _ _ s => s.Inv

theorem State.checkRecord_inv (s : State) (p core : Nat) (w : Who) (x : Nat) (h : s.Inv) : (s.checkRecord p core w x).Inv := by
  have record := s.hwRead_inv p core w x 64 h
  have table := fun t e (ht : State.Inv t) => t.readTable_inv p core w e ht
  unfold State.checkRecord
  dsimp only
  repeat' split
  all_goals grind [Checked.Inv, Hw.Inv]

theorem State.launch_inv (s : State) (x : Nat) (h : s.Inv) : (s.launch x).2.Inv := by
  have checked := s.checkRecord_inv s.myPart s.me.core { s.who s.me (BitVec.ofNat 64 x) 0 with own := true } x h
  unfold State.launch
  dsimp only
  split
  · exact h
  · grind [Checked.Inv, State.notify_mem, State.hwAsked_mem, State.Inv]
  · grind [Checked.Inv, State.hwAsked_mem, State.modPart_mem, State.Inv]

@[simp] theorem execLnch_inv (f : Form) (s : State) (h : s.Inv) : NextInv (execLnch f s) := by
  refine run_inv h fun info f => ?_
  grind [NextInv, State.Inv, InvOf, Halt.Inv, illegal_inv, misaligned_inv, State.launch_inv, State.setScalar_mem]

theorem State.bindCohort_mem (s : State) (p : Nat) (slot : Nat) (l : Launch) (k : Nat) (ts : List TeamRec) :
    (s.bindCohort p slot l k ts).mem = s.mem := by
  grind [State.bindCohort, State.setTeam_mem, State.modPart_mem, foldl_mem]

/-- The binding found for a cohort keeps the form of main memory. -/
def Binding.Inv : Binding → Prop
  | .no => True
  | .wait s | .yes _ _ s => s.Inv

theorem State.bindable_inv (s : State) (p : Nat) (l : Launch) (h : s.Inv) : (s.bindable p l).Inv := by
  have table := s.readTable_inv p noCore { va := BitVec.ofNat 64 l.entry, source := 7 } l.entry h
  unfold State.bindable
  dsimp only
  repeat' split
  all_goals grind [Binding.Inv, Hw.Inv]

@[simp] theorem execCohortBind_inv (p slot : Nat) (s : State) (h : s.Inv) : NextInv (execCohortBind p slot s) := by
  have bound := fun l => s.bindable_inv p l h
  rintro t ⟨⟩
  split
  · exact h
  · split
    · exact h
    · split
      · exact h
      · exact h
      · grind [Binding.Inv, State.bindCohort_mem, State.hwAsked_mem, State.Inv]

theorem State.claimPlaces_mem (s : State) (t : Nat) (p : Nat) (g : Nat) (ps : List PlaceRec) : (s.claimPlaces t p g ps).mem = s.mem := by
  grind [State.claimPlaces, State.putPlaced_mem, State.ownBank_mem, foldl_mem]

theorem State.startGroups_mem (s : State) (tid : Nat) (cohortIndex : Nat) (x3 : List (Nat × GroupRec)) :
    (s.startGroups tid cohortIndex x3).mem = s.mem := by
  fun_induction State.startGroups s tid cohortIndex x3 <;> grind [State.modCulvert_mem, State.seat_mem, State.claimPlaces_mem, foldl_mem]

theorem State.placeTeam_mem {s u : State} {t cohortIndex : Nat} {r : TeamRec} (e : s.placeTeam t r cohortIndex = some u) :
    u.mem = s.mem := by
  unfold State.placeTeam at e
  dsimp only at e
  split at e
  · cases e
  · cases e
    rw [State.startGroups_mem]
    rfl

theorem State.placed_mem (s : State) (t : Nat) : (s.placed t).mem = s.mem := by
  grind [State.placed, State.notePlace_mem, State.modPart_mem]

theorem State.templateOf_inv (s : State) (t : Nat) (h : s.Inv) : (s.templateOf t).Inv := by
  have table := fun u p w e (hu : State.Inv u) => u.readTable_inv p noCore w e hu
  have record := fun p w a n => s.hwRead_inv p noCore w a n h
  unfold State.templateOf
  dsimp only
  repeat' split
  all_goals grind [Hw.Inv]

theorem State.tryPlace_inv (s : State) (t : Nat) (h : s.Inv) : (s.tryPlace t).Inv := by
  have template : (if (s.team t).state = .awarded then s.idly (·.templateOf t) else s.templateOf t).Inv := by
    split
    · exact s.idly_inv _ (fun u hu => u.templateOf_inv t hu) h
    · exact s.templateOf_inv t h
  unfold State.tryPlace
  dsimp only
  split
  · exact h
  · split
    · exact h
    · exact h
    · next r u read =>
      rw [read] at template
      split
      · exact h
      · next v place =>
        have placed : v.Inv := (congrArg (Memory.wf · = true) (State.placeTeam_mem place)).mpr template
        split <;> grind [State.placed_mem, State.wakeIsland_mem, State.keepAsks_mem, State.hwAsked_mem, State.Inv]

@[simp] theorem execTeamPlacement_inv (s : State) (h : s.Inv) : NextInv (execTeamPlacement s) := by
  grind [execTeamPlacement, NextInv, State.Inv, State.tryPlace_inv]

theorem State.landReport_inv (s : State) (p : Nat) (h : s.Inv) : (s.landReport p).Inv := by
  have written := fun w a bs => s.hwWrite_inv p noCore w a bs h
  unfold State.landReport
  dsimp only
  split
  · exact h
  · split
    · exact h
    · split
      · split <;> grind [Hw.Inv, State.teamReported_mem, State.modPart_mem, State.hwAsked_mem, State.Inv]
      · split <;> grind [Hw.Inv, State.keepAsks_mem, State.modPart_mem, State.hwAsked_mem, State.Inv]
      · next t wait => exact (congrArg Hw.Inv wait).mp (written _ _ _)

@[simp] theorem execTrapReportLanding_inv (s : State) (h : s.Inv) : NextInv (execTrapReportLanding s) := by
  grind [execTrapReportLanding, NextInv, State.Inv, State.landReport_inv]


/-! ### Swaps -/

theorem State.swapOut_mem (s : State) (g : Nat) (cycles : Nat) : (s.swapOut g cycles).mem = s.mem := by
  grind [State.swapOut, State.modGroup_mem, State.enter_mem]

@[simp] theorem execLongWaitSwap_inv (s : State) (h : s.Inv) : NextInv (execLongWaitSwap s) := by
  grind [execLongWaitSwap, NextInv, State.Inv, State.swapOut_mem]

@[simp] theorem execYieldSwap_inv (s : State) (h : s.Inv) : NextInv (execYieldSwap s) := by
  grind [execYieldSwap, NextInv, State.Inv, State.swapOut_mem]

@[simp] theorem execPromotion_inv (s : State) (h : s.Inv) : NextInv (execPromotion s) := by
  grind [execPromotion, NextInv, State.Inv, State.modGroup_mem, State.modCore_mem, State.swapOut_mem]

@[simp] theorem execSwapComplete_inv (s : State) (h : s.Inv) : NextInv (execSwapComplete s) := by
  grind [execSwapComplete, NextInv, State.Inv, State.modGroup_mem, State.fill_mem]


/-! ### Tenders -/

@[simp] theorem execBidf_inv (f : Form) (s : State) (h : s.Inv) : NextInv (execBidf f s) := by
  refine run_inv h fun info f => ?_
  have image := fun a b c d => loadBytes_inv (.bidf f) s a b c d h
  dsimp only
  repeat' split
  all_goals grind [InvOf, Halt.Inv, misaligned_inv, badAddress_inv, illegal_inv, State.modPart_mem, State.Inv]

@[simp] theorem execTndr_inv (f : Form) (s : State) (h : s.Inv) : NextInv (execTndr f s) := by
  refine runIf_inv h fun info f => ?_
  grind [NextInv, State.Inv, InvOf, Halt.Inv, illegal_inv, misaligned_inv, State.setScalar_mem, State.modPart_mem]

@[simp] theorem execTenderAnnounce_inv (s : State) (h : s.Inv) : NextInv (execTenderAnnounce s) := by
  grind [execTenderAnnounce, NextInv, State.Inv, State.modPart_mem]

@[simp] theorem execBidSample_inv (p : Nat) (rd : List (Nat × Nat × Nat)) (s : State) (h : s.Inv) : NextInv (execBidSample p rd s) := by
  grind [execBidSample, NextInv, State.Inv, State.modCore_mem, State.modPart_mem, foldl_mem]

@[simp] theorem execTenderWindowClose_inv (s : State) (h : s.Inv) : NextInv (execTenderWindowClose s) := by
  grind [execTenderWindowClose, NextInv, State.Inv, State.unreserve_mem, State.endTender_mem, State.modPart_mem]

theorem State.withdrew_mem (s : State) (c : Nat) : (s.withdrew c).mem = s.mem := by
  grind [State.withdrew, State.notify_mem, State.modCore_mem]

@[simp] theorem execAwardArrival_inv (s : State) (h : s.Inv) : NextInv (execAwardArrival s) := by
  grind [execAwardArrival, NextInv, State.Inv, State.unreserve_mem, State.withdrew_mem, State.modPart_mem]

@[simp] theorem execBenchExpiry_inv (s : State) (h : s.Inv) : NextInv (execBenchExpiry s) := by
  rintro t ⟨⟩
  split
  · split <;> grind [State.modCore_mem, State.Inv]
  · exact h

@[simp] theorem execWithdrawalArrival_inv (s : State) (h : s.Inv) : NextInv (execWithdrawalArrival s) := by
  grind [execWithdrawalArrival, NextInv, State.Inv, State.notify_mem, State.unreserve_mem, State.endTender_mem, State.withdrew_mem,
    State.modPart_mem]

@[simp] theorem execAcceptanceArrival_inv (s : State) (h : s.Inv) : NextInv (execAcceptanceArrival s) := by
  grind [execAcceptanceArrival, NextInv, State.Inv, State.tryPlace_inv, State.setTeam_mem, State.endTender_mem]

@[simp] theorem execTacc_inv (f : Form) (s : State) (h : s.Inv) : NextInv (execTacc f s) := by
  refine runIf_inv h fun info f => ?_
  grind [NextInv, State.Inv, InvOf, Halt.Inv, illegal_inv, misaligned_inv, State.setScalar_mem]


/-! ### Refresh, scrubs, exchanges and remaps -/

theorem State.modBank_mem (s : State) (p : Nat) (b : Nat) (f : Bank → Bank) : (s.modBank p b f).mem = s.mem := rfl

@[simp] theorem execBankRefresh_inv (p : Nat) (b : Nat) (s : State) (h : s.Inv) : NextInv (execBankRefresh p b s) := by
  grind [execBankRefresh, NextInv, State.Inv, State.modBank_mem]

@[simp] theorem execRefreshComplete_inv (p : Nat) (b : Nat) (s : State) (h : s.Inv) : NextInv (execRefreshComplete p b s) := by
  grind [execRefreshComplete, NextInv, State.Inv, State.modBank_mem]

@[simp] theorem execPostponedRefresh_inv (p : Nat) (b : Nat) (s : State) (h : s.Inv) : NextInv (execPostponedRefresh p b s) := by
  grind [execPostponedRefresh, NextInv, State.Inv, State.modBank_mem]

@[simp] theorem execActivationAlert_inv (p : Nat) (b : Nat) (s : State) (h : s.Inv) : NextInv (execActivationAlert p b s) := by
  grind [execActivationAlert, NextInv, State.Inv, State.modBank_mem]

theorem State.damageColumn_mem (s : State) (la : Nat) (syms : Nat) : (s.damageColumn la syms).mem = s.mem := by
  grind [State.damageColumn]

theorem State.patrolled_mem (s : State) (p : Nat) (la : Nat) : (s.patrolled p la).mem = s.mem := rfl

@[simp] theorem execPatrolScrub_inv (p : Nat) (la : Nat) (syms : Nat) (s : State) (h : s.Inv) : NextInv (execPatrolScrub p la syms s) := by
  grind [execPatrolScrub, NextInv, State.Inv, State.logArray_mem, State.damageColumn_mem, State.meetBeat_mem, State.patrolled_mem,
    State.correct_mem]

@[simp] theorem execSramScrub_inv (c : Nat) (_off : Nat) (bits : Nat) (s : State) (h : s.Inv) : NextInv (execSramScrub c _off bits s) := by
  grind [execSramScrub, NextInv, State.Inv, State.modPart_mem]

theorem State.modBus_mem (s : State) (p : Nat) (b : Nat) (f : Bus → Bus) : (s.modBus p b f).mem = s.mem := rfl

theorem State.retryBeat_mem (s : State) (p : Nat) (bus : Nat) (e : Beat) (owner : Option Report) :
    (s.retryBeat p bus e owner).mem = s.mem := by
  grind [State.retryBeat, State.modBus_mem, State.logTransfer_mem]

@[simp] theorem execBeatParityFail_inv (p : Nat) (bus : Nat) (grp : Nat) (la : Nat) (s : State) (h : s.Inv) :
    NextInv (execBeatParityFail p bus grp la s) := by
  grind [execBeatParityFail, NextInv, State.Inv, State.modBus_mem, State.retryBeat_mem]

@[simp] theorem execBusLineTest_inv (p : Nat) (bus : Nat) (line : Option Nat) (again : Bool) (s : State) (h : s.Inv) :
    NextInv (execBusLineTest p bus line again s) := by
  grind [execBusLineTest, NextInv, State.Inv, State.modBus_mem, State.logTransfer_mem]

theorem State.startExchange_mem (s : State) (p : Nat) (va : Nat) (la : Nat) : (s.startExchange p va la).mem = s.mem := by
  grind [State.startExchange, State.treeWalk_mem, State.modPart_mem]

theorem State.moveGranule_inv (s : State) (e : Exchange) (h : s.Inv) : (s.moveGranule e).Inv := by
  have read : ∀ (b : Prop) [Decidable b] c w, (if b then (s.readColumn c w).2 else s).Inv := by
    intro b _ c w
    split <;> grind [State.readColumn_mem, State.Inv]
  exact Memory.wf_writeN _ _ _ (read _ _ _)

theorem State.endExchange_inv (s : State) (p : Nat) (e : Exchange) (h : s.Inv) : (s.endExchange p e).Inv := by
  grind [State.endExchange, State.Inv, Halt.Inv, InvOf, NextInv, State.invalidatePart_mem, State.writeRuns_inv, State.modPart_mem]

@[simp] theorem execPageExchange_inv (p : Nat) (va : Nat) (la : Nat) (s : State) (h : s.Inv) : NextInv (execPageExchange p va la s) := by
  grind [execPageExchange, NextInv, State.Inv, State.moveGranule_inv, State.startExchange_mem, State.endExchange_inv, State.modPart_mem]

theorem State.loseSteward_mem (s : State) (t : Nat) : (s.loseSteward t).mem = s.mem := State.endTeam_mem ..

theorem State.loseTeam_mem (s : State) (t : Nat) : (s.loseTeam t).mem = s.mem := by
  grind [State.loseTeam, State.endTeam_mem, State.loseSteward_mem]

theorem State.reconfigured_mem (s : State) (p : Nat) : (s.reconfigured p).mem = s.mem := rfl

theorem State.loseHalf_inv (s : State) (p h : Nat) (hs : s.Inv) : (s.loseHalf p h).Inv := by
  refine foldl_inv (fun u x hu => ?_) _ _ (foldl_inv (fun u x hu => ?_) _ _ hs)
  · grind [State.invalidatePart_mem, State.Inv]
  · have := u.writeLeaf_inv x.1 x.2.base lostLeaf (exchWho x.2.base) hu
    grind [State.markStripe_mem, State.Inv]

theorem State.remap_inv (s : State) (p : Nat) (map : Word) (h : s.Inv) : (s.remap p map).Inv := by
  have lost : ∀ hs : List Nat, (hs.foldl (fun u k => u.loseHalf p k) s).Inv := fun hs => foldl_inv (fun u k hu => u.loseHalf_inv p k hu) _ _ h
  unfold State.remap State.Inv
  dsimp only
  rw [State.notify_mem, State.reconfigured_mem, State.modPart_mem, foldl_mem fun u b => State.modBank_mem .., foldl_mem State.loseTeam_mem]
  exact lost _

@[simp] theorem execRemapStep_inv (p : Nat) (map : Word) (s : State) (h : s.Inv) : NextInv (execRemapStep p map s) := by
  grind [execRemapStep, NextInv, State.Inv, State.modPart_mem, State.remap_inv]


/-! ### The host -/

theorem State.joinCheck_mem (s : State) : s.joinCheck.mem = s.mem := by
  grind [State.joinCheck, State.takeTrap_mem]

@[simp] theorem execJoinArrival_inv (s : State) (h : s.Inv) : NextInv (execJoinArrival s) := by
  grind [execJoinArrival, NextInv, State.Inv, State.joinCheck_mem]

theorem State.ringBytes_mem (p : Nat) (s : State) (x2 : Nat) (x3 : Option (Nat × Nat)) (x4 : List Byte) :
    (State.ringBytes p s x2 x3 x4).2.mem = s.mem := by
  fun_induction State.ringBytes p s x2 x3 x4 <;> grind [State.modQueue_mem, State.modPart_mem, foldl_mem]

theorem State.landRing_mem (s : State) (p : Nat) (off : Nat) (bytes : List Byte) : (s.landRing p off bytes).mem = s.mem := by
  grind [State.landRing, State.notify_mem, State.ringBytes_mem]

@[simp] theorem execDescriptorControlStore_inv (p : Nat) (q : Nat) (x : Word) (s : State) (h : s.Inv) :
    NextInv (execDescriptorControlStore p q x s) := by
  grind [execDescriptorControlStore, NextInv, State.Inv, State.controlStore_mem]

@[simp] theorem execConsWrite_inv (p : Nat) (q : Nat) (x : Word) (s : State) (h : s.Inv) : NextInv (execConsWrite p q x s) := by
  grind [execConsWrite, NextInv, State.Inv, State.consStore_mem]

@[simp] theorem execDescriptorWrite_inv (p : Nat) (q : Nat) (off : Nat) (x : Word) (s : State) (h : s.Inv) :
    NextInv (execDescriptorWrite p q off x s) := by
  grind [execDescriptorWrite, NextInv, State.Inv, State.fieldStore_mem]

theorem State.hostApply_inv (s : State) (p : Nat) (r : HostReq) (h : s.Inv) : (s.hostApply p r).Inv := by
  have written := fun a bs => s.writeRuns_inv a hostWho bs h
  unfold State.hostApply
  dsimp only
  cases r with
  | write off bytes => dsimp only; split; exact written _ _; exact h
  | read off n =>
    dsimp only
    split
    · exact h
    · split <;> grind [State.readOffs_mem, State.readOffs_error_mem, State.Inv]
  | atomic off fn wide c e =>
    have applied : ∀ (la : Nat) (op : HomeOp), match s.applyHome la hostWho op with
        | .ok (_, t) | .error (_, t) => t.Inv := by
      intro la op
      split
      · exact State.applyHome_inv h ‹_›
      · exact State.applyHome_error_inv h ‹_›
    dsimp only
    generalize (if wide = true then 8 else 4) = n, (if wide = true then Ty.u64 else Ty.u32) = ty
    split
    · exact h
    · split <;> grind [State.Inv]
  | ring off bytes since => grind [State.landRing_mem, State.Inv]
  | page bar off n => exact h

theorem State.hostRun_inv (k : Nat) (x1 : List (Nat × HostReq)) (s : State) (h : s.Inv) : (State.hostRun k x1 s).Inv := by
  fun_induction State.hostRun k x1 s <;> grind [State.Inv, Halt.Inv, InvOf, NextInv, State.hostApply_inv, foldl_mem]

theorem State.hostDrain_inv (s : State) (k : Nat) (rs : List (Nat × HostReq)) (h : s.Inv) : (s.hostDrain k rs).Inv :=
  State.hostRun_inv _ _ _ h

theorem State.hostSend_inv (s : State) (p : Nat) (r : HostReq) (h : s.Inv) : (s.hostSend p r).Inv := State.hostDrain_inv _ _ _ h

theorem State.hostTo_inv (s : State) (link : Nat) (vf : Nat) (r : HostReq) (h : s.Inv) : (s.hostTo link vf r).Inv := by
  grind [State.hostTo, State.Inv, Halt.Inv, InvOf, NextInv, State.hostSend_inv]

@[simp] theorem execHostRingWrite_inv (p : Nat) (off : Nat) (bytes : List Byte) (s : State) (h : s.Inv) :
    NextInv (execHostRingWrite p off bytes s) := by
  grind [execHostRingWrite, NextInv, State.Inv, State.hostSend_inv]

@[simp] theorem execHostWindowWrite_inv (p : Nat) (off : Nat) (bytes : List Byte) (s : State) (h : s.Inv) :
    NextInv (execHostWindowWrite p off bytes s) := by
  grind [execHostWindowWrite, NextInv, State.Inv, State.hostSend_inv]

@[simp] theorem execHostWindowRead_inv (p : Nat) (off : Nat) (n : Nat) (s : State) (h : s.Inv) :
    NextInv (execHostWindowRead p off n s) := by
  grind [execHostWindowRead, NextInv, State.Inv, State.hostSend_inv]

theorem State.msixWrite_mem (s : State) (p : Nat) (off : Nat) (x : Word) : (s.msixWrite p off x).mem = s.mem := by
  grind [State.msixWrite, State.modPart_mem]

@[simp] theorem execControlPageWrite_inv (p : Nat) (off : Nat) (x : Word) (s : State) (h : s.Inv) :
    NextInv (execControlPageWrite p off x s) := by
  fun_cases execControlPageWrite p off x s <;> grind [NextInv, State.Inv, State.msixWrite_mem, State.modPart_mem, foldl_mem]

theorem State.quit_mem (s : State) (p : Nat) : (s.quit p).mem = s.mem := by
  grind [State.quit, State.drainWc_mem, State.modPart_mem, foldl_mem]

theorem State.dropPending_mem (s : State) (p : Nat) : (s.dropPending p).mem = s.mem := rfl

theorem State.halt_mem (s : State) (p : Nat) : (s.halt p).mem = s.mem := State.quit_mem ..

@[simp] theorem execStop_inv (s : State) (h : s.Inv) : NextInv (execStop s) := by
  grind [execStop, NextInv, State.Inv, State.halt_mem]

@[simp] theorem execFunctionLevelReset_inv (s : State) (h : s.Inv) : NextInv (execFunctionLevelReset s) := by
  grind [execFunctionLevelReset, NextInv, State.Inv, State.halt_mem]

theorem State.startFails_mem (s : State) (p : Nat) (va : Nat) : (s.startFails p va).mem = s.mem := rfl

theorem State.bindSteward_inv (s : State) (p : Nat) (rb : List Byte) (t : TeamRec) (h : s.Inv) : (s.bindSteward p rb t).Inv :=
  State.tryPlace_inv _ _ h

theorem State.startRecord_inv (s : State) (p : Nat) (h : s.Inv) : (s.startRecord p).Inv := by
  have checked := fun w x => s.checkRecord_inv p noCore w x h
  have written := fun (t : State) w a bs (ht : t.Inv) => t.hwWrite_inv p noCore w a bs ht
  have failed : ∀ (t : State) va, t.Inv → (t.hwAsked.startFails p va).Inv := by grind [State.startFails_mem, State.hwAsked_mem, State.Inv]
  unfold State.startRecord
  dsimp only
  split
  · exact h
  · next record => exact failed _ _ ((congrArg Checked.Inv record).mp (checked _ _))
  · next rb ts t record =>
    have ht : t.Inv := (congrArg Checked.Inv record).mp (checked _ _)
    split
    · exact failed _ _ ht
    · exact failed _ _ ht
    · split
      · next block => exact failed _ _ ((congrArg Hw.Inv block).mp (written _ _ _ _ ht))
      · exact h
      · next u block =>
        have hu : u.Inv := (congrArg Hw.Inv block).mp (written _ _ _ _ ht)
        exact State.bindSteward_inv _ _ _ _ (by grind [State.hwAsked_mem, State.Inv])

theorem State.startSteward_inv (s : State) (p : Nat) (h : s.Inv) : (s.startSteward p).Inv := by
  grind [State.startSteward, State.Inv, Halt.Inv, InvOf, NextInv, State.startRecord_inv, State.modPart_mem, State.startFails_mem]

theorem State.start_inv (s : State) (p : Nat) (h : s.Inv) : (s.start p).Inv := by
  grind [State.start, State.Inv, Halt.Inv, InvOf, NextInv, State.invalidatePart_mem, State.quit_mem, State.startSteward_inv,
    State.modPart_mem]

@[simp] theorem execStart_inv (s : State) (h : s.Inv) : NextInv (execStart s) := by
  grind [execStart, NextInv, State.Inv, State.start_inv]

theorem State.restart_inv (s : State) (p : Nat) (h : s.Inv) : (s.restart p).Inv := by
  grind [State.restart, State.Inv, Halt.Inv, InvOf, NextInv, State.endTeam_mem, State.startSteward_inv, State.modPart_mem, foldl_mem]

@[simp] theorem execRestart_inv (s : State) (h : s.Inv) : NextInv (execRestart s) := by
  grind [execRestart, NextInv, State.Inv, State.restart_inv]

@[simp] theorem execSignalPageStore_inv (p : Nat) (x : Word) (s : State) (h : s.Inv) : NextInv (execSignalPageStore p x s) := by
  grind [execSignalPageStore, NextInv, State.Inv, State.modPart_mem]


/-! ### The fabric and resets -/

theorem State.modPort_mem (s : State) (k : Nat) (f : Port → Port) : (s.modPort k f).mem = s.mem := rfl

theorem State.ackFlit_mem (s : State) (k : Nat) (seq : Nat) (good : Bool) : (s.ackFlit k seq good).mem = s.mem := rfl

theorem State.deliver_inv (s : State) (x : Payload) (h : s.Inv) : (s.deliver x).Inv := by
  fun_cases State.deliver s x <;> grind [State.Inv, Halt.Inv, InvOf, NextInv, State.answer_mem, State.arrive_inv, foldl_mem]

theorem State.emitFlit_mem (s : State) (k : Nat) (message : Nat) : (s.emitFlit k message).mem = s.mem := rfl

theorem State.unstrand_mem (s : State) (message : Nat) : (s.unstrand message).mem = s.mem := rfl

theorem State.sendFlit_mem (s : State) (k : Nat) (message : Nat) : (s.sendFlit k message).mem = s.mem := by
  grind [State.sendFlit, State.unstrand_mem, State.emitFlit_mem]

theorem State.moveTraffic_mem (s : State) (messages : List Nat) : (s.moveTraffic messages).mem = s.mem := by
  grind [State.moveTraffic, State.sendFlit_mem, foldl_mem]

theorem State.portDown_mem (s : State) (k : Nat) (left : List (Nat × Nat)) : (s.portDown k left).mem = s.mem := State.moveTraffic_mem ..

@[simp] theorem execFlitReceive_inv (f : Flit) (s : State) (h : s.Inv) : NextInv (execFlitReceive f s) := by
  grind [execFlitReceive, NextInv, State.Inv, State.modPort_mem, State.portDown_mem, State.deliver_inv, State.ackFlit_mem]

theorem State.flitHeard_mem (s : State) (k : Nat) (seq : Nat) (good : Bool) : (s.flitHeard k seq good).mem = s.mem := by
  grind [State.flitHeard, State.modPort_mem, State.portDown_mem]

theorem State.resetCluster_mem (s : State) (cl : Nat) (retire : Bool) : (s.resetCluster cl retire).mem = s.mem := by
  have freed : ∀ (u : State) (o : Option Nat) c, (o.elim u (u.freeEntry c)).mem = u.mem := by
    intro u o c
    cases o with
    | none => rfl
    | some e => exact u.freeEntry_mem c e
  unfold State.resetCluster
  dsimp only
  rw [State.modCluster_mem, State.modPart_mem, foldl_mem fun u j => State.modCore_mem .., foldl_mem fun u c => State.skipCast_mem ..,
    foldl_mem, foldl_mem State.loseTeam_mem]
  intro u c
  rw [State.breakCopy_mem, freed]

@[simp] theorem execClusterReset_inv (cl : Nat) (retire : Bool) (s : State) (h : s.Inv) : NextInv (execClusterReset cl retire s) := by
  grind [execClusterReset, NextInv, State.Inv, State.resetCluster_mem]

theorem State.recompute_mem (s : State) (cl : Nat) : (s.recompute cl).mem = s.mem := by
  grind [State.recompute, State.modCluster_mem, State.reconfigured_mem]

@[simp] theorem execClusterResetDone_inv (s : State) (h : s.Inv) : NextInv (execClusterResetDone s) := by
  grind [execClusterResetDone, NextInv, State.Inv, State.notify_mem, State.modCluster_mem, State.modCore_mem, State.recompute_mem,
    foldl_mem]

theorem State.keepReduced_mem (s : State) (p : Nat) : (s.keepReduced p).mem = s.mem := rfl

@[simp] theorem execCalibrationEnd_inv (s : State) (h : s.Inv) : NextInv (execCalibrationEnd s) := by
  grind [execCalibrationEnd, NextInv, State.Inv, State.notify_mem, State.keepReduced_mem, State.reconfigured_mem, State.modPart_mem,
    foldl_mem]

theorem State.reboot_mem (s : State) (b : Boot) : (s.reboot b).mem = s.mem := rfl

@[simp] theorem execModuleReset_inv (boot : Boot) (s : State) (h : s.Inv) : NextInv (execModuleReset boot s) := by
  grind [execModuleReset, NextInv, State.Inv, State.reboot_mem]

theorem State.doeReply_mem (s : State) (m : Spdm) : (s.doeReply m).mem = s.mem := rfl

@[simp] theorem execGetVersion_inv (s : State) (h : s.Inv) : NextInv (execGetVersion s) := by
  grind [execGetVersion, NextInv, State.Inv, State.doeReply_mem]

@[simp] theorem execGetCapabilities_inv (s : State) (h : s.Inv) : NextInv (execGetCapabilities s) := by
  grind [execGetCapabilities, NextInv, State.Inv, State.doeReply_mem]

@[simp] theorem execNegotiateAlgorithms_inv (fn : Nat) (offer : List Nat) (s : State) (h : s.Inv) :
    NextInv (execNegotiateAlgorithms fn offer s) := by
  grind [execNegotiateAlgorithms, NextInv, State.Inv, State.doeReply_mem]

@[simp] theorem execGetDigests_inv (s : State) (h : s.Inv) : NextInv (execGetDigests s) := by
  grind [execGetDigests, NextInv, State.Inv, State.doeReply_mem]

@[simp] theorem execGetCertificate_inv (fn : Nat) (slot : Nat) (s : State) (h : s.Inv) : NextInv (execGetCertificate fn slot s) := by
  grind [execGetCertificate, NextInv, State.Inv, State.doeReply_mem]

@[simp] theorem execChallenge_inv (fn : Nat) (slot : Nat) (nonce : List Byte) (s : State) (h : s.Inv) :
    NextInv (execChallenge fn slot nonce s) := by
  grind [execChallenge, NextInv, State.Inv, State.doeReply_mem]

@[simp] theorem execGetMeasurements_inv (fn : Nat) (index : Nat) (s : State) (h : s.Inv) : NextInv (execGetMeasurements fn index s) := by
  grind [execGetMeasurements, NextInv, State.Inv, State.doeReply_mem]


/-! ### Vector functions -/

@[simp] theorem execVexp2_inv (f : Form) (s : State) (h : s.Inv) : NextInv (execVexp2 f s) := fpElem_inv _ _ _ _ h

@[simp] theorem execVlog2_inv (f : Form) (s : State) (h : s.Inv) : NextInv (execVlog2 f s) := fpElem_inv _ _ _ _ h

@[simp] theorem execVsin_inv (f : Form) (s : State) (h : s.Inv) : NextInv (execVsin f s) := fpElem_inv _ _ _ _ h

@[simp] theorem execVcos_inv (f : Form) (s : State) (h : s.Inv) : NextInv (execVcos f s) := fpElem_inv _ _ _ _ h


/-! ### Conversions -/

theorem State.stepSeeds_mem (s : State) (m : BitVec 32) (n : Nat) : (s.stepSeeds m n).mem = s.mem := rfl

@[simp] theorem execVcvt_inv (f : Form) (s : State) (h : s.Inv) : NextInv (execVcvt f s) := by
  unfold execVcvt
  extract_lets src dst
  refine runIf_inv h fun info f => ?_
  have sources := readSources_inv (.vcvt f) info f false s h
  dsimp only
  split
  · exact sources.inv_of_error ‹_›
  · next s1 read =>
    have hs1 : s1.Inv := sources.inv_of_ok read
    split
    · exact destReady_error_inv hs1 _ ‹_›
    · repeat' split
      all_goals grind [writeRange_inv, State.raise_mem, State.stepSeeds_mem, InvOf, Halt.Inv, State.Inv]

@[simp] theorem execVseed_inv (f : Form) (s : State) (h : s.Inv) : NextInv (execVseed f s) := by
  refine run_inv h fun info f => ?_
  grind [NextInv, State.Inv, InvOf, Halt.Inv, illegal_inv, misaligned_inv, readSources_inv]

theorem fmOp_inv (i : Instr) (s : State) (new : BitVec 32 → Word → BitVec 32) (h : s.Inv) : NextInv (fmOp i s new) := by
  refine run_inv h fun info f => ?_
  grind [NextInv, State.Inv, InvOf, Halt.Inv, illegal_inv, misaligned_inv]

@[simp] theorem execFmt_inv (f : Form) (s : State) (h : s.Inv) : NextInv (execFmt f s) := fmOp_inv _ _ _ h

@[simp] theorem execFmtRnd_inv (f : Form) (s : State) (h : s.Inv) : NextInv (execFmtRnd f s) := fmOp_inv _ _ _ h

@[simp] theorem execFmtAb_inv (f : Form) (s : State) (h : s.Inv) : NextInv (execFmtAb f s) := fmOp_inv _ _ _ h

@[simp] theorem execFmtFtz_inv (f : Form) (s : State) (h : s.Inv) : NextInv (execFmtFtz f s) := fmOp_inv _ _ _ h

@[simp] theorem execFmtCbs_inv (f : Form) (s : State) (h : s.Inv) : NextInv (execFmtCbs f s) := fmOp_inv _ _ _ h

@[simp] theorem execFmtTrp_inv (f : Form) (s : State) (h : s.Inv) : NextInv (execFmtTrp f s) := fmOp_inv _ _ _ h

@[simp] theorem execFmrd_inv (f : Form) (s : State) (h : s.Inv) : NextInv (execFmrd f s) := by
  refine run_inv h fun info f => ?_
  grind [NextInv, State.Inv, InvOf, Halt.Inv, illegal_inv, misaligned_inv, State.setScalar_mem]

@[simp] theorem execFfget_inv (f : Form) (s : State) (h : s.Inv) : NextInv (execFfget f s) := by
  refine run_inv h fun info f => ?_
  grind [NextInv, State.Inv, InvOf, Halt.Inv, illegal_inv, misaligned_inv, State.setScalar_mem]

@[simp] theorem execFfclr_inv (f : Form) (s : State) (h : s.Inv) : NextInv (execFfclr f s) := by
  refine run_inv h fun info f => ?_
  grind [NextInv, State.Inv, InvOf, Halt.Inv, illegal_inv, misaligned_inv]

theorem sclOp_inv (i : Instr) (s : State) (write : BitVec 32 → VReg → VWrite) (h : s.Inv) : NextInv (sclOp i s write) := by
  refine run_inv h fun info f => ?_
  grind [NextInv, State.Inv, InvOf, Halt.Inv, illegal_inv, misaligned_inv, writeReg_inv, readSources_inv, destReady_inv]

@[simp] theorem execVsclget_inv (f : Form) (s : State) (h : s.Inv) : NextInv (execVsclget f s) := sclOp_inv _ _ _ h

@[simp] theorem execVsclset_inv (f : Form) (s : State) (h : s.Inv) : NextInv (execVsclset f s) := by
  refine run_inv h fun info f => ?_
  grind [NextInv, State.Inv, InvOf, Halt.Inv, illegal_inv, misaligned_inv, writeReg_inv, readSources_inv, destReady_inv]

@[simp] theorem execCbld_inv (f : Form) (s : State) (h : s.Inv) : NextInv (execCbld f s) := by
  refine run_inv h fun info f => ?_
  grind [NextInv, State.Inv, InvOf, Halt.Inv, illegal_inv, misaligned_inv, readSources_inv]


/-! ### The window of uncommitted instructions -/

theorem meaning_inv {i : Instr} {r : State → Host.Outcome State Fault Refusal} (hr : meaning i = some r) (s : State) (h : s.Inv) :
    NextInv (r s) := by
  cases i <;> simp only [meaning, Option.some.injEq, reduceCtorEq] at hr <;> subst hr <;> simp [h]

theorem WinEntry.effect_inv {w : WinEntry} {r : State → Host.Outcome State Fault Refusal} (hr : w.effect = some r) (s : State) (h : s.Inv) :
    NextInv (r s) := by
  unfold WinEntry.effect at hr
  split at hr
  · cases hr
    rintro t ⟨⟩
    grind [retire_mem, State.setScalar_mem, State.Inv]
  · obtain ⟨run, hrun, rfl⟩ := Option.map_eq_some_iff.1 hr
    exact State.asReduced_inv (meaning_inv hrun) h

theorem State.evaluate_inv (s : State) (w : WinEntry) {t : State} (h : s.Inv) (e : s.evaluate w = some t) : t.Inv := by
  unfold State.evaluate at e
  split at e
  · cases e
  · next run effect =>
    have ran := WinEntry.effect_inv effect { s with me := w.seen s.me } h
    grind [NextInv]

theorem State.ahead_inv (x0 : List WinEntry) (x1 : Option (List Nat)) (s : State) (h : s.Inv) : (State.ahead x0 x1 s).1.Inv := by
  fun_induction State.ahead x0 x1 s <;> grind [State.Inv, Halt.Inv, InvOf, NextInv, State.evaluate_inv, foldl_mem]

theorem State.bare_mem (s : State) : s.bare.mem = s.mem := rfl

theorem State.window_inv (s : State) (h : s.Inv) : s.window.1.Inv := State.ahead_inv _ _ _ h

theorem nearRead_inv (i : Instr) (f : Form) (x : Word) (offs : List Nat) (s : State) (h : s.Inv) : InvOf (·.2) (nearRead i f x offs s) := by
  grind [nearRead, State.Inv, Halt.Inv, InvOf, NextInv, bankRow_inv, readRow_inv]

theorem State.queueView_mem (s : State) (s1 : State) : (s.queueView s1).mem = s1.mem := rfl

theorem State.claimSlot_mem {s r : State} {f : Form} {x : Instr × State} (e : s.claimSlot r f = some x) : x.2.mem = s.mem := by
  grind [State.claimSlot, State.ownBank_mem]

theorem memRead_inv {i : Instr} {r : State → Except Halt (List Byte × State)} (hr : memRead i = some r) (s : State) (h : s.Inv) :
    InvOf (·.2) (r s) := by
  cases i <;> simp only [memRead, Option.some.injEq, reduceCtorEq] at hr <;> subst hr
  case ld f =>
    dsimp only
    split
    · exact h
    · exact loadBytes_inv _ _ _ _ _ _ h
  case nbld f => exact nearRead_inv _ _ _ _ _ h
  case nbfma f => exact nearRead_inv _ _ _ _ _ h
  case nbdot f => exact nearRead_inv _ _ _ _ _ h
  case xrd f => exact cellBytes_inv _ _ _ _ _ h

theorem State.nearFound_inv (s u : State) (i : Instr) (w : WinEntry) (h : s.Inv) : (s.nearFound u i w).2.Inv := by
  have row := fun d b => bankRow_inv i { s with me := u.me } d w.va b h
  unfold State.nearFound
  split
  · split
    · next r t found => exact (row _ _).inv_of_ok found
    · exact h
  · exact h

theorem State.issueAhead_inv (s : State) (i : Instr) (h : s.Inv) : (s.issueAhead i).Inv := by
  have near := fun (u : State) i w (hu : State.Inv u) => u.nearFound_inv (s.queueView s.window.1) i w hu
  have claimed : ∀ r f x, s.claimSlot r f = some x → x.2.Inv := fun r f x e => (congrArg (Memory.wf · = true) (State.claimSlot_mem e)).mpr h
  unfold State.issueAhead
  dsimp only
  repeat' split
  all_goals grind [NextInv, State.Inv, execPgr_inv, execPwrqLvl_inv, execPwrqGate_inv, execPwrqWeir_inv, execPwrqTherm_inv,
    State.nearFound_inv]

theorem State.unparked_mem (s : State) : s.unparked.mem = s.mem := by
  grind [State.unparked, State.modCore_mem]

theorem State.meets_inv {s : State} {seen : Group} {read : State → Except Halt (List Byte × State)} (hr : ∀ t, t.Inv → InvOf (·.2) (read t))
    (h : s.Inv) : (s.meets seen read).Inv := by
  unfold State.meets
  split
  · next bs t e => exact (hr { s with me := seen } h).inv_of_ok e
  · exact h

theorem State.complete_inv (s : State) (n : Nat) (h : s.Inv) : (s.complete n).Inv := by
  unfold State.complete
  dsimp only
  repeat' split
  all_goals grind [State.meets_inv, memRead_inv, State.unparked_mem, State.park_mem, State.Inv]

@[simp] theorem execInstructionCompletion_inv (g n : Nat) (s : State) (h : s.Inv) : NextInv (execInstructionCompletion g n s) := by
  rintro t ⟨⟩
  exact State.asGroup_inv (fun u hu => u.complete_inv n hu) h

theorem State.squashYounger_mem (s : State) (old : Group) (rest : List WinEntry) : (s.squashYounger old rest).mem = s.mem :=
  State.squash_mem ..

theorem State.commit_inv (s : State) (h : s.Inv) : s.commit.Inv := by
  have squashed : ∀ (r : State) g l, r.Inv → (r.squashYounger g l).Inv := by grind [State.squashYounger_mem, State.Inv]
  have condemned : ∀ (r : State) p, r.Inv → (r.condemned r.meId p).Inv := by grind [State.condemned_mem, State.Inv]
  unfold State.commit
  dsimp only
  split
  · exact h
  · split
    · exact h
    · split
      · exact h
      · next run effect =>
        split
        · next r ran =>
          have hr : r.Inv := WinEntry.effect_inv effect _ (by exact h) r ran
          repeat' split
          · exact hr
          · exact condemned _ _ hr
          · exact hr
          · exact squashed _ _ _ hr
          · exact squashed _ _ _ hr
          · exact hr
          · exact squashed _ _ _ hr
        · exact h

@[simp] theorem execInstructionCommit_inv (s : State) (h : s.Inv) : NextInv (execInstructionCommit s) := by
  rintro t ⟨⟩
  exact State.asGroup_inv State.commit_inv h


/-! ### Dispatch -/

theorem exec_inv (i : Instr) (s : State) (h : s.Inv) : NextInv (exec i s) := by
  cases i <;> simp [h]


/-! Fetch -/

theorem State.illegalWord_mem (s : State) (w : Nat) : (s.illegalWord w).mem = s.mem := State.takeTrap_mem ..


/-! ### The turn of a cycle -/

/-- What a fetch leaves keeps the form of main memory. -/
def Fetch.Inv : Fetch → Prop
  | .word _ s | .stop s => s.Inv

theorem State.fetchFault_inv (s : State) (va : Word) (h : s.Inv) : (s.fetchFault va).Inv := by
  grind [State.fetchFault, Fetch.Inv, State.takeTrap_mem, State.Inv]

theorem State.fetchRemote_inv (s : State) (va : Word) (a m la : Nat) (h : s.Inv) : (s.fetchRemote va a m la).Inv := by
  fun_cases State.fetchRemote s va a m la
  all_goals grind [Fetch.Inv, State.fetchFault_inv, State.fetchWaits, State.gotWord, State.Inv]

theorem State.fetchWord_inv (s : State) (a : Nat) (h : s.Inv) : (s.fetchWord a).Inv := by
  have fault := State.fetchFault_inv
  have remote := State.fetchRemote_inv
  unfold State.fetchWord
  dsimp only
  repeat' split
  all_goals grind [Fetch.Inv, State.fetchWaits, State.gotWord, State.translate_mem, State.park_mem, State.refuse_mem, State.readOffs_mem,
    State.readOffs_error_mem, State.Inv]

theorem State.fetchWords_inv (a n : Nat) (s : State) (h : s.Inv) : (State.fetchWords a n s).Inv := by
  fun_induction State.fetchWords a n s <;> grind [Fetch.Inv, State.fetchWord_inv]

theorem State.fetch_inv (s : State) (h : s.Inv) : s.fetch.Inv := by
  grind [State.fetch, Fetch.Inv, State.fetchWords_inv]

theorem State.issueBehind_inv (s : State) (h : s.Inv) : s.issueBehind.Inv := by
  have fetched := s.fetch_inv h
  unfold State.issueBehind
  dsimp only
  repeat' split
  all_goals grind [Fetch.Inv, State.issueAhead_inv, State.Inv]

theorem State.issue_inv (s : State) (early : Bool) (h : s.Inv) : NextInv (s.issue early) := by
  have fetched := s.fetch_inv h
  fun_cases State.issue s early <;>
    grind [NextInv, Fetch.Inv, State.issueBehind_inv, exec_inv, State.issueAhead_inv, State.illegalWord_mem, State.Inv]

theorem State.noteIssue_mem (s : State) (s1 : State) (g : Nat) (port : Option Nat) : (s.noteIssue s1 g port).mem = s1.mem := by
  fun_cases State.noteIssue s s1 g port <;> grind [foldl_mem]

theorem State.issueOf_inv (s : State) (g : Nat) (port : Option Nat) (early : Bool) (h : s.Inv) : NextInv (s.issueOf g port early) := by
  grind [State.issueOf, NextInv, State.Inv, State.turn_mem, State.issue_inv, exec_inv, State.noteIssue_mem]

theorem State.judged_mem (s : State) (c : Nat) : (s.judged c).mem = s.mem := by
  grind [State.judged, State.modGroup_mem, foldl_mem]

theorem State.waitersGo_inv (s : State) {t : State} (h : s.Inv) (e : s.waitersGo = some t) : t.Inv := by
  unfold State.waitersGo at e
  split at e
  · cases e
    exact s.drainInbox_inv h
  · obtain ⟨q, -, rfl⟩ := Option.map_eq_some_iff.1 e
    exact s.hostDrain_inv _ _ h

theorem State.autoStep_inv (s : State) (es : List Auto) {o : Host.Outcome State Fault Refusal} (h : s.Inv) (e : s.autoStep es = some o) :
    NextInv o := by
  obtain ⟨x, -, rfl⟩ := Option.map_eq_some_iff.1 e
  exact exec_inv x.1 _ h

theorem NextInv.of_or {a b : Option (Host.Outcome State Fault Refusal)} {o : Host.Outcome State Fault Refusal} (ha : a = some o → NextInv o)
    (hb : b = some o → NextInv o) (e : a.or b = some o) : NextInv o := by
  rcases Option.or_eq_some_iff.1 e with e | ⟨-, e⟩
  · exact ha e
  · exact hb e

theorem NextInv.of_map_next {a : Option State} {o : Host.Outcome State Fault Refusal} (ha : ∀ t, a = some t → t.Inv)
    (e : a.map Host.Outcome.next = some o) : NextInv o := by
  obtain ⟨t, ht, rfl⟩ := Option.map_eq_some_iff.1 e
  rintro u ⟨⟩
  exact ha t ht

theorem State.dueStep_inv (s : State) {o : Host.Outcome State Fault Refusal} (h : s.Inv) (e : s.dueStep = some o) : NextInv o :=
  NextInv.of_or (s.autoStep_inv _ h) (NextInv.of_map_next fun _ => s.waitersGo_inv h) e

theorem State.noteTargets_mem (s : State) : s.noteTargets.mem = s.mem := rfl

theorem State.nextCycle_mem (s : State) : s.nextCycle.mem = s.mem := rfl

theorem State.probe_mem {s t : State} (e : s.probe = some t) : t.mem = s.mem := by
  obtain ⟨x, -, hx⟩ := List.exists_of_findSome?_eq_some e
  obtain ⟨w, -, rfl⟩ := Option.map_eq_some_iff.1 hx
  exact State.modGroup_mem _ _ _

theorem State.judgeStep_inv (s : State) {o : Host.Outcome State Fault Refusal} (h : s.Inv) (e : s.judgeStep = some o) : NextInv o := by
  refine NextInv.of_or (fun e => ?_) (s.autoStep_inv _ h) e
  obtain ⟨c, -, rfl⟩ := Option.map_eq_some_iff.1 e
  rintro t ⟨⟩
  grind [State.judged_mem, State.Inv]

theorem State.closeStep_inv (s : State) {o : Host.Outcome State Fault Refusal} (h : s.Inv) (e : s.closeStep = some o) : NextInv o :=
  NextInv.of_or (NextInv.of_map_next fun _ e => (congrArg (Memory.wf · = true) (State.probe_mem e)).mpr h) (s.autoStep_inv _ h) e

theorem State.freeRun_inv (s : State) (h : s.Inv) : NextInv s.freeRun := by
  unfold State.freeRun
  split
  · exact NextInv.of_or (s.dueStep_inv h) (s.judgeStep_inv h) ‹_›
  · split
    · split
      · exact NextInv.of_or (s.closeStep_inv h) (s.autoStep_inv _ h) ‹_›
      · rintro t ⟨⟩
        grind [State.nextCycle_mem, State.Inv]
    · split
      · exact exec_inv _ _ h
      · split
        · exact s.issueOf_inv _ _ _ h
        · rintro t ⟨⟩
          exact h

theorem State.tick_inv (s : State) (n : Nat) (h : s.Inv) : NextInv (s.tick n) := by
  have due : ∀ o, (s.dueStep.or (if n = 0 then none else s.judgeStep.or s.closeStep)) = some o → NextInv o := by
    intro o e
    refine NextInv.of_or (s.dueStep_inv h) (fun e => ?_) e
    split at e
    · cases e
    · exact NextInv.of_or (s.judgeStep_inv h) (s.closeStep_inv h) e
  unfold State.tick
  split
  · next t e =>
    rintro u ⟨⟩
    exact due _ e t rfl
  · exact due _ ‹_›
  · rintro t ⟨⟩
    cases n with
    | zero => exact h
    | succ n => exact (congrArg (Memory.wf · = true) s.nextCycle_mem).mpr h

theorem State.runNext_inv (s : State) (g : Nat) (h : s.Inv) : NextInv (s.runNext g) := by
  grind [State.runNext, NextInv, State.Inv, exec_inv, State.issueOf_inv]

theorem State.deferIssue_inv (s : State) (h : s.Inv) : NextInv s.deferIssue := by
  grind [State.deferIssue, NextInv, State.Inv, State.issueOf_inv]

theorem State.act_inv (s : State) (a : Act) (h : s.Inv) : NextInv (s.act a) := by
  fun_cases State.act s a <;> grind [NextInv, State.Inv, State.hostTo_inv, State.modCluster_mem, State.fillLeaf_mem, State.flitHeard_mem,
    State.runNext_inv, State.sendFlit_mem, State.damageColumn_mem, exec_inv, State.tick_inv, State.modPart_mem, State.deferIssue_inv,
    foldl_mem]


/-! ### The step -/

theorem step_inv (s : State) (h : s.Inv) : NextInv (step s) := by
  grind [step, NextInv, State.Inv, State.freeRun_inv, State.act_inv]


/-- Settles O59: no step writes main memory but through the four writers, each of which keeps its canonical form. -/
theorem stepKeepsMemoryForm : Obligations.StepKeepsMemoryForm := fun s t h e => step_inv s h t e

end Sys2Proof.Machine

/-!
PROOF of O60.
-/

namespace Sys2Proof.Machine

/-- Settles O60: memory is in canonical form at reset; every other clause is the value of a field. -/
theorem resetState : Obligations.ResetState :=
  ⟨reset_memory_wf, rfl, rfl, fun _ => ⟨rfl, rfl, rfl, rfl, rfl, rfl, rfl, rfl, rfl, rfl, rfl, rfl⟩⟩

end Sys2Proof.Machine

/-!
PROOF of O20: the three copies go through one operation, `copyOp`, which reads its shape, checks it and issues the copy.
-/

namespace Sys2Proof.Machine

open Sys2Proof Sys2Proof.Claims

/-- The issue of a legal copy is one operation for the three instructions. -/
theorem copyOp_issues {i : Instr} {kind : CopyKind} {f : Form} {s s1 : State} {info : Info} {n0 list : Nat} {dims : List Dim}
    (hx : exec i s = copyOp i s kind) (h : Clear i info f s) (sources : readSources i info f true s = .ok s1)
    (shape : shapeOf (kind == .cpg) (if kind == .cpm then 0 else f.imm.toNat / 4) (s.source f.cSpec .u32) = some (n0, dims, list))
    (legal : (copyOf kind f s s1 n0 dims list).check s = none) (room : (s.core s.me.core).copies.length < 16)
    (mark : (copyOf kind f s s1 n0 dims list).global = true ∨ (s.myTeam.wm f.d.toNat).free = true) :
    Completes i s (s1.issueCopy (copyOf kind f s s1 n0 dims list)) := by
  have copyRoom : s.copyRoom s.me.core = true := decide_eq_true room
  have marked : (!(copyOf kind f s s1 n0 dims list).global && !(s.myTeam.wm f.d.toNat).free) = false := by
    rcases mark with mark | mark <;> simp [mark]
  have space : (if kind == .cpm then f.imm.getLsbD 16 else f.imm.getLsbD 1) = f.imm.getLsbD (if kind == .cpm then 16 else 1) :=
    (apply_ite f.imm.getLsbD ..).symm
  refine completes_of_run hx h ?_
  simp only [sources, shape, space]
  change (match (copyOf kind f s s1 n0 dims list).check s with
    | some (kind, x) => _
    | none => if (!s.copyRoom s.me.core) = true then _
        else if (!(copyOf kind f s s1 n0 dims list).global && !(s.myTeam.wm f.d.toNat).free) = true then _ else _) = _
  rw [legal]
  simp only [copyRoom, marked, Bool.not_true, Bool.false_eq_true, if_false]
  rfl

/-- Settles O20: the three copies issue by one operation. -/
theorem copyIssue : Obligations.CopyIssue := by
  have shared : ∀ r ∈ [(Instr.cpy, CopyKind.cpy), (.cpg, .cpg), (.cpm, .cpm)], ∀ f s, exec (r.1 f) s = copyOp (r.1 f) s r.2 :=
    List.forall_mem_cons.2 ⟨exec_cpy, List.forall_mem_cons.2 ⟨exec_cpg, List.forall_mem_singleton.2 exec_cpm⟩⟩
  exact fun r hr f s s1 info n0 list dims h sources shape legal room mark =>
    copyOp_issues (shared r hr f s) h sources shape legal room mark

end Sys2Proof.Machine

/-!
PROOF of O30, with what a drain of a combining buffer leaves as it was.
-/

namespace Sys2Proof.Machine

open Sys2Proof Sys2Proof.Claims

/-! ### A drain of a combining buffer changes nothing but groups, messages and their numbers -/

section
variable {γ : Type} {p : State → γ} (hp : ∀ s me others nextId outbox, p { s with me, others, nextId, outbox } = p s)
include hp

theorem State.setGroup_keeps (s : State) (g : Nat) (x : Group) : p (s.setGroup g x) = p s := by
  unfold State.setGroup
  split
  · exact hp s x s.others s.nextId s.outbox
  · exact hp s s.me _ s.nextId s.outbox

theorem State.sendWrite_keeps (s : State) (g va la : Nat) (bs : List Byte) : p (s.sendWrite g va la bs) = p s := by
  unfold State.sendWrite State.modGroup
  dsimp only
  split
  · exact (State.setGroup_keeps hp _ _ _).trans (hp s s.me s.others _ _)
  · exact hp s s.me s.others _ _

theorem State.drainWc_keeps (s : State) (g : Nat) : p (s.drainWc g) = p s := by
  unfold State.drainWc
  split
  · rfl
  · rw [foldl_keeps (State.sendLine g) p fun u l => foldl_keeps _ p (fun u r => State.sendWrite_keeps hp u ..) _ u, State.setGroup_keeps hp]

end

theorem State.drainWc_time (s : State) (g : Nat) : (s.drainWc g).time = s.time :=
  State.drainWc_keeps (p := State.time) (fun _ _ _ _ _ => rfl) s g

theorem State.setBarrier_time (s : State) (g : Group) (cohort : Bool) (b : Barrier) : (s.setBarrier g cohort b).time = s.time := by
  cases cohort <;> rfl

/-! ### `fence` (19/R314) -/

section
variable {f : Form} {s : State} {info : Info}

theorem Group.returned_ok {g : Group} {rel : Bool} (h : rel = true → g.splits = []) : g.returned rel = .ok () := by
  unfold Group.returned
  cases rel <;> simp_all

theorem Group.returned_waits {g : Group} {rel : Bool} (hr : rel = true) (h : g.splits ≠ []) : g.returned rel = .error (.wait .answer) := by
  unfold Group.returned
  simp_all

theorem State.acknowledged_ok {rel sys : Bool} (h : rel = true → sys = true → s.me.posted = []) : s.acknowledged rel sys = .ok () := by
  unfold State.acknowledged
  cases rel <;> cases sys <;> simp_all

theorem State.acknowledged_waits {rel sys : Bool} (hr : rel = true) (hs : sys = true) (h : s.me.posted ≠ []) :
    s.acknowledged rel sys = .error (.held .answer s) := by
  unfold State.acknowledged
  simp_all

theorem fence_passes (h : Clear (.fence f) info f s) {s1 : State} (drained : s1 = if f.ord = 1 then s else s.drainWc s.meId)
    (loads : f.wide = true → s.me.splits = []) (writes : f.ord ≠ 1 → f.sys = true → s1.me.posted = []) :
    Completes (.fence f) s s1 := by
  refine completes_of_run (exec_fence f s) h ?_
  have ack : s1.acknowledged (f.ord != 1) f.sys = .ok () := State.acknowledged_ok (by simpa using writes)
  simp only [Group.returned_ok loads, beq_iff_eq, ← drained, ack, Except.map]

theorem fence_unacknowledged (h : Clear (.fence f) info f s) {s1 : State} (drained : s1 = if f.ord = 1 then s else s.drainWc s.meId)
    (loads : f.wide = true → s.me.splits = []) (order : f.ord ≠ 1) (sys : f.sys = true) (writes : s1.me.posted ≠ []) :
    exec (.fence f) s = .next { s1 with me := s1.me.waitOn .answer s1.time } := by
  refine held_of_run (exec_fence f s) h ?_
  have ack : s1.acknowledged (f.ord != 1) f.sys = .error (.held .answer s1) := State.acknowledged_waits (by simpa using order) sys writes
  simp only [Group.returned_ok loads, beq_iff_eq, ← drained, ack, Except.map]

theorem fence_waits (h : Clear (.fence f) info f s) (wide : f.wide = true) (loads : s.me.splits ≠ []) : Waits (.fence f) s .answer := by
  refine waits_of_run (exec_fence f s) h ?_
  simp only [Group.returned_waits wide loads]

/-! ### `bar` (19/R315, R316) -/

variable {m n : Nat} {b : Barrier}

theorem mask_legal {a : Nat} (h : a = 0 ∨ a = m) : (decide (a ≠ 0) && decide (a ≠ m)) = false := by
  rcases h with h | h <;> simp [h]

theorem bar_releases (h : Clear (.bar f) info f s) (new : s.me.bargen = none) (mask : s.barMask s.me (f.scope == 3) f.imm.toNat = some m)
    (same : (s.barrier s.me (f.scope == 3)).mask = 0 ∨ (s.barrier s.me (f.scope == 3)).mask = m) (loads : s.me.splits = [])
    (last : (s.drainWc s.meId).barDone s.me (f.scope == 3) { s.barrier s.me (f.scope == 3) with
      mask := m, arrived := (s.barrier s.me (f.scope == 3)).arrived ++ [(s.drainWc s.meId).barMember s.me (f.scope == 3)] } = true) :
    Completes (.bar f) s ((s.drainWc s.meId).setBarrier s.me (f.scope == 3) (s.barrier s.me (f.scope == 3)).release) := by
  refine completes_of_run (exec_bar f s) h ?_
  simp only [new, mask, mask_legal same, loads, List.isEmpty_nil, Bool.not_true, Bool.false_eq_true, if_false, last, if_true]
  rfl

theorem bar_arrives (h : Clear (.bar f) info f s) (new : s.me.bargen = none) (mask : s.barMask s.me (f.scope == 3) f.imm.toNat = some m)
    (same : (s.barrier s.me (f.scope == 3)).mask = 0 ∨ (s.barrier s.me (f.scope == 3)).mask = m) (loads : s.me.splits = [])
    (arrival : b = { s.barrier s.me (f.scope == 3) with
      mask := m, arrived := (s.barrier s.me (f.scope == 3)).arrived ++ [(s.drainWc s.meId).barMember s.me (f.scope == 3)] })
    (more : (s.drainWc s.meId).barDone s.me (f.scope == 3) b = false) {s2 : State}
    (kept : s2 = (s.drainWc s.meId).setBarrier s.me (f.scope == 3) b) :
    exec (.bar f) s = .next { s2 with
      me := ({ s2.me with bargen := some (s.barrier s.me (f.scope == 3)).gen } : Group).waitOn .barrier s.time } := by
  have time : s2.time = s.time := by rw [kept, State.setBarrier_time, State.drainWc_time]
  have held := held_of_run (w := .barrier) (s' := { s2 with me := { s2.me with bargen := some (s.barrier s.me (f.scope == 3)).gen } })
    (exec_bar f s) h (by
      simp only [new, mask, mask_legal same, loads, List.isEmpty_nil, Bool.not_true, Bool.false_eq_true, if_false, ← arrival, more, kept])
  rw [held, ← time]

theorem bar_passed (h : Clear (.bar f) info f s) (arrived : s.me.bargen = some n) (later : n ≠ (s.barrier s.me (f.scope == 3)).gen) :
    Completes (.bar f) s { s with me := { s.me with bargen := none } } := by
  refine completes_of_run (exec_bar f s) h ?_
  simp only [arrived, later, ne_eq, not_false_eq_true, if_true]

theorem bar_completes (h : Clear (.bar f) info f s) (arrived : s.me.bargen = some (s.barrier s.me (f.scope == 3)).gen)
    (done : s.barDone s.me (f.scope == 3) (s.barrier s.me (f.scope == 3)) = true) :
    Completes (.bar f) s { s.setBarrier s.me (f.scope == 3) (s.barrier s.me (f.scope == 3)).release with
      me := { s.me with bargen := none } } := by
  refine completes_of_run (exec_bar f s) h ?_
  simp only [arrived, ne_eq, not_true_eq_false, if_false, done, if_true]

theorem bar_waits (h : Clear (.bar f) info f s) (arrived : s.me.bargen = some (s.barrier s.me (f.scope == 3)).gen)
    (more : s.barDone s.me (f.scope == 3) (s.barrier s.me (f.scope == 3)) = false) : Waits (.bar f) s .barrier := by
  refine waits_of_run (exec_bar f s) h ?_
  simp only [arrived, ne_eq, not_true_eq_false, if_false, more, Bool.false_eq_true]

end

/-- Settles O30: `fence` by its two waits, `bar` by whether the group has arrived and whom the barrier awaits. -/
theorem fenceAndBarrier : Obligations.FenceAndBarrier := by
  refine ⟨fun f s info h => ⟨fence_passes h rfl, fence_unacknowledged h rfl, fence_waits h⟩,
    fun f s info m h new mask same loads => ⟨bar_releases h new mask same loads, fun more => bar_arrives h new mask same loads rfl more rfl⟩,
    fun f s info n h arrived => ⟨bar_passed h arrived, ?_, ?_⟩⟩
  · rintro rfl done
    exact bar_completes h arrived done
  · rintro rfl more
    exact bar_waits h arrived more

end Sys2Proof.Machine

/-!
PROOF of O45: each swap is one exchange of two groups of a core, at a yield, after a long wait or at a promotion.
-/

namespace Sys2Proof.Machine

open Sys2Proof Sys2Proof.Claims

section
variable {s : State}

theorem Group.seated_of {g : Group} (running : g.status = .running) (active : g.sched = .active) : g.seated = true := by
  simp [Group.seated, running, active]

theorem yieldSwap_swaps (seated : (s.group s.subject).seated = true) (yielded : (s.group s.subject).yielded = true)
    (pending : s.readyPending (s.group s.subject).core = true) : exec .yieldSwap s = .next (s.swapOut s.subject 3) := by
  simp only [exec_yieldSwap, execYieldSwap, seated, yielded, pending, Bool.and_self, if_true]

theorem longWaitSwap_swaps (seated : (s.group s.subject).seated = true) (stalled : s.stalledNow s.subject = true)
    (long : 32 ≤ s.cyclesSince (s.group s.subject).core (s.group s.subject).waited)
    (pending : s.readyPending (s.group s.subject).core = true) : exec .longWaitSwap s = .next (s.swapOut s.subject) := by
  simp only [exec_longWaitSwap, execLongWaitSwap, seated, stalled, long, pending, decide_true, Bool.and_self, if_true]

theorem promotion_swaps {h : Nat} {y : Group}
    (oldest : (leastGroup s.ageKey ((s.pendings (s.group s.subject).core).filter fun z => s.ripe z.2)).map (·.1) = some s.subject)
    (first : s.promotedNow (s.group s.subject).core = false)
    (longest : leastGroup (fun y => y.stay :: s.ageKey y) ((s.residents (s.group s.subject).core).filter fun z => z.2.seated) = some (h, y)) :
    exec .promotion s = .next (((s.modGroup s.subject fun y => { y with promo := some s.time }).modCore (s.group s.subject).core fun k =>
      { k with promoted := some s.time }).swapOut h) := by
  simp only [exec_promotion, execPromotion, oldest, first, longest, ne_eq, not_true_eq_false, decide_false, Bool.or_self,
    Bool.false_eq_true, if_false]

theorem swapComplete_enters (elapsed : (s.group s.subject).stay ≤ s.cycles (s.group s.subject).core)
    (entering : (s.group s.subject).sched = .entering) :
    exec .swapComplete s = .next (s.modGroup s.subject fun y =>
      { y with sched := .active, stay := s.cycles (s.group s.subject).core }) := by
  simp only [exec_swapComplete, execSwapComplete, Nat.not_lt.2 elapsed, if_false, entering]

theorem swapComplete_leaves (elapsed : (s.group s.subject).stay ≤ s.cycles (s.group s.subject).core)
    (leaving : (s.group s.subject).sched = .leaving) :
    exec .swapComplete s = .next ((s.modGroup s.subject fun y => { y with sched := .pending }).fill (s.group s.subject).core) := by
  simp only [exec_swapComplete, execSwapComplete, Nat.not_lt.2 elapsed, if_false, leaving]

theorem State.swapOut_some {g h n : Nat} {y : Group} (next : s.nextPending (s.group g).core = some (h, y)) :
    s.swapOut g n = (s.modGroup g fun z => { z with sched := .leaving, stay := s.cycles (s.group g).core + n, yielded := false }).enter h n := by
  simp only [State.swapOut, next]

end

/-- Settles O45: the steps by their conditions, then what a swap does with the two groups. -/
theorem schedulerSwaps : Obligations.SchedulerSwaps := fun _ =>
  ⟨fun running active => yieldSwap_swaps (Group.seated_of running active),
    fun running active => longWaitSwap_swaps (Group.seated_of running active),
    fun _ _ => promotion_swaps, swapComplete_enters, swapComplete_leaves, fun _ _ _ => State.swapOut_some⟩

end Sys2Proof.Machine

/-!
PROOF of O35.
-/

namespace Sys2Proof.Machine

open Sys2Proof Sys2Proof.Claims

section
variable {f : Form} {s s1 s2 s3 : State} {info : Info} {r : Row} {bs : List Byte}

theorem ModeLegal.not_isNone (legal : ModeLegal s) : (arithMode s.me.fm).isNone = false := by
  simpa only [Bool.true_and] using ModeLegal.not_reserved (rounds := true) fun _ => legal

/-- Without an active lane none of the four does anything (27/R395). -/
theorem nearBank_noLane : ∀ mk ∈ [Instr.nbld, .nbfma, .nbdot, .nbst], ∀ (f : Form) (s : State) (info : Info), Clear (mk f) info f s →
    ModeLegal s → s.me.active f = 0 → Completes (mk f) s s := by
  have none {g : Group} {f : Form} (e : g.active f = 0) : (g.active f == 0) = true := beq_iff_eq.2 e
  refine List.forall_mem_cons.2 ⟨?_, List.forall_mem_cons.2 ⟨?_, List.forall_mem_cons.2 ⟨?_, List.forall_mem_singleton.2 ?_⟩⟩⟩
  · exact fun f s info h _ e => completes_of_run (exec_nbld f s) h (if_pos (none e))
  · exact fun f s info h legal e => completes_of_run ((exec_nbfma f s).trans (runIf_eq_run h (ModeLegal.not_isNone legal))) h (if_pos (none e))
  · exact fun f s info h legal e => completes_of_run ((exec_nbdot f s).trans (runIf_eq_run h (ModeLegal.not_isNone legal))) h (if_pos (none e))
  · exact fun f s info h _ e => completes_of_run (exec_nbst f s) h (if_pos (none e))

variable (lanes : s.me.active f ≠ 0)
include lanes

theorem nbld_loads (h : Clear (.nbld f) info f s) (row : bankRow (.nbld f) s (bankD s.me f) (s.me.address f) false = .ok (r, s1))
    (read : readRow (.nbld f) s1 (r.lo + BitVec.ofNat 64 ((s.me.address f).toNat % 65536)) r.la (laneBytes (s.me.active f)) = .ok (bs, s2))
    (written : writeReg (.nbld f) s2 (Spec.of f.d) (scaledWrite (s.me.active f) (lanesOf (s.me.active f) bs) fun _ => 0x7F) true = .ok s3) :
    Completes (.nbld f) s s3 := by
  refine completes_of_run (exec_nbld f s) h ?_
  simp only [beq_iff_eq, lanes, if_false, row, read]
  exact written

theorem nbfma_done (h : Clear (.nbfma f) info f s) (legal : ModeLegal s)
    (row : bankRow (.nbfma f) s (bankD s.me f) (s.me.scalar f.a) false = .ok (r, s1))
    (read : readRow (.nbfma f) s1 (r.lo + BitVec.ofNat 64 ((s.me.scalar f.a).toNat % 65536)) r.la (laneBytes (s.me.active f)) = .ok (bs, s2))
    (sources : readSources (.nbfma f) info f false s2 = .ok s3) :
    let g := s.me
    let t := f.type info.base
    let fm := (fmtOf t).getD fmtF32
    let el (v : Nat) (j : Nat) : FpNum := fm.read g.ftz (digit (elemWidth t) v j)
    FpDone (.nbfma f) info f s s3 false ((List.range 32).map fun l => packLane32 (elemWidth t) fun j => g.deliver fm
      (numFma g.down (el (lanesOf (g.active f) bs l) j) (el ((s.source f.b t).lane l) j) (el ((s.source f.cSpec t).lane l) j))) :=
  fpDone_of_run ((exec_nbfma f s).trans (runIf_eq_run h (ModeLegal.not_isNone legal))) h (by simp only [beq_iff_eq, lanes, if_false, row, read, sources])

theorem nbdot_done (h : Clear (.nbdot f) info f s) (legal : ModeLegal s)
    (row : bankRow (.nbdot f) s (bankD s.me f) (s.me.scalar f.a) false = .ok (r, s1))
    (inside : dotLeaves (s.me.active f) ((s.me.scalar f.a).toNat % 65536) = false)
    (read : readRow (.nbdot f) s1 (r.lo + BitVec.ofNat 64 ((s.me.scalar f.a).toNat % 65536)) r.la (dotBytes (s.me.active f)) = .ok (bs, s2))
    (sources : readSources (.nbdot f) info f false s2 = .ok s3) :
    let row (l : Nat) : List Byte := (bs.drop (128 * ((List.range l).filter (laneOn (s.me.active f))).length)).take 128
    FpDone (.nbdot f) info f s s3 false ((List.range 32).map fun l =>
      if laneOn (s.me.active f) l then rowDot s.me (f.type info.base) (row l) (s.source f.b (f.type info.base))
        ((s.source f.d .f32).lane l) else ⟨0, 0⟩) :=
  fpDone_of_run ((exec_nbdot f s).trans (runIf_eq_run h (ModeLegal.not_isNone legal))) h
    (by simp only [beq_iff_eq, lanes, if_false, row, inside, Bool.false_eq_true, read, sources])

theorem nbst_stores (h : Clear (.nbst f) info f s) (row : bankRow (.nbst f) s (bankD s.me f) (s.me.address f) true = .ok (r, s1))
    (ready : s1.nearBusy r.la = false) :
    Completes (.nbst f) s (s1.writeRuns r.la (s1.who s1.me (r.lo + BitVec.ofNat 64 ((s.me.address f).toNat % 65536)) 2)
      (laneRuns (s.me.active f) (s1.source f.d .v))) := by
  refine completes_of_run (exec_nbst f s) h ?_
  simp only [beq_iff_eq, lanes, if_false, row, ready, Bool.false_eq_true]

end

/-- Settles O35: the case without an active lane, then the effect of each of the four on the row that its checks find. -/
theorem nearBank : Obligations.NearBank :=
  ⟨nearBank_noLane, fun _ _ _ _ _ _ _ _ h lanes => nbld_loads lanes h, fun _ _ _ _ _ _ _ _ h legal lanes => nbfma_done lanes h legal,
    fun _ _ _ _ _ _ _ _ h legal lanes => nbdot_done lanes h legal, fun _ _ _ _ _ h lanes => nbst_stores lanes h⟩

end Sys2Proof.Machine

/-!
What a read of main memory leaves as it was, for O36 and the atomics.
-/

namespace Sys2Proof.Machine

open Sys2Proof Sys2Proof.Claims

/-! ### What a read of DRAM keeps: all but the partitions' registers and the damage that it corrects -/

section
variable {γ : Type} {p : State → γ} (hp : ∀ s parts damaged, p { s with parts, damaged } = p s)
include hp

theorem State.modPart_keeps (s : State) (n : Nat) (f : Partition → Partition) : p (s.modPart n f) = p s := hp s _ s.damaged

theorem State.notify_keeps (s : State) (n kind : Nat) (v : Word) (r : Report) : p (s.notify n kind v r) = p s :=
  State.modPart_keeps hp s n fun x => { x with reports := x.reports ++ [{ r with tcause := BitVec.ofNat 64 kind, tval := v }] }

theorem State.logArray_keeps (s : State) (n la kind bank syms : Nat) (w : Who) : p (s.logArray n la kind bank syms w) = p s := by
  unfold State.logArray
  dsimp only
  split
  · exact (State.notify_keeps hp ..).trans (State.modPart_keeps hp ..)
  · exact State.modPart_keeps hp ..

theorem State.correct_keeps (s : State) (n b col syms : Nat) (w : Who) : p (s.correct n b col syms w) = p s := by
  have corrected : ∀ f, p (({ s with damaged := s.damaged.erase col } : State).modPart n f) = p s := fun f => hp s _ _
  unfold State.correct
  dsimp only
  split_ifs
  · rw [State.logArray_keeps hp, corrected]
  · rw [corrected]

theorem State.meetBeat_keeps {s t : State} {la : Nat} {w : Who} (e : s.meetBeat la w = some t) : p t = p s := by
  have logged : ∀ n bus outcome b, p (s.logTransfer n bus outcome b w) = p s := by
    intro n bus outcome b
    unfold State.logTransfer
    dsimp only
    split
    · exact State.modPart_keeps hp ..
    · exact (State.notify_keeps hp ..).trans (State.modPart_keeps hp ..)
  unfold State.meetBeat at e
  split at e
  · cases e
  · dsimp only at e
    split at e
    · cases e
    · cases e
      exact (State.modPart_keeps hp ..).trans (logged ..)

theorem State.readColumn_keeps (s : State) (la : Nat) (w : Who) : p (s.readColumn la w).2 = p s := by
  unfold State.readColumn
  dsimp only
  split
  · exact State.meetBeat_keeps hp ‹_›
  · split
    · split_ifs
      · exact State.correct_keeps hp ..
      · dsimp only
        exact State.logArray_keeps hp ..
    · rfl

theorem State.meetColumns_keeps (w : Who) (cs : List Nat) (s : State) : p (State.meetColumns w cs s).2 = p s := by
  induction cs generalizing s with
  | nil => rfl
  | cons c cs ih =>
    have column := State.readColumn_keeps hp s (64 * c) w
    unfold State.meetColumns
    split
    · next t e => rwa [e] at column
    · next t e => rw [e] at column; exact (ih t).trans column

/-- The state that a read leaves, whether it finds its bytes or not. -/
def readState {ε α : Type} : Except (ε × State) (α × State) → State
  | .ok (_, t) | .error (_, t) => t

theorem State.readOffs_keeps (s : State) (la : Nat) (w : Who) (offs : List Nat) : p (readState (s.readOffs la w offs)) = p s := by
  have columns := State.meetColumns_keeps hp w (s.columnsOf (offs.map (la + ·))) s
  unfold State.readOffs
  split <;> next e => rwa [e] at columns

theorem State.refuse_keeps (s : State) (la : Nat) : p (s.refuse la) = p s := by
  unfold State.refuse
  split
  · exact State.logArray_keeps hp ..
  · rfl

theorem State.entryAt_keeps (s : State) (n a : Nat) (w : Who) : p (s.entryAt n a w).2 = p s := by
  have read := State.readOffs_keeps hp s a { w with source := 7 } (List.range 8)
  unfold State.entryAt
  split
  · exact State.refuse_keeps hp ..
  · split <;> next e => rwa [e] at read

theorem State.walkFrom_keeps (n va : Nat) (w : Who) (table : Nat) (s : State) (ls : List (Nat × Nat)) :
    p (State.walkFrom n va w table s ls).2 = p s := by
  have entry := fun (s : State) a => State.entryAt_keeps hp s n a w
  fun_induction State.walkFrom n va w table s ls <;> grind

theorem State.walk_keeps (s : State) (n va : Nat) (w : Who) : p (s.walk n va w).2 = p s := by
  have tree : p (s.treeWalk n va w).2 = p s := State.walkFrom_keeps hp n va w _ s treeLevels
  unfold State.walk
  split
  · next t e =>
    rw [e] at tree
    split <;> exact tree
  · exact tree

theorem State.walkAll_keeps (n v : Nat) (w : Who) (ks : List Nat) (s : State) : p (State.walkAll n v w ks s).2 = p s := by
  have walk := fun (s : State) va => State.walk_keeps hp s n va w
  fun_induction State.walkAll n v w ks s <;> grind

end
end Sys2Proof.Machine

/-!
PROOF of O36, one lemma for each outcome of its instructions.
-/

namespace Sys2Proof.Machine

open Sys2Proof Sys2Proof.Claims

/-- An access that fails after changes traps in the state that they leave. -/
theorem fail_of_run {i : Instr} {info : Info} {f : Form} {s s' : State} {e : Info → Form → Except Halt State} {t : Trap}
    (hx : exec i s = run i s e) (h : Clear i info f s) (he : e info f = .error (.fail t s')) (turn : s'.meId = s.meId) :
    exec i s = .next (s'.counted.takeTrap s'.meId t) := by
  rw [hx, run_halt h he, turn]
  simp only [settle, h.target]

theorem pageCheck_ok {i : Instr} {g : Group} {v : Word} (aligned : v.toNat % 2 ^ 21 = 0) (inside : v.toNat < 2 ^ 52) :
    pageCheck i g v = .ok () := by
  simp only [pageCheck, aligned, Nat.div_eq_of_lt inside, ne_eq, not_true_eq_false, if_false]

/-! ### `mapc` (25/R369) -/

theorem stripeAddr_eq (p h x j : Nat) : stripeAddr p h x j = p * 2 ^ 34 + 3 * 2 ^ 32 + 32 * h * 2 ^ 26 + 65536 * x + j * 2 ^ 26 := by
  simp only [stripeAddr, partWindow, directBase]
  omega

section
variable {f : Form} {s s1 : State} {info : Info} {y : Walk}

section
variable (h : Clear (.mapc f) info f s) (aligned : (s.me.scalar f.a).toNat % 2 ^ 21 = 0)
  (inside : (s.me.scalar f.a).toNat < 2 ^ 52) (half : (s.me.scalar f.b).toNat < 2)
include h aligned inside half

theorem mapc_installed (installed : s.installedAt s.myPart (s.me.scalar f.a).toNat = true) :
    Completes (.mapc f) s (s.setScalar f.d 1) := by
  refine completes_of_run ((exec_mapc f s).trans (runIf_eq_run h (decide_eq_false (Nat.not_le.2 half)))) h ?_
  simp only [pageCheck_ok aligned inside, installed, if_true]

variable (free : s.installedAt s.myPart (s.me.scalar f.a).toNat = false)
  (walked : State.walkAll s.myPart (s.me.scalar f.a).toNat (s.who s.me (s.me.scalar f.a) 7) (List.range 32) s = (y, s1))
include free walked

theorem mapc_busy (busy : y = .busy) : Waits (.mapc f) s .register := by
  subst busy
  refine waits_of_run ((exec_mapc f s).trans (runIf_eq_run h (decide_eq_false (Nat.not_le.2 half)))) h ?_
  simp only [pageCheck_ok aligned inside, free, Bool.false_eq_true, if_false, walked]

theorem mapc_unread (unread : y = .unread) : exec (.mapc f) s =
    .next (s1.counted.takeTrap s1.meId { trapOf (.mapc f) s1.me 19 (s.me.scalar f.a) with place := 7 }) := by
  subst unread
  have turn : s1.meId = s.meId := by
    have kept := State.walkAll_keeps (p := State.meId) (fun _ _ _ => rfl) s.myPart (s.me.scalar f.a).toNat
      (s.who s.me (s.me.scalar f.a) 7) (List.range 32) s
    rwa [walked] at kept
  refine fail_of_run ((exec_mapc f s).trans (runIf_eq_run h (decide_eq_false (Nat.not_le.2 half)))) h ?_ turn
  simp only [pageCheck_ok aligned inside, free, Bool.false_eq_true, if_false, walked, walkFails]

theorem mapc_mapped (mapped : (∃ l, y = .leaf l) ∨ y = .malformed) : Completes (.mapc f) s (s1.setScalar f.d 1) := by
  refine completes_of_run ((exec_mapc f s).trans (runIf_eq_run h (decide_eq_false (Nat.not_le.2 half)))) h ?_
  rcases mapped with ⟨l, rfl⟩ | rfl <;> simp only [pageCheck_ok aligned inside, free, Bool.false_eq_true, if_false, walked]

theorem mapc_noStripe (invalid : y = .invalid) (none : (s1.part s.myPart).freeStripe (s.me.scalar f.b).toNat = none) :
    Completes (.mapc f) s (s1.setScalar f.d 2) := by
  subst invalid
  refine completes_of_run ((exec_mapc f s).trans (runIf_eq_run h (decide_eq_false (Nat.not_le.2 half)))) h ?_
  simp only [pageCheck_ok aligned inside, free, Bool.false_eq_true, if_false, walked, none]

variable {x : Nat} (invalid : y = .invalid) (stripe : (s1.part s.myPart).freeStripe (s.me.scalar f.b).toNat = some x)
include invalid stripe

theorem mapc_bankBusy (busy : ∃ j < 32, s1.bankBusy (stripeAddr s.myPart (s.me.scalar f.b).toNat x j) = true) :
    Waits (.mapc f) s .register := by
  subst invalid
  have some_ : ((List.range 32).any fun j => s1.bankBusy (stripeAddr s.myPart (s.me.scalar f.b).toNat x j)) = true := by
    obtain ⟨j, inside, busy⟩ := busy
    exact List.any_eq_true.2 ⟨j, List.mem_range.2 inside, busy⟩
  refine waits_of_run ((exec_mapc f s).trans (runIf_eq_run h (decide_eq_false (Nat.not_le.2 half)))) h ?_
  simp only [pageCheck_ok aligned inside, free, Bool.false_eq_true, if_false, walked, stripe, some_, if_true]

theorem mapc_maps (idle : ∀ j < 32, s1.bankBusy (stripeAddr s.myPart (s.me.scalar f.b).toNat x j) = false) :
    Completes (.mapc f) s (((((s1.markStripe s.myPart (s.me.scalar f.b).toNat x true).zeroStripe s.myPart (s.me.scalar f.b).toNat
      x).writeLeaf s.myPart (s.me.scalar f.a).toNat (computeLeaf s1.module (stripeAddr s.myPart (s.me.scalar f.b).toNat x 0))
      (s.who s.me (s.me.scalar f.a) 7)).invalidatePart s.myPart (s.me.scalar f.a).toNat (2 ^ 21)).setScalar f.d 0) := by
  subst invalid
  have none : ((List.range 32).any fun j => s1.bankBusy (stripeAddr s.myPart (s.me.scalar f.b).toNat x j)) = false :=
    List.any_eq_false.2 fun j inside => Bool.eq_false_iff.1 (idle j (List.mem_range.1 inside))
  refine completes_of_run ((exec_mapc f s).trans (runIf_eq_run h (decide_eq_false (Nat.not_le.2 half)))) h ?_
  simp only [pageCheck_ok aligned inside, free, Bool.false_eq_true, if_false, walked, stripe, none]

end

/-! ### `unmapc` (27/R396) -/

section
variable {l : Leaf} (h : Clear (.unmapc f) info f s) (aligned : (s.me.scalar f.a).toNat % 2 ^ 21 = 0)
  (inside : (s.me.scalar f.a).toNat < 2 ^ 52)
include h aligned inside

theorem unmapc_nearWaits (near : s.nearWaits s.myPart (s.me.scalar f.a).toNat = true) : Waits (.unmapc f) s .register := by
  refine waits_of_run (exec_unmapc f s) h ?_
  simp only [pageCheck_ok aligned inside, near, if_true]

variable (still : s.nearWaits s.myPart (s.me.scalar f.a).toNat = false)
  (walked : s.walk s.myPart (s.me.scalar f.a).toNat (s.who s.me (s.me.scalar f.a) 7) = (y, s1))
include still walked

theorem unmapc_busy (busy : y = .busy) : Waits (.unmapc f) s .register := by
  subst busy
  refine waits_of_run (exec_unmapc f s) h ?_
  simp only [pageCheck_ok aligned inside, still, Bool.false_eq_true, if_false, walked]

theorem unmapc_unread (unread : y = .unread) : exec (.unmapc f) s =
    .next (s1.counted.takeTrap s1.meId { trapOf (.unmapc f) s1.me 19 (s.me.scalar f.a) with place := 7 }) := by
  subst unread
  have turn : s1.meId = s.meId := by
    have kept := State.walk_keeps (p := State.meId) (fun _ _ _ => rfl) s s.myPart (s.me.scalar f.a).toNat (s.who s.me (s.me.scalar f.a) 7)
    rwa [walked] at kept
  refine fail_of_run (exec_unmapc f s) h ?_ turn
  simp only [pageCheck_ok aligned inside, still, Bool.false_eq_true, if_false, walked, walkFails]

theorem unmapc_unmapped (none : y = .invalid ∨ y = .malformed) : Completes (.unmapc f) s (s1.setScalar f.d 1) := by
  refine completes_of_run (exec_unmapc f s) h ?_
  rcases none with rfl | rfl <;> simp only [pageCheck_ok aligned inside, still, Bool.false_eq_true, if_false, walked]

theorem unmapc_other (leaf : y = .leaf l) (other : (l.large && leafC l.entry && s1.leafOk l) = false) :
    Completes (.unmapc f) s (s1.setScalar f.d 1) := by
  subst leaf
  refine completes_of_run (exec_unmapc f s) h ?_
  simp only [pageCheck_ok aligned inside, still, Bool.false_eq_true, if_false, walked, other]

theorem unmapc_frees (leaf : y = .leaf l) (compute : (l.large && leafC l.entry && s1.leafOk l) = true) :
    Completes (.unmapc f) s ((((s1.writeLeaf s.myPart (s.me.scalar f.a).toNat 0 (s.who s.me (s.me.scalar f.a) 7)).markStripe
      (leafAddr l.entry / partWindow) (leafHalf l) ((leafAddr l.entry % partWindow - directBase) % 2 ^ 26 / 65536) false).invalidatePart
      s.myPart (s.me.scalar f.a).toNat (2 ^ 21)).setScalar f.d 0) := by
  subst leaf
  refine completes_of_run (exec_unmapc f s) h ?_
  simp only [pageCheck_ok aligned inside, still, Bool.false_eq_true, if_false, walked, compute, if_true]

end

/-! ### A drain leaves the turn's group its place -/

/-- A field of the group of the turn that is neither its buffer nor its list of posted writes. -/
theorem State.drainWc_me {γ : Type} {p : Group → γ} (hp : ∀ x wc posted, p { x with wc, posted } = p x) (s : State) (g : Nat) :
    p (s.drainWc g).me = p s.me := by
  have set : ∀ (u : State) x y, u.group? g = some x → p y = p x → p (u.setGroup g y).me = p u.me := by
    intro u x y e hy
    unfold State.setGroup
    split
    · next turn =>
      simp only [State.group?, if_pos turn] at e
      split at e
      · cases e
      · cases e
        exact hy
    · rfl
  have send : ∀ (u : State) va la bs, p (u.sendWrite g va la bs).me = p u.me := by
    intro u va la bs
    unfold State.sendWrite State.modGroup
    dsimp only
    split
    · next x e => exact set _ x _ e (hp x x.wc _)
    · rfl
  unfold State.drainWc
  split
  · rfl
  · next x e =>
    rw [foldl_keeps (State.sendLine g) (fun u => p u.me) fun u l => foldl_keeps _ (fun u => p u.me) (fun u r => send u ..) _ u]
    exact set s x _ e (hp x [] x.posted)

theorem State.drainWc_myPart (s : State) (g : Nat) : (s.drainWc g).myPart = s.myPart :=
  congrArg corePart (State.drainWc_me (p := Group.core) (fun _ _ _ => rfl) s g)

/-! ### `xinv` (27/R397) -/

theorem range_inside {a b : Word} (inside : b.toNat = 0 ∨ a.toNat + b.toNat ≤ 2 ^ 52) :
    (decide (b ≠ 0) && decide (2 ^ 52 < a.toNat + b.toNat)) = false := by
  rcases inside with e | e
  · rw [decide_eq_false (not_not.2 (BitVec.eq_of_toNat_eq e)), Bool.false_and]
  · rw [decide_eq_false (Nat.not_lt.2 e), Bool.and_false]

/-- The range that two operands name: B of 0 names every address. -/
theorem range_named (a b : Word) : (if b = 0 then (0, 2 ^ 52) else (a.toNat, b.toNat))
    = (if b.toNat = 0 then 0 else a.toNat, if b.toNat = 0 then 2 ^ 52 else b.toNat) := by
  have zero : b = 0 ↔ b.toNat = 0 := ⟨fun e => congrArg BitVec.toNat e, fun e => BitVec.eq_of_toNat_eq e⟩
  simp only [zero]
  split <;> rfl

section
variable {lo n : Nat} {names : Nat → Bool} (h : Clear (.xinv f) info f s) (ha : (s.me.scalar f.a).toNat % 65536 = 0)
  (hb : (s.me.scalar f.b).toNat % 65536 = 0)
  (inside : (s.me.scalar f.b).toNat = 0 ∨ (s.me.scalar f.a).toNat + (s.me.scalar f.b).toNat ≤ 2 ^ 52)
include h ha hb inside

theorem xinv_loads (loads : s.me.splits ≠ []) : Waits (.xinv f) s .answer := by
  refine waits_of_run (exec_xinv f s) h ?_
  simp only [ha, hb, range_inside inside, ne_eq, not_true_eq_false, if_false, Bool.false_eq_true, Group.returned_waits rfl loads]

variable (loads : s.me.splits = []) (drained : s1 = s.drainWc s.meId) (named : names = invNames s.me.core (f.scope == 3))
  (low : lo = if (s.me.scalar f.b).toNat = 0 then 0 else (s.me.scalar f.a).toNat)
  (size : n = if (s.me.scalar f.b).toNat = 0 then 2 ^ 52 else (s.me.scalar f.b).toNat)
include loads drained named low size

theorem xinv_drops (idle : s1.inFlight names lo n = false) : Completes (.xinv f) s (s1.invalidate names lo n) := by
  have core : s1.me.core = s.me.core := drained ▸ State.drainWc_me (p := Group.core) (fun _ _ _ => rfl) s _
  refine completes_of_run (exec_xinv f s) h ?_
  simp only [ha, hb, range_inside inside, ne_eq, not_true_eq_false, if_false, Bool.false_eq_true, Group.returned_ok fun _ => loads,
    ← drained, core, ← named, range_named, ← low, ← size, idle]

theorem xinv_waits (busy : s1.inFlight names lo n = true) : exec (.xinv f) s = .next { s1 with me := s1.me.waitOn .answer s1.time } := by
  have core : s1.me.core = s.me.core := drained ▸ State.drainWc_me (p := Group.core) (fun _ _ _ => rfl) s _
  refine held_of_run (exec_xinv f s) h ?_
  simp only [ha, hb, range_inside inside, ne_eq, not_true_eq_false, if_false, Bool.false_eq_true, Group.returned_ok fun _ => loads,
    ← drained, core, ← named, range_named, ← low, ← size, busy, if_true]

end

/-! ### `fbsvc` (27/R398) -/

section
variable {v c : Nat} (h : Clear (.fbsvc f) info f s) (hv : v = (s.me.scalar f.a).toNat) (hc : c = v / 2 ^ 8 % 2 ^ 12)
  (bits : v < 2 ^ 22) (served : v / 2 ^ 20 < 2) (zero : v / 2 ^ 6 % 4 = 0)
include h hv hc bits served zero

/-- A well-formed operand runs with its two fields. -/
theorem exec_fbsvc_legal : ∃ e, exec (.fbsvc f) s = run (.fbsvc f) s e ∧ e info f =
    if v / 2 ^ 20 = 0 && coreCount > c && corePart c == s.myPart && s.replayWaits c (v % 64) then .error (.wait .register)
    else (s.me.returned true).map fun _ =>
      let t := s.drainWc s.meId
      let r : Nat × State :=
        if coreCount ≤ c || corePart c ≠ t.myPart then (2, t)
        else match (t.core c).fbuf.get? (v % 64) with
          | none => (1, t)
          | some (o, va) => (0, if v / 2 ^ 20 = 0 then t.replayEntry c (v % 64) o va else t.condemnEntry c (v % 64) o va)
      r.2.setScalar f.d (BitVec.ofNat 64 r.1) := by
  have small : v / 2 ^ 20 % 4 = v / 2 ^ 20 := Nat.mod_eq_of_lt (by omega)
  have legal : (decide (v / 2 ^ 22 ≠ 0) || decide (2 ≤ v / 2 ^ 20 % 4) || decide (v / 2 ^ 6 % 4 ≠ 0)) = false := by
    rw [small, zero, Nat.div_eq_of_lt bits]
    simpa using served
  subst hv hc
  rw [exec_fbsvc]
  unfold execFbsvc
  dsimp only
  exact ⟨_, runIf_eq_run h legal, by simp only [small] <;> rfl⟩

theorem fbsvc_waits (walk : v / 2 ^ 20 = 0 ∧ s.replayWaits c (v % 64) = true) (core : c < 3072) (mine : corePart c = s.myPart) :
    Waits (.fbsvc f) s .register := by
  obtain ⟨e, run, effect⟩ := exec_fbsvc_legal h hv hc bits served zero
  refine waits_of_run run h (effect.trans (if_pos ?_))
  simp only [walk.1, walk.2, mine, beq_self_eq_true, decide_eq_true (show coreCount > c from core), decide_true, Bool.and_self]

variable (loads : s.me.splits = [])
include loads

/-- Where nothing waits, the answer is that of the entry named. -/
theorem fbsvc_answers (free : ¬ (v / 2 ^ 20 = 0 ∧ s.replayWaits c (v % 64) = true) ∨ 3072 ≤ c ∨ corePart c ≠ s.myPart) {n : Nat} {t : State}
    (answer : (if coreCount ≤ c || corePart c ≠ (s.drainWc s.meId).myPart then (2, s.drainWc s.meId)
      else match ((s.drainWc s.meId).core c).fbuf.get? (v % 64) with
        | none => (1, s.drainWc s.meId)
        | some (o, va) => (0, if v / 2 ^ 20 = 0 then (s.drainWc s.meId).replayEntry c (v % 64) o va
            else (s.drainWc s.meId).condemnEntry c (v % 64) o va)) = (n, t)) :
    Completes (.fbsvc f) s (t.setScalar f.d (BitVec.ofNat 64 n)) := by
  obtain ⟨e, run, effect⟩ := exec_fbsvc_legal h hv hc bits served zero
  have passes : (decide (v / 2 ^ 20 = 0) && decide (coreCount > c) && corePart c == s.myPart && s.replayWaits c (v % 64)) = false := by
    have cores : coreCount = 3072 := rfl
    rw [Bool.eq_false_iff]
    simp only [ne_eq, Bool.and_eq_true, decide_eq_true_eq, beq_iff_eq, cores]
    rintro ⟨⟨⟨replay, core⟩, mine⟩, walk⟩
    rcases free with free | free | free
    · exact free ⟨replay, walk⟩
    · omega
    · exact free mine
  refine completes_of_run run h (effect.trans ?_)
  simp only [passes, Bool.false_eq_true, if_false, Group.returned_ok fun _ => loads, Except.map, answer]

theorem fbsvc_outside (outside : 3072 ≤ c ∨ corePart c ≠ (s.drainWc s.meId).myPart) :
    Completes (.fbsvc f) s ((s.drainWc s.meId).setScalar f.d 2) := by
  refine fbsvc_answers h hv hc bits served zero loads (.inr ?_) (if_pos ?_)
  · rwa [State.drainWc_myPart] at outside
  · exact (Bool.or_eq_true _ _).mpr (outside.imp decide_eq_true decide_eq_true)

variable (free : ¬ (v / 2 ^ 20 = 0 ∧ s.replayWaits c (v % 64) = true)) (core : c < 3072)
  (mine : corePart c = (s.drainWc s.meId).myPart)
include free core mine

theorem fbsvc_noEntry (none : ((s.drainWc s.meId).core c).fbuf.get? (v % 64) = none) :
    Completes (.fbsvc f) s ((s.drainWc s.meId).setScalar f.d 1) := by
  refine fbsvc_answers h hv hc bits served zero loads (.inl free) ?_
  simp only [none, mine, decide_eq_false (Nat.not_le.2 core : ¬ coreCount ≤ c), ne_eq, not_true_eq_false, decide_false, Bool.or_self,
    Bool.false_eq_true, if_false]

theorem fbsvc_serves {o : FbOwner} {va : Word} (entry : ((s.drainWc s.meId).core c).fbuf.get? (v % 64) = some (o, va)) :
    Completes (.fbsvc f) s ((if v / 2 ^ 20 = 0 then (s.drainWc s.meId).replayEntry c (v % 64) o va
      else (s.drainWc s.meId).condemnEntry c (v % 64) o va).setScalar f.d 0) := by
  refine fbsvc_answers h hv hc bits served zero loads (.inl free) ?_
  simp only [entry, mine, decide_eq_false (Nat.not_le.2 core : ¬ coreCount ≤ c), ne_eq, not_true_eq_false, decide_false, Bool.or_self,
    Bool.false_eq_true, if_false]

end

/-! ### A parked access goes on (08/R146) -/

theorem accessRestart_goesOn {p : Parked} {e : Nat} {y : Xlate} {found : Option (Word × Home × Bool)}
    (parked : (s.group s.subject).status = .parked) (access : (s.group s.subject).parked = some p) (unlisted : p.entry = none)
    (unserved : p.doomed = false) (number : e < 64) (free : (s.core (s.group s.subject).core).fbuf.get? e = none)
    (finds : s.stillFaults (s.group s.subject).core p.va p.writes = (y, found, s1)) (gone : y ≠ .replay) (idle : y ≠ .wait) :
    exec .accessRestart s = .next (if y.barFar p.reduced (corePart (s.group s.subject).core) = y then s1.resumeAccess s.subject p found
      else s1.condemned s.subject p) := by
  obtain ⟨k, first⟩ : ∃ k, (List.range 64).find? (fun e => ((s.core (s.group s.subject).core).fbuf.get? e).isNone) = some k :=
    Option.isSome_iff_exists.1 (List.find?_isSome.2 ⟨e, List.mem_range.2 number, by rw [free]; rfl⟩)
  have walks : s.xlateWaits (s.group s.subject).core p.va p.writes = false := by
    unfold State.stillFaults at finds
    refine decide_eq_false fun wait => ?_
    split at finds
    · next e => rw [e] at wait; cases wait
    · next e => rw [e] at wait; cases finds; exact idle wait
  simp only [exec_accessRestart, execAccessRestart, parked, access, unlisted, unserved, Option.isSome_none, Bool.or_self, Bool.false_eq_true,
    if_false, first, walks, finds]
  cases y with
  | replay => exact absurd rfl gone
  | _ => simp only [ne_eq, ite_not]

end

/-- Settles O36: `mapc` and `unmapc` by what their walks end at, `xinv` and `fbsvc` by what is outstanding, then the restart. -/
theorem pagesAndFaults : Obligations.PagesAndFaults := by
  refine ⟨fun f s s1 info y h aligned inside half => ⟨mapc_installed h aligned inside half, fun free walked =>
      ⟨mapc_busy h aligned inside half free walked, mapc_unread h aligned inside half free walked,
        mapc_mapped h aligned inside half free walked, mapc_noStripe h aligned inside half free walked, fun x invalid stripe => ?_⟩⟩,
    fun f s s1 info l h aligned inside still walked => ⟨unmapc_other h aligned inside still walked rfl,
      fun compute => ⟨_, unmapc_frees h aligned inside still walked rfl compute, rfl⟩⟩,
    fun f s info h aligned inside => ⟨unmapc_nearWaits h aligned inside, fun still y s1 walked =>
      ⟨unmapc_busy h aligned inside still walked, unmapc_unread h aligned inside still walked, unmapc_unmapped h aligned inside still walked⟩⟩,
    fun f s info h ha hb inside => ⟨xinv_loads h ha hb inside, fun loads => xinv_drops h ha hb inside loads rfl ?_ rfl rfl,
      fun loads => xinv_waits h ha hb inside loads rfl ?_ rfl rfl⟩,
    fun f s info h bits served zero loads => ⟨fbsvc_waits h rfl rfl bits served zero, fbsvc_outside h rfl rfl bits served zero loads,
      fbsvc_noEntry h rfl rfl bits served zero loads, fun o va free core mine => fbsvc_serves h rfl rfl bits served zero loads free core mine⟩,
    fun s s1 p e y found => accessRestart_goesOn⟩
  · have busy := mapc_bankBusy h aligned inside half free walked invalid stripe
    have maps := mapc_maps h aligned inside half free walked invalid stripe
    simp only [stripeAddr_eq, Nat.zero_mul, Nat.add_zero] at busy maps
    exact ⟨busy, maps⟩
  · rfl
  · rfl

end Sys2Proof.Machine

/-!
Bytes of DRAM that nothing disturbs, as accesses read and write them, for the atomics, the exact sums and the host.
-/

namespace Sys2Proof.Machine

open Sys2Proof Sys2Proof.Claims

/-! ### Bytes written one after the other -/

/-- The byte that a list of writes leaves at an address, where one of them names it. -/
def lastByte (cells : List (Nat × Byte)) (a : Nat) : Option Byte :=
  cells.foldl (fun v c => if c.1 = a then some c.2 else v) none

theorem foldl_lastByte (cells : List (Nat × Byte)) (a : Nat) : ∀ v : Option Byte,
    cells.foldl (fun v c => if c.1 = a then some c.2 else v) v = (lastByte cells a).or v := by
  induction cells with
  | nil => exact fun _ => rfl
  | cons c cells ih =>
    intro v
    simp only [lastByte, List.foldl_cons]
    rw [ih, ih (if c.1 = a then some c.2 else none)]
    split
    · cases lastByte cells a <;> rfl
    · cases lastByte cells a <;> rfl

theorem lastByte_cons (c : Nat × Byte) (cells : List (Nat × Byte)) (a : Nat) :
    lastByte (c :: cells) a = (lastByte cells a).or (if c.1 = a then some c.2 else none) := foldl_lastByte cells a _

theorem lastByte_of_not_mem {cells : List (Nat × Byte)} {a : Nat} (h : ∀ c ∈ cells, c.1 ≠ a) : lastByte cells a = none := by
  induction cells with
  | nil => rfl
  | cons c cells ih =>
    rw [lastByte_cons, if_neg (h c List.mem_cons_self), ih fun d hd => h d (List.mem_cons_of_mem _ hd)]
    rfl

/-- The bytes of a run stand at rising addresses. -/
theorem lastByte_run (bs : List Byte) (base a : Nat) : lastByte (bs.zipIdx.map fun b => (base + b.2, b.1)) a
    = if base ≤ a ∧ a < base + bs.length then bs[a - base]? else none := by
  suffices h : ∀ k, lastByte ((bs.zipIdx k).map fun b => (base + b.2, b.1)) a
      = if base + k ≤ a ∧ a < base + k + bs.length then bs[a - (base + k)]? else none from h 0
  induction bs with
  | nil => intro k; simp [lastByte]
  | cons b bs ih =>
    intro k
    rw [List.zipIdx_cons, List.map_cons, lastByte_cons, ih (k + 1)]
    by_cases here : base + k = a
    · subst here
      simp
    · by_cases inside : base + (k + 1) ≤ a ∧ a < base + (k + 1) + bs.length
      · obtain ⟨d, rfl⟩ : ∃ d, a = base + k + (d + 1) := ⟨a - (base + k + 1), by omega⟩
        have whole : base + k ≤ base + k + (d + 1) ∧ base + k + (d + 1) < base + k + (b :: bs).length := by
          rw [List.length_cons]; omega
        have offset : base + k + (d + 1) - (base + (k + 1)) = d := by omega
        have offset' : base + k + (d + 1) - (base + k) = d + 1 := by omega
        rw [if_pos inside, if_pos whole, offset, offset', if_neg here, List.getElem?_cons_succ, Option.or_none]
      · rw [if_neg inside, if_neg here, if_neg (by rw [List.length_cons]; omega)]
        rfl

theorem bytesOf_getElem? (n : Nat) : ∀ x k, k < n → (bytesOf x n)[k]? = some (BitVec.ofNat 8 (x / 256 ^ k)) := by
  induction n with
  | zero => intro x k h; omega
  | succ n ih =>
    intro x k h
    cases k with
    | zero => simp [bytesOf]
    | succ k => rw [bytesOf, List.getElem?_cons_succ, ih _ _ (by omega), Nat.pow_succ', Nat.div_div_eq_div_mul]

theorem Memory.read_foldl_write (cells : List (Nat × Byte)) (a : Nat) : ∀ m : Memory,
    Memory.read (cells.foldl (fun m c => Memory.write m c.1 c.2) m) a = (lastByte cells a).getD (Memory.read m a) := by
  induction cells with
  | nil => exact fun _ => rfl
  | cons c cells ih =>
    intro m
    rw [List.foldl_cons, ih, lastByte_cons, Memory.read_write]
    cases lastByte cells a
    · split <;> rfl
    · rfl

theorem readN_eq_map (m : Memory) (n : Nat) : ∀ a, Memory.readN m a n = (List.range n).map fun o => Memory.read m (a + o) := by
  induction n with
  | zero => exact fun _ => rfl
  | succ n ih =>
    intro a
    rw [Memory.readN, ih, List.range_succ_eq_map, List.map_cons, List.map_map]
    refine congrArg₂ _ rfl (List.map_congr_left fun o _ => ?_)
    rw [Function.comp, Nat.add_assoc, Nat.add_comm 1]

/-! ### A write of plain columns -/

/-- The bytes of a list of writes that lie in one column, by their place in it. -/
def inColumn (cells : List (Nat × Byte)) (col : Nat) : List (Nat × Byte) :=
  cells.filterMap fun c => if c.1 / 64 = col then some (c.1 % 64, c.2) else none

theorem read_inColumn (cells : List (Nat × Byte)) (col a : Nat) : ∀ m : Memory,
    Memory.read ((inColumn cells col).foldl (fun m b => Memory.write m (64 * col + b.1) b.2) m) a
      = if a / 64 = col then (lastByte cells a).getD (Memory.read m a) else Memory.read m a := by
  induction cells with
  | nil => intro m; simp [inColumn, lastByte]
  | cons c cells ih =>
    intro m
    rw [lastByte_cons]
    by_cases hc : c.1 / 64 = col
    · have place : 64 * col + c.1 % 64 = c.1 := by omega
      have step : inColumn (c :: cells) col = (c.1 % 64, c.2) :: inColumn cells col := by simp [inColumn, hc]
      rw [step, List.foldl_cons, ih]
      dsimp only
      rw [place, Memory.read_write]
      by_cases ha : c.1 = a
      · subst ha
        rw [if_pos hc, if_pos hc, if_pos rfl, if_pos rfl]
        cases lastByte cells c.1 <;> rfl
      · rw [if_neg ha, if_neg ha, Option.or_none]
    · have step : inColumn (c :: cells) col = inColumn cells col := by simp [inColumn, hc]
      rw [step, ih]
      by_cases ha : a / 64 = col
      · have other : c.1 ≠ a := fun e => hc (e ▸ ha)
        rw [if_pos ha, if_pos ha, if_neg other, Option.or_none]
      · rw [if_neg ha, if_neg ha]

/-- Nothing disturbs a column: neither damage nor a beat that has failed. -/
def State.sound (s : State) (col : Nat) (w : Who) : Prop := s.damaged.get? col = none ∧ s.meetBeat (64 * col) w = none

/-- What an access of a column meets depends on the buses and the banks alone. -/
theorem State.meetBeat_eq_none {s t : State} {la : Nat} {w : Who} (bank : t.bankAt la = s.bankAt la) (parts : t.parts = s.parts)
    (h : s.meetBeat la w = none) : t.meetBeat la w = none := by
  have beats : ∀ u : State, u.meetBeat la w = none ↔ ∀ x, (if w.source = 2 then none else u.bankAt la) = some x →
      ((u.part x.1).buses.get (x.2 / 16) {}).failed.find? (fun e => e.col == la / 64) = none := by
    intro u
    unfold State.meetBeat
    cases (if w.source = 2 then none else u.bankAt la) with
    | none => simp
    | some x =>
      dsimp only
      cases e : ((u.part x.1).buses.get (x.2 / 16) {}).failed.find? (fun e => e.col == la / 64) with
      | none => exact ⟨fun _ y hy => Option.some.inj hy ▸ e, fun _ => rfl⟩
      | some b => exact ⟨nofun, fun h => nomatch e.symm.trans (h x rfl)⟩
  rw [beats, bank]
  simpa only [State.part, parts] using (beats s).1 h

theorem State.meetBeat_withMem {s : State} {la : Nat} {w : Who} (m : Memory) (h : s.meetBeat la w = none) :
    ({ s with mem := m } : State).meetBeat la w = none :=
  State.meetBeat_eq_none (s := s) (t := { s with mem := m }) rfl rfl h

theorem State.writeColumn_sound {s : State} {col : Nat} {w : Who} (h : s.sound col w) (bytes : List (Nat × Byte)) :
    s.writeColumn col bytes w
      = { s with mem := bytes.foldl (fun m b => Memory.write m (64 * col + b.1) b.2) s.mem } := by
  obtain ⟨undamaged, unmet⟩ := h
  simp only [State.writeColumn, unmet, undamaged]

theorem State.writeColumns_sound {s : State} {w : Who} (cells : List (Nat × Byte)) (cols : List Nat) (h : ∀ col ∈ cols, s.sound col w) :
    ∃ m, cols.foldl (fun s col => s.writeColumn col (inColumn cells col) w) s = { s with mem := m }
      ∧ ∀ a, Memory.read m a = if a / 64 ∈ cols then (lastByte cells a).getD (Memory.read s.mem a) else Memory.read s.mem a := by
  induction cols generalizing s with
  | nil => exact ⟨s.mem, rfl, fun a => by simp⟩
  | cons col cols ih =>
    rw [List.foldl_cons, State.writeColumn_sound (h col List.mem_cons_self)]
    obtain ⟨m, writes, reads⟩ := ih
      (s := { s with mem := (inColumn cells col).foldl (fun m b => Memory.write m (64 * col + b.1) b.2) s.mem })
      fun c hc => ⟨(h c (List.mem_cons_of_mem _ hc)).1, State.meetBeat_withMem _ (h c (List.mem_cons_of_mem _ hc)).2⟩
    refine ⟨m, writes, fun a => ?_⟩
    rw [reads, read_inColumn]
    by_cases hc : a / 64 = col
    · simp only [hc, if_true, List.mem_cons, true_or]
      split <;> cases lastByte cells a <;> rfl
    · simp only [hc, if_false, List.mem_cons, false_or]

theorem State.writeRaw_sound {s : State} {w : Who} {cells : List (Nat × Byte)} (h : ∀ c ∈ cells, s.sound (c.1 / 64) w) :
    ∃ m, s.writeRaw w cells = { s with mem := m } ∧ ∀ a, Memory.read m a = (lastByte cells a).getD (Memory.read s.mem a) := by
  obtain ⟨m, writes, reads⟩ := State.writeColumns_sound (s := s) (w := w) cells (cells.map fun c => c.1 / 64).eraseDups fun col hc => by
    obtain ⟨c, mem, rfl⟩ := List.mem_map.1 (List.mem_eraseDups.1 hc)
    exact h c mem
  refine ⟨m, writes, fun a => (reads a).trans ?_⟩
  split
  · rfl
  · next out =>
    rw [lastByte_of_not_mem fun c hc e => out (List.mem_eraseDups.2 (List.mem_map.2 ⟨c, hc, by rw [e]⟩))]
    rfl

theorem State.meetColumns_sound {s : State} {w : Who} {cs : List Nat} (sound : ∀ c ∈ cs, s.sound c w) : State.meetColumns w cs s = (none, s) := by
  induction cs with
  | nil => rfl
  | cons c cs ih =>
    obtain ⟨undamaged, unmet⟩ := sound c List.mem_cons_self
    have column : 64 * c / 64 = c := by omega
    have read : s.readColumn (64 * c) w = (true, s) := by simp only [State.readColumn, unmet, column, undamaged]
    rw [State.meetColumns, read]
    exact ih fun d hd => sound d (List.mem_cons_of_mem _ hd)

/-! ### Plain DRAM (26/R387, R388) -/

/-- The bytes of runs at their addresses. -/
def runCells (la : Nat) (runs : List (Nat × List Byte)) : List (Nat × Byte) :=
  runs.flatMap fun r => r.2.zipIdx.map fun b => (la + r.1 + b.2, b.1)

/-- The n bytes of DRAM from an address are stored as they stand, at their own place, and nothing disturbs them. -/
structure PlainBytes (s : State) (la n : Nat) (w : Who) : Prop where
  still : ∀ o < n, s.located (la + o) = la + o
  sound : ∀ o < n, s.sound ((la + o) / 64) w
  uncoded : ∀ o < n, s.codeOf (la + o) = 0

/-- The bytes that an operand's hypothesis calls plain (26/R387, R388). -/
theorem PlainRam.bytes {s : State} {la n : Nat} (h : PlainRam s la n) (w : Who) : PlainBytes s la n w where
  still := h.still
  sound o ho := ⟨h.sound o ho, h.beats o ho w⟩
  uncoded o ho := by
    have := h.uncoded o ho
    simp only [State.coded, Bool.or_eq_false_iff, bne_eq_false_iff_eq] at this
    exact this.2

section
variable {s : State} {la n : Nat} {w : Who} (h : PlainBytes s la n w)
include h

theorem PlainBytes.columnOf_eq {o : Nat} (ho : o < n) : s.columnOf (la + o) = (la + o) / 64 := by
  have here : storedAt 0 (la + o) = la + o := by
    have split : (la + o) / 256 * 256 + 64 * ((la + o) / 64 % 4) + (la + o) % 64 = la + o := by omega
    exact split
  rw [State.columnOf, h.uncoded o ho, here, h.still o ho]

theorem PlainBytes.readOffs_eq {offs : List Nat} (inside : ∀ o ∈ offs, o < n) :
    s.readOffs la w offs = .ok (offs.map fun o => Memory.read s.mem (la + o), s) := by
  have columns : ∀ c ∈ s.columnsOf (offs.map (la + ·)), s.sound c w := by
    intro c hc
    obtain ⟨a, ha, rfl⟩ := List.mem_map.1 (List.mem_eraseDups.1 hc)
    obtain ⟨o, ho, rfl⟩ := List.mem_map.1 (List.mem_filter.1 ha).1
    rw [h.columnOf_eq (inside o ho)]
    exact h.sound o (inside o ho)
  have located : offs.map (fun o => Memory.read s.mem (s.located (la + o))) = offs.map fun o => Memory.read s.mem (la + o) :=
    List.map_congr_left fun o ho => by rw [h.still o (inside o ho)]
  simp only [State.readOffs, State.meetColumns_sound columns, located]

theorem PlainBytes.writeRuns_eq (raw : ∀ o < n, s.coded s.zPages (la + o) = false) {runs : List (Nat × List Byte)} (inside : ∀ c ∈ runCells la runs, la ≤ c.1 ∧ c.1 < la + n) :
    ∃ m, s.writeRuns la w runs = { s with mem := m }
      ∧ ∀ a, Memory.read m a = (lastByte (runCells la runs) a).getD (Memory.read s.mem a) := by
  have place : ∀ c ∈ runCells la runs, ∃ o < n, c.1 = la + o := fun c hc =>
    ⟨c.1 - la, by have := inside c hc; omega, by have := inside c hc; omega⟩
  have uncoded : ∀ c ∈ runCells la runs, s.coded s.zPages c.1 = false := by
    intro c hc
    obtain ⟨o, ho, e⟩ := place c hc
    rw [e]
    exact raw o ho
  have whole : (runCells la runs).partition (fun c => s.coded s.zPages c.1) = ([], runCells la runs) := by
    rw [List.partition_eq_filter_filter]
    refine Prod.ext (List.filter_eq_nil_iff.2 fun c hc => ?_) (List.filter_eq_self.2 fun c hc => ?_)
    · rw [uncoded c hc]; exact Bool.false_ne_true
    · simp only [Function.comp, uncoded c hc, Bool.not_false]
  have still : (runCells la runs).map (fun c => (s.located c.1, c.2)) = runCells la runs := by
    refine (List.map_congr_left fun c hc => ?_).trans (List.map_id _)
    obtain ⟨o, ho, e⟩ := place c hc
    exact Prod.ext (show s.located c.1 = c.1 by rw [e]; exact h.still o ho) rfl
  have sound : ∀ c ∈ runCells la runs, s.sound (c.1 / 64) w := by
    intro c hc
    obtain ⟨o, ho, e⟩ := place c hc
    rw [e]
    exact h.sound o ho
  obtain ⟨m, writes, reads⟩ := State.writeRaw_sound sound
  refine ⟨m, ?_, reads⟩
  unfold State.writeRuns
  dsimp only
  rw [show (runs.flatMap fun r => r.2.zipIdx.map fun b => (la + r.1 + b.2, b.1)) = runCells la runs from rfl, whole]
  dsimp only
  rw [still, writes]
  rfl

/-- A write of one run. -/
theorem PlainBytes.writeRun_eq (raw : ∀ o < n, s.coded s.zPages (la + o) = false) {bs : List Byte} (size : bs.length = n) :
    ∃ m, s.writeRuns la w [(0, bs)] = { s with mem := m } ∧
      ∀ a, Memory.read m a = if la ≤ a ∧ a < la + n then bs.getD (a - la) 0 else Memory.read s.mem a := by
  have cells : runCells la [(0, bs)] = bs.zipIdx.map fun b => (la + b.2, b.1) := List.append_nil _
  obtain ⟨m, writes, reads⟩ := h.writeRuns_eq raw (runs := [(0, bs)]) fun c hc => by
    rw [cells] at hc
    obtain ⟨b, hb, rfl⟩ := List.mem_map.1 hc
    have small := (List.mem_zipIdx hb).2.1
    dsimp only
    omega
  refine ⟨m, writes, fun a => (reads a).trans ?_⟩
  rw [cells, lastByte_run, size]
  by_cases inside : la ≤ a ∧ a < la + n
  · rw [if_pos inside, if_pos inside, List.getD_eq_getElem?_getD, List.getElem?_eq_getElem (by omega)]
    rfl
  · rw [if_neg inside, if_neg inside]
    rfl

end

end Sys2Proof.Machine

/-!
PROOF of O27 and O29: an operation at a home in plain DRAM reads its bytes and writes them, and no other byte changes.
-/

namespace Sys2Proof.Machine

open Sys2Proof Sys2Proof.Claims

/-! ### A state whose messages have moved on -/

/-- A state with the buffer and the posted writes of the group of the turn, the other groups and the messages of another. -/
def State.sent (s t : State) : State :=
  { s with me := { s.me with wc := t.me.wc, posted := t.me.posted }, others := t.others, nextId := t.nextId, outbox := t.outbox }

theorem State.drainWc_sent (s : State) (g : Nat) : s.drainWc g = s.sent (s.drainWc g) := by
  let rest (u : State) : State := { u with me := s.me, others := s.others, nextId := s.nextId, outbox := s.outbox }
  let own (x : Group) : Group := { x with wc := s.me.wc, posted := s.me.posted }
  have kept : rest (s.drainWc g) = rest s := State.drainWc_keeps (fun _ _ _ _ _ => rfl) s g
  have mine : own (s.drainWc g).me = own s.me := State.drainWc_me (fun _ _ _ => rfl) s g
  calc s.drainWc g
    _ = { rest (s.drainWc g) with
          me := { own (s.drainWc g).me with wc := (s.drainWc g).me.wc, posted := (s.drainWc g).me.posted }
          others := (s.drainWc g).others, nextId := (s.drainWc g).nextId, outbox := (s.drainWc g).outbox } := rfl
    _ = s.sent (s.drainWc g) := by rw [kept, mine]; rfl

theorem State.release_sent (s : State) (rel wide : Bool) : s.release rel wide = s.sent (s.release rel wide) := by
  unfold State.release
  split
  · exact s.drainWc_sent _
  · rfl

/-! ### Plain DRAM through a drain -/

theorem State.meetBeat_sent {s : State} (t : State) {la : Nat} {w : Who} (h : s.meetBeat la w = none) :
    (s.sent t).meetBeat la w = none := State.meetBeat_eq_none (s := s) (t := s.sent t) rfl rfl h

theorem PlainRam.sent {s : State} (t : State) {la n : Nat} (h : PlainRam s la n) : PlainRam (s.sent t) la n where
  reached := h.reached
  idle := h.idle
  still := h.still
  sound := h.sound
  beats o ho w := State.meetBeat_sent t (h.beats o ho w)
  uncoded := h.uncoded

/-! ### Bytes in a table -/

theorem numOf_lt (bs : List Byte) : numOf bs < 256 ^ bs.length := by
  induction bs with
  | nil => exact Nat.one_pos
  | cons b bs ih =>
    have byte := b.isLt
    rw [numOf, List.length_cons, Nat.pow_succ]
    omega

theorem Map.get?_foldl_set (cells : List (Nat × Byte)) (k : Nat) : ∀ m : Map Byte,
    Map.get? (cells.foldl (fun m c => m.set c.1 c.2) m) k = (lastByte cells k).or (Map.get? m k) := by
  induction cells with
  | nil => exact fun _ => rfl
  | cons c cells ih =>
    intro m
    rw [List.foldl_cons, ih, lastByte_cons, Map.get?_set]
    cases lastByte cells k
    · split <;> rfl
    · rfl

/-- The keys of a table rise. -/
def Rising (m : Map Byte) : Prop := m.Pairwise fun p q => p.1 < q.1

theorem Map.key_of_mem_set {m : Map Byte} {k : Nat} {v : Byte} {p : Nat × Byte} (h : p ∈ m.set k v) : p.1 = k ∨ p ∈ m :=
  (Memory.mem_set m k v p h).imp (fun e => congrArg Prod.fst e) id

theorem Rising.set {m : Map Byte} (h : Rising m) (k : Nat) (v : Byte) : Rising (m.set k v) := by
  induction m with
  | nil => exact List.pairwise_singleton _ _
  | cons p m ih =>
    obtain ⟨first, rest⟩ := List.pairwise_cons.1 h
    unfold Map.set
    split
    · next e => exact List.pairwise_cons.2 ⟨fun q hq => e ▸ first q hq, rest⟩
    · next other =>
      split
      · next less =>
        refine List.pairwise_cons.2 ⟨fun q hq => ?_, h⟩
        rcases List.mem_cons.1 hq with rfl | hq
        · exact less
        · exact Nat.lt_trans less (first q hq)
      · next greater =>
        refine List.pairwise_cons.2 ⟨fun q hq => ?_, ih rest⟩
        rcases Map.key_of_mem_set hq with e | hq
        · dsimp only at *
          omega
        · exact first q hq

theorem Rising.foldl_set (cells : List (Nat × Byte)) {m : Map Byte} (h : Rising m) : Rising (cells.foldl (fun m c => m.set c.1 c.2) m) := by
  induction cells generalizing m with
  | nil => exact h
  | cons c cells ih => exact ih (h.set c.1 c.2)

theorem Rising.lastByte {m : Map Byte} (h : Rising m) (k : Nat) : lastByte m k = Map.get? m k := by
  induction m with
  | nil => rfl
  | cons p m ih =>
    obtain ⟨first, rest⟩ := List.pairwise_cons.1 h
    rw [lastByte_cons]
    by_cases e : p.1 = k
    · rw [lastByte_of_not_mem fun q hq => by have := first q hq; omega, if_pos e]
      simp only [Map.get?, e, if_true, Option.none_or]
    · rw [ih rest, if_neg e, Option.or_none]
      simp only [Map.get?, e, if_false]

theorem lastByte_map_add (la a : Nat) (cells : List (Nat × Byte)) :
    lastByte (cells.map fun c => (la + c.1, c.2)) a = if la ≤ a then lastByte cells (a - la) else none := by
  induction cells with
  | nil => simp [lastByte]
  | cons c cells ih =>
    rw [List.map_cons, lastByte_cons, ih, lastByte_cons]
    by_cases low : la ≤ a
    · have place : la + c.1 = a ↔ c.1 = a - la := by omega
      simp only [if_pos low, place]
    · have place : ¬ la + c.1 = a := by omega
      simp only [if_neg low, place, if_false, Option.or_none]

theorem lastByte_map_range (n k : Nat) (v : Nat → Byte) :
    lastByte ((List.range n).map fun j => (j, v j)) k = if k < n then some (v k) else none := by
  have run := lastByte_run ((List.range n).map v) 0 k
  have cells : ((List.range n).map v).zipIdx.map (fun b => (0 + b.2, b.1)) = (List.range n).map fun j => (j, v j) := List.ext_getElem (by simp) (by simp)
  rw [cells] at run
  rw [run]
  by_cases inside : k < n
  · simp [inside]
  · simp [inside]

/-! ### One operation at a plain home -/

section
variable {s : State} {la n : Nat} {w : Who}

/-- The write of a number as one run. -/
theorem PlainRam.writeRun_eq (h : PlainRam s la n) (x : Nat) :
    ∃ m, s.writeRuns la w [(0, bytesOf x n)] = { s with mem := m } ∧
      ∀ a, Memory.read m a = if la ≤ a ∧ a < la + n then BitVec.ofNat 8 (x / 256 ^ (a - la)) else Memory.read s.mem a := by
  obtain ⟨m, writes, reads⟩ := (PlainRam.bytes h w).writeRun_eq h.uncoded (length_bytesOf n x)
  refine ⟨m, writes, fun a => (reads a).trans ?_⟩
  split
  · rw [List.getD_eq_getElem?_getD, bytesOf_getElem? _ _ _ (by omega)]
    rfl
  · rfl

theorem PlainRam.applyHome_xsum (h : PlainRam s la 64) (wide : Bool) (xs : List Word) :
    ∃ m, s.applyHome la w (.xsum wide xs) = .ok ([], { s with mem := m }) ∧
      ∀ a, Memory.read m a = if la ≤ a ∧ a < la + 64 then
        BitVec.ofNat 8 ((xs.foldl (Cell.contribute wide) (cellOf (stored s la 64))).num / 256 ^ (a - la)) else Memory.read s.mem a := by
  have reads := (PlainRam.bytes h w).readOffs_eq (offs := List.range 64) fun o ho => List.mem_range.1 ho
  rw [← readN_eq_map] at reads
  obtain ⟨m, writes, bytes⟩ := PlainRam.writeRun_eq h (w := w) (xs.foldl (Cell.contribute wide) (cellOf (stored s la 64))).num
  refine ⟨m, ?_, bytes⟩
  simp only [State.applyHome, homeReads, reads, ← writes]
  rfl

theorem PlainRam.applyHome_xrd (h : PlainRam s la 64) (wide clear : Bool) :
    ∃ m, s.applyHome la w (.xrd wide clear) = .ok (Memory.readN s.mem la 64, { s with mem := m }) ∧
      ∀ a, Memory.read m a = if clear = true ∧ la ≤ a ∧ a < la + 64 then
        BitVec.ofNat 8 (((cellOf (stored s la 64)).cleared wide).num / 256 ^ (a - la)) else Memory.read s.mem a := by
  have reads := (PlainRam.bytes h w).readOffs_eq (offs := List.range 64) fun o ho => List.mem_range.1 ho
  rw [← readN_eq_map] at reads
  cases clear with
  | false =>
    refine ⟨s.mem, ?_, fun a => by simp⟩
    simp only [State.applyHome, homeReads, reads, Bool.false_eq_true, if_false]
  | true =>
    obtain ⟨m, writes, bytes⟩ := PlainRam.writeRun_eq h (w := w) ((cellOf (stored s la 64)).cleared wide).num
    refine ⟨m, ?_, fun a => (bytes a).trans (by simp)⟩
    simp only [State.applyHome, homeReads, reads, if_true, ← writes]
    rfl

/-- The table of the bytes of a run from 0. -/
def runTable (n : Nat) (v : Nat → Byte) : Map Byte := ((List.range n).map fun j => (j, v j)).foldl (fun m p => m.set p.1 p.2) []

theorem runTable_get {v : Nat → Byte} {k : Nat} (h : k < n) : (runTable n v).get k 0 = v k := by
  rw [Map.get, runTable, Map.get?_foldl_set, lastByte_map_range, if_pos h]
  rfl

/-- The table of a run from 0 with the bytes of a number set over it. -/
def numTable (n : Nat) (v : Nat → Byte) (x : Nat) : Map Byte :=
  ((bytesOf x n).zipIdx.map fun b => (0 + b.2, b.1)).foldl (fun m p => m.set p.1 p.2) (runTable n v)

theorem lastByte_numTable (n : Nat) (v : Nat → Byte) (x k : Nat) :
    lastByte (numTable n v x) k = if k < n then some (BitVec.ofNat 8 (x / 256 ^ k)) else none := by
  have rising : Rising (numTable n v x) := Rising.foldl_set _ (Rising.foldl_set _ List.Pairwise.nil)
  rw [rising.lastByte, numTable, runTable, Map.get?_foldl_set, lastByte_run, length_bytesOf, Map.get?_foldl_set, lastByte_map_range,
    Nat.zero_add, Nat.sub_zero]
  by_cases inside : k < n
  · rw [if_pos ⟨Nat.zero_le k, inside⟩, if_pos inside, bytesOf_getElem? _ _ _ inside, if_pos inside]
    rfl
  · rw [if_neg fun h => inside h.2, if_neg inside, if_neg inside]
    rfl

theorem mem_of_mem_foldl_set (cells : List (Nat × Byte)) : ∀ (m : Map Byte), ∀ p ∈ cells.foldl (fun m c => m.set c.1 c.2) m,
    p ∈ cells ∨ p ∈ m := by
  induction cells with
  | nil => exact fun _ _ h => .inr h
  | cons c cells ih =>
    intro m p h
    rcases ih _ p h with h | h
    · exact .inl (List.mem_cons_of_mem _ h)
    · rcases Memory.mem_set m c.1 c.2 p h with e | h
      · exact .inl (e ▸ List.mem_cons_self)
      · exact .inr h

theorem numTable_below {v : Nat → Byte} {x : Nat} {p : Nat × Byte} (h : p ∈ numTable n v x) : p.1 < n := by
  rcases mem_of_mem_foldl_set _ _ p h with h | h
  · obtain ⟨b, hb, rfl⟩ := List.mem_map.1 h
    have small := (List.mem_zipIdx hb).2.1
    rw [length_bytesOf] at small
    dsimp only
    omega
  · rcases mem_of_mem_foldl_set _ _ p h with h | h
    · obtain ⟨j, hj, rfl⟩ := List.mem_map.1 h
      exact List.mem_range.1 hj
    · exact nomatch h

/-- One atomic on a table: the old number, and the table with the new one. -/
theorem applyAtoms_one (fn : Nat) (t : Ty) (c e : Word) (v : Nat → Byte) {old : Nat}
    (h : numOf ((List.range (atomSize t)).map v) = old) : applyAtoms fn t [(0, c, e)] (runTable (atomSize t) v) =
      ([old], numTable (atomSize t) v (atomNew fn t old c.toNat e.toNat)) := by
  have read : ((List.range (atomSize t)).map fun j => (runTable (atomSize t) v).get (0 + j) 0) = (List.range (atomSize t)).map v :=
    List.map_congr_left fun j hj => by rw [Nat.zero_add, runTable_get (List.mem_range.1 hj)]
  rw [applyAtoms, numTable, List.foldl_map]
  simp only [read, h, applyAtoms]

theorem PlainRam.applyHome_atom {t : Ty} (h : PlainRam s la (atomSize t)) (fn : Nat) (c e : Word) :
    ∃ m, s.applyHome la w (.atoms fn t [(0, c, e)]) = .ok (bytesOf (stored s la (atomSize t)) (atomSize t), { s with mem := m }) ∧
      ∀ a, Memory.read m a = if la ≤ a ∧ a < la + atomSize t then
        BitVec.ofNat 8 (atomNew fn t (stored s la (atomSize t)) c.toNat e.toNat / 256 ^ (a - la)) else Memory.read s.mem a := by
  let v (j : Nat) : Byte := Memory.read s.mem (la + j)
  let table := numTable (atomSize t) v (atomNew fn t (stored s la (atomSize t)) c.toNat e.toNat)
  have offs : homeReads (.atoms fn t [(0, c, e)]) = List.range (atomSize t) := by
    simp [homeReads]
  have reads : s.readOffs la w (List.range (atomSize t)) = .ok ((List.range (atomSize t)).map v, s) :=
    (PlainRam.bytes h w).readOffs_eq fun o ho => List.mem_range.1 ho
  have before : ((List.range (atomSize t)).zip ((List.range (atomSize t)).map v)).foldl (fun m p => Map.set m p.1 p.2) []
      = runTable (atomSize t) v := by
    rw [runTable, List.map_prod_left_eq_zip]
  have applied : applyAtoms fn t [(0, c, e)] (runTable (atomSize t) v) = ([stored s la (atomSize t)], table) :=
    applyAtoms_one fn t c e v (by rw [stored, readN_eq_map])
  have cells : runCells la (table.map fun p => (p.1, [p.2])) = table.map fun p => (la + p.1, p.2) := by
    rw [runCells, List.flatMap_map]
    exact List.map_eq_flatMap.symm
  obtain ⟨m, writes, bytes⟩ := (PlainRam.bytes h w).writeRuns_eq h.uncoded (runs := table.map fun p => (p.1, [p.2])) fun q hq => by
    rw [cells] at hq
    obtain ⟨p, hp, rfl⟩ := List.mem_map.1 hq
    have small := numTable_below hp
    dsimp only
    omega
  refine ⟨m, ?_, fun a => ?_⟩
  · simp only [State.applyHome, offs, reads, before, applied, writes, List.flatMap_cons, List.flatMap_nil, List.append_nil]
  · rw [bytes, cells, lastByte_map_add, lastByte_numTable]
    by_cases low : la ≤ a
    · have inside : a - la < atomSize t ↔ a < la + atomSize t := by omega
      simp only [low, inside, if_true, true_and]
      split <;> rfl
    · simp only [low, if_false, false_and]
      rfl

end

/-! ### An access of a group to plain DRAM -/

/-- An operation may write. -/
def homeWrites : HomeOp → Bool
  | .xrd _ clear => clear
  | _ => true

theorem State.acknowledged_release {s : State} {rel wide sys : Bool} (within : sys = true → wide = true)
    (h : (s.release (rel && wide) true).acknowledged (rel && wide) sys = .ok ()) : (s.release rel wide).acknowledged rel sys = .ok () := by
  cases rel <;> cases wide <;> cases sys <;> simp_all [State.acknowledged, State.release]

theorem wide_of_sys (f : Form) (h : f.sys = true) : f.wide = true := by
  simp only [Form.sys, beq_iff_eq] at h
  simp only [Form.wide, h]
  decide

section
variable {i : Instr} {s : State} {va : Word} {n la : Nat} {op : HomeOp} {sc rel wide sys : Bool}
  (h : Reaches s va n (homeWrites op) la sc ((rel || sc) && wide) sys)
include h

theorem Reaches.translated_eq : translated i s va (homeWrites op) = .ok (.ram la, sc, s) := by
  simp only [translated, h.fresh.1, h.maps, Option.filter_none]

/-- An operation of a group on plain DRAM is applied there, what its release sends having been sent. -/
theorem Reaches.homeAccess_eq (within : sys = true → wide = true) (scalar : Bool) {r : List Byte × State}
    (applied : (s.release (rel || sc) wide).applyHome la ((s.release (rel || sc) wide).who (s.release (rel || sc) wide).me va 3) op = .ok r) :
    homeAccess i s va n op scalar rel wide sys = .ok r := by
  have acked := State.acknowledged_release within h.acked
  have plain : PlainRam (s.release (rel || sc) wide) la n := by
    rw [State.release_sent]
    exact PlainRam.sent _ h.plain
  have kind : homeAccess i s va n op scalar rel wide sys = match translated i s va (homeWrites op) with
      | .error h => .error h
      | .ok _ => ramOp i (s.release (rel || sc) wide) va la n 3 op := by
    have place := Reaches.translated_eq (i := i) h
    cases op <;> simp only [homeAccess, homeWrites, Bool.not_false, Bool.not_not] at place ⊢ <;>
      simp only [place, h.ordered, acked]
  rw [kind, Reaches.translated_eq h]
  simp only [ramOp, plain.reached, plain.idle, applied, Bool.not_true, Bool.false_eq_true, if_false]

end

theorem State.release_me {γ : Type} {p : Group → γ} (hp : ∀ x wc posted, p { x with wc, posted } = p x) (s : State) (rel wide : Bool) :
    p (s.release rel wide).me = p s.me := by
  rw [s.release_sent]
  exact hp s.me _ _

/-- The state that a release leaves has plain DRAM where the state before has it. -/
theorem PlainRam.release {s : State} {la n : Nat} (h : PlainRam s la n) (rel wide : Bool) : PlainRam (s.release rel wide) la n := by
  rw [s.release_sent]
  exact PlainRam.sent _ h

/-! ### The scalar atomics -/

theorem scalarAtom_ok {i : Instr} {info : Info} {f : Form} {s : State} {la : Nat} {sc : Bool}
    (h : Reaches s (s.me.address f) (atomSize (f.type info.base)) true la sc ((f.releases || sc) && f.wide) f.sys) :
    ∃ s' : State, scalarAtom i info f s = .ok (s'.setScalar f.d (BitVec.ofNat 64 (stored s la (atomSize (f.type info.base))))) ∧
      s'.me.sregs = s.me.sregs ∧ ∀ a, Memory.read s'.mem a = if la ≤ a ∧ a < la + atomSize (f.type info.base) then
        BitVec.ofNat 8 (atomNew info.fn (f.type info.base) (stored s la (atomSize (f.type info.base))) (s.me.scalar f.cSpec).toNat
          (s.me.scalar f.d).toNat / 256 ^ (a - la)) else Memory.read s.mem a := by
  let u := s.release (f.releases || sc) f.wide
  have mem : u.mem = s.mem := s.release_mem ..
  obtain ⟨m, applied, bytes⟩ := PlainRam.applyHome_atom (w := u.who u.me (s.me.address f) 3) (PlainRam.release h.plain (f.releases || sc) f.wide)
    info.fn (s.me.scalar f.cSpec) (s.me.scalar f.d)
  have access := Reaches.homeAccess_eq (i := i)
    (op := .atoms info.fn (f.type info.base) [(0, s.me.scalar f.cSpec, s.me.scalar f.d)]) h (wide_of_sys f) true applied
  have size : numOf (bytesOf (stored u la (atomSize (f.type info.base))) (atomSize (f.type info.base)))
      = stored s la (atomSize (f.type info.base)) := by
    rw [numOf_bytesOf, stored, mem]
    refine Nat.mod_eq_of_lt ((numOf_lt _).trans_eq ?_)
    rw [readN_eq_map, List.length_map, List.length_range]
  refine ⟨{ u with mem := m }, ?_, State.release_me (p := Group.sregs) (fun _ _ _ => rfl) s _ _, fun a => ?_⟩
  · simp only [scalarAtom, globalCheck_ok h.aligned h.inSpace, access]
    rw [size]
  · rw [bytes, stored, mem, ← stored]

/-- Settles O27: one operation serves the eight, which reads the old bytes and writes the new ones (19/R308). -/
theorem scalarAtomic : Obligations.ScalarAtomic := by
  have shared : ∀ mk ∈ atomics, ∀ f s, exec (mk f) s = atomOp (mk f) s := by
    simp [atomics, execAtomAdd, execAtomMin, execAtomMax, execAtomAnd, execAtomOr, execAtomXor, execAtomExch, execAtomCas]
  intro mk hmk f s info la n sc clear d t w h
  obtain ⟨s', effect, sregs, bytes⟩ := scalarAtom_ok (i := mk f) h
  refine ⟨s', completes_of_run (shared mk hmk f s) clear ?_, sregs, bytes⟩
  simp only [d]
  exact effect

end Sys2Proof.Machine

/-!
PROOF of O28 and O29, with what the sources of an instruction read after a release and a write of main memory.
-/

namespace Sys2Proof.Machine

open Sys2Proof Sys2Proof.Claims

/-! ### Sources are read alike after messages and writes of main memory -/

/-- A state after messages and a write of main memory. -/
def State.moved (s t : State) (m : Memory) : State := { s.sent t with mem := m }

section
variable {i : Instr} {info : Info} {f : Form} {s s1 : State} (t : State) (m : Memory)

theorem popOne_moved {n : Nat} (h : popOne i s n = .ok s1) : popOne i (s.moved t m) n = .ok (s1.moved t m) := by
  have entry : (s.moved t m).me.entry n = s.me.entry n := rfl
  have queues : (s.moved t m).me.lqueues = s.me.lqueues := rfl
  have core : (s.moved t m).me.core = s.me.core := rfl
  have culvert k : (s.moved t m).culvert k = s.culvert k := rfl
  unfold popOne at h ⊢
  simp only [entry, queues, core, culvert] at h ⊢
  split at h
  · next place =>
    split at h
    · nomatch h
    · next q e => cases h; simp only [place, if_true, e] <;> rfl
  · next place =>
    split at h
    · split at h <;> nomatch h
    · next q e =>
      split at h
      · nomatch h
      · next here => cases h; simp only [place, here, if_false, e, Bool.false_eq_true] <;> rfl

theorem popAll_moved {ns : List Nat} (h : popAll i s ns = .ok s1) : popAll i (s.moved t m) ns = .ok (s1.moved t m) := by
  induction ns generalizing s with
  | nil => cases h; rfl
  | cons n ns ih =>
    simp only [popAll] at h ⊢
    split at h
    · nomatch h
    · next u e => simp only [popOne_moved t m e, ih h]

theorem foldl_ok_of_ok {F G : Except Halt Unit → Nat → Except Halt Unit} (stuck : ∀ e n, F (.error e) n = .error e)
    (ns : List Nat) (step : ∀ n ∈ ns, F (.ok ()) n = .ok () → G (.ok ()) n = .ok ()) (h : ns.foldl F (.ok ()) = .ok ()) :
    ns.foldl G (.ok ()) = .ok () := by
  have failed : ∀ (ns : List Nat) e, ns.foldl F (.error e) = .error e := by
    intro ns e
    induction ns with
    | nil => rfl
    | cons n ns ih => rw [List.foldl_cons, stuck, ih]
  induction ns with
  | nil => rfl
  | cons n ns ih =>
    rw [List.foldl_cons] at h ⊢
    cases first : F (.ok ()) n with
    | error e => rw [first, failed] at h; nomatch h
    | ok x =>
      rw [first] at h
      rw [step n List.mem_cons_self first]
      exact ih (fun k hk => step k (List.mem_cons_of_mem _ hk)) h

theorem slotGate_moved (h : slotGate info s i f = .ok ()) : slotGate info (s.moved t m) i f = .ok () := by
  refine foldl_ok_of_ok (fun _ _ => rfl) _ (fun n _ hn => ?_) h
  have entry : (s.moved t m).me.entry n = s.me.entry n := rfl
  have gate k : (s.moved t m).gate (s.moved t m).me.team k 128 = s.gate s.me.team k 128 := rfl
  have bad k : (s.moved t m).slotBad (s.moved t m).me.team k = s.slotBad s.me.team k := rfl
  simp only [entry, gate, bad] at hn ⊢
  split at hn
  · next place =>
    rw [if_pos place]
    split at hn
    · next pass =>
      split at hn
      · nomatch hn
      · next sound => simp only [pass, if_neg sound]
    · nomatch hn
    · nomatch hn
  · next place => exact if_neg place

theorem readSources_moved {always : Bool} (h : readSources i info f always s = .ok s1) :
    readSources i info f always (s.moved t m) = .ok (s1.moved t m) := by
  have act : (s.moved t m).me.active f = s.me.active f := rfl
  have pops : popList info (s.moved t m).me f = popList info s.me f := rfl
  unfold readSources at h ⊢
  split at h
  · nomatch h
  · next gated =>
    simp only [slotGate_moved t m gated, act, pops]
    split at h
    · next none => rw [if_pos none]; cases h; rfl
    · next some => rw [if_neg some]; exact popAll_moved t m h

end

/-! ### Exact sums -/

theorem xsum_adds {f : Form} {s s1 : State} {info : Info} {la : Nat} {sc : Bool} (h : Clear (.xsum f) info f s)
    (lanes : (Spec.of f.d).isVector = true → s.me.active f ≠ 0) (sources : readSources (.xsum f) info f false s = .ok s1)
    (home : Reaches s (s.me.address f) 64 true la sc (sc && f.wide) f.sys) :
    ∃ s', Completes (.xsum f) s s' ∧ ∀ a, Memory.read s'.mem a = if la ≤ a ∧ a < la + 64 then
        BitVec.ofNat 8 (((sumData s f (f.type info.base)).foldl (Cell.contribute (f.type info.base == .f64)) (cellOf (stored s la 64))).num
          / 256 ^ (a - la)) else Memory.read s.mem a := by
  let u := s.release sc f.wide
  have mem : u.mem = s.mem := s.release_mem ..
  obtain ⟨m, applied, bytes⟩ := PlainRam.applyHome_xsum (w := u.who u.me (s.me.address f) 3) (PlainRam.release home.plain sc f.wide)
    (f.type info.base == .f64) (sumData s f (f.type info.base))
  have access := Reaches.homeAccess_eq (i := .xsum f) (rel := false)
    (op := .xsum (f.type info.base == .f64) (sumData s f (f.type info.base))) home (wide_of_sys f) false applied
  have moved : { u with mem := m } = s.moved u m := by rw [State.moved, ← s.release_sent]
  rw [moved] at access
  have some : ((Spec.of f.d).isVector && s.me.active f == 0) = false := by
    rw [Bool.and_eq_false_iff]
    exact (Bool.eq_false_or_eq_true _).symm.imp id fun v => beq_false_of_ne (lanes v)
  refine ⟨s1.moved u m, completes_of_run (exec_xsum f s) h ?_, fun a => ?_⟩
  · simp only [some, Bool.false_eq_true, if_false, globalCheck_ok home.aligned home.inSpace, access, sources, ranked,
      readSources_moved u m sources]
  · rw [← mem]
    exact (bytes a).trans (by rw [stored, mem, ← stored])

theorem xsum_noLane {f : Form} {s : State} {info : Info} (h : Clear (.xsum f) info f s) (vector : (Spec.of f.d).isVector = true)
    (none : s.me.active f = 0) : Completes (.xsum f) s s := by
  refine completes_of_run (exec_xsum f s) h ?_
  simp only [vector, none, beq_self_eq_true, Bool.and_self, if_true]

theorem readCell_rounds {i : Instr} {f : Form} {s : State} {info : Info} {la : Nat} {sc clear : Bool} (hx : exec i s = readCell i s clear)
    (h : Clear i info f s) (mode : ModeLegal s) (home : Reaches s (s.me.address f) 64 clear la sc (sc && f.wide) f.sys) {wide : Bool}
    {c : Cell} {v : FRes} (hw : wide = (f.type info.base == .f64)) (hc : c = cellOf (stored s la 64))
    (hv : v = (c.value wide).deliver (if wide then fmtF64 else fmtF32) s.me.mode false) :
    ∃ s' : State, Completes i s ((s'.raise v.flags).setScalar f.d (BitVec.ofNat 64 v.bits)) ∧ s'.me.ff = s.me.ff ∧
      ∀ a, Memory.read s'.mem a = if clear = true ∧ la ≤ a ∧ a < la + 64 then BitVec.ofNat 8 ((c.cleared wide).num / 256 ^ (a - la))
        else Memory.read s.mem a := by
  let u := s.release sc f.wide
  have mem : u.mem = s.mem := s.release_mem ..
  obtain ⟨m, applied, bytes⟩ := PlainRam.applyHome_xrd (w := u.who u.me (s.me.address f) 3) (PlainRam.release home.plain sc f.wide)
    wide clear
  rw [mem, stored, mem, ← stored, ← hc] at bytes
  have access := Reaches.homeAccess_eq (i := i) (rel := false) (op := .xrd wide clear) home (wide_of_sys f) false applied
  have arith : (s.release sc f.wide).me.mode = s.me.mode := State.release_me (p := Group.mode) (fun _ _ _ => rfl) s _ _
  have legal : (arithMode s.me.fm).isNone = false := ModeLegal.not_isNone mode
  have cell : cellOf (numOf (Memory.readN (s.release sc f.wide).mem la 64)) = c := by rw [s.release_mem, hc, stored]
  refine ⟨{ u with mem := m }, ?_, State.release_me (p := Group.ff) (fun _ _ _ => rfl) s _ _, bytes⟩
  refine hx.trans (runIf_ok h legal ?_)
  simp only [globalCheck_ok home.aligned home.inSpace, cellBytes, home.fresh.2, ← hw, access, Bool.false_or, cell, arith, ← hv]
  rfl

/-- Settles O29. -/
theorem exactSums : Obligations.ExactSums := by
  refine ⟨fun f s s1 info la sc => xsum_adds, fun f s info => xsum_noLane, ?_⟩
  have shared : ∀ r ∈ [(Instr.xrd, false), (.xrdClr, true)], ∀ f s, exec (r.1 f) s = readCell (r.1 f) s r.2 := by
    simp [execXrd, execXrdClr]
  intro r hr f s info la sc h mode home
  exact readCell_rounds (shared r hr f s) h mode home rfl rfl rfl

/-! ### The vector atomics -/

section
variable {i : Instr} {info : Info} {f : Form} {s s1 : State}

theorem lanesOk_ok {g : Group} {lanes : List (Nat × Word)} (h : ∀ p ∈ lanes, p.2.toNat % 4 = 0 ∧ p.2.toNat < 2 ^ 52) :
    lanesOk i g lanes = .ok () := by
  induction lanes with
  | nil => rfl
  | cons p lanes ih =>
    obtain ⟨aligned, inside⟩ := h p List.mem_cons_self
    simp only [lanesOk, globalCheck_ok aligned inside]
    exact ih fun q hq => h q (List.mem_cons_of_mem _ hq)

/-- The granules homed elsewhere go first, and the buffer is drained for them where there is one (log 46). -/
theorem drained_away (u : State) (ks : List Granule) : (if ks.any fun k => k.home.away then u.drainWc u.meId else u)
    = if (ks.filter fun k => k.home.away) = [] then u else u.drainWc u.meId := by
  by_cases none : (ks.filter fun k => k.home.away) = []
  · have any : (ks.any fun k => k.home.away) = false := by
      rw [List.any_eq_false]
      exact List.filter_eq_nil_iff.1 none
    rw [any, if_pos none]
    rfl
  · have any : (ks.any fun k => k.home.away) = true := by
      by_contra no
      exact none (List.filter_eq_nil_iff.2 (List.any_eq_false.1 (Bool.eq_false_of_not_eq_true no)))
    rw [any, if_neg none]
    rfl

theorem vectorAtom_noLane (none : s.me.active f = 0) (loads : s.me.returned (f.releases && f.wide) = .ok ())
    (acked : (s.release f.releases f.wide).acknowledged f.releases f.sys = .ok ())
    (write : writeReg i (s.release f.releases f.wide) (Spec.of f.d) (laneWrite 0 fun _ => 0) false = .ok s1) :
    vectorAtom i info f s = .ok { s1 with me := { s1.me with lr := s.me.lr } } := by
  simp only [vectorAtom, none, if_true, loads, acked, write]
  rfl

theorem vectorAtom_lanes {t : Ty} {hs : List (Nat × Word × Home)} {sc : Bool} {x sr s2 s3 s4 : State} {out : List Granule}
    {got olds : Map Nat} {op : Granule → HomeOp} (act : s.me.active f ≠ 0) (ht : t = f.type info.base)
    (hop : op = fun k => .atoms info.fn t (k.lanes.map fun l =>
      (l.2, BitVec.ofNat 64 ((s.source f.cSpec t).lane l.1), BitVec.ofNat 64 ((s.source f.d t).lane l.1))))
    (legal : ∀ p ∈ atomLanes s f, p.2.toNat % 4 = 0 ∧ p.2.toNat < 2 ^ 52) (sources : readSources i info f false s = .ok s)
    (ready : writeReg i s (Spec.of f.d) (laneWrite (s.me.active f) fun _ => 0) false = .ok x)
    (homes : lanesHomes i t s (atomLanes s f) = .ok (hs, sc, s1)) (loads : s1.me.returned ((f.releases || sc) && f.wide) = .ok ())
    (hr : sr = s1.release (f.releases || sc) f.wide) (acked : sr.acknowledged (f.releases || sc) f.sys = .ok ())
    (hout : out = (granulesOf hs).filter fun k => k.home.away)
    (away : awayGranules i op (if out = [] then sr else sr.drainWc sr.meId) out = .ok (got, s2))
    (near : nearGranules i op s2 got ((granulesOf hs).filter fun k => !k.home.away) = .ok (olds, s3))
    (sources3 : readSources i info f false s3 = .ok s3)
    (write : writeReg i s3 (Spec.of f.d) (laneWrite (s.me.active f) fun l => olds.get l 0) false = .ok s4) :
    vectorAtom i info f s = .ok { s4 with me := { s4.me with lr := s.me.lr } } := by
  subst ht hr hout
  simp only [vectorAtom, act, if_false, lanesOk_ok legal, sources, ready, homes, ranked, loads, acked, drained_away, ← hop, away, near,
    sources3, write]
  rfl

theorem exec_atom {mk : Form → Instr} (hmk : mk ∈ atomics) (f : Form) (s : State) : exec (mk f) s = atomOp (mk f) s := by
  have shared : ∀ mk ∈ atomics, ∀ f s, exec (mk f) s = atomOp (mk f) s := by
    simp [atomics, execAtomAdd, execAtomMin, execAtomMax, execAtomAnd, execAtomOr, execAtomXor, execAtomExch, execAtomCas]
  exact shared mk hmk f s

theorem atom_vector {mk : Form → Instr} (hmk : mk ∈ atomics) (h : Clear (mk f) info f s) (hd : ∀ n, Spec.of f.d ≠ .sca n)
    (e : vectorAtom (mk f) info f s = .ok s1) : Completes (mk f) s s1 := by
  refine completes_of_run (exec_atom hmk f s) h ?_
  split
  · next n place => exact absurd place (hd n)
  · exact e

end

/-- Settles O28: with an active lane the steps of the vector form follow one another as the statement names them; without one it
writes no lane. -/
theorem vectorAtomic : Obligations.VectorAtomic := by
  refine ⟨?_, ?_⟩
  · intro mk hmk f s s1 s2 s3 s4 info hs sc got olds h hd act sources t legal homes ready op loads sr acked out away near sources3 write
    obtain ⟨x, ready⟩ := ready
    exact atom_vector hmk h hd
      (vectorAtom_lanes act rfl rfl legal sources ready homes loads rfl acked rfl away near sources3 write)
  · intro mk hmk f s s1 info h hd none loads acked write
    exact atom_vector hmk h hd (vectorAtom_noLane none loads acked write)

end Sys2Proof.Machine

/-!
PROOF of O50, event by event.
-/

namespace Sys2Proof.Machine

open Sys2Proof Sys2Proof.Claims

section
variable {s : State} {p b : Nat}

@[simp] theorem State.modBank_bank (f : Bank → Bank) : (s.modBank p b f).bank p b = f (s.bank p b) := by
  simp [State.modBank, State.bank]

@[simp] theorem State.modBus_bus (f : Bus → Bus) : (s.modBus p b f).bus p b = f (s.bus p b) := by
  simp [State.modBus, State.bus]

@[simp] theorem State.logTransfer_bus (n outcome : Nat) (e : Beat) (w : Who) : (s.logTransfer p n outcome e w).bus p b = s.bus p b := by
  unfold State.logTransfer
  split <;> simp [State.bus, State.notify, State.addReport]

@[simp] theorem State.logTransfer_free (n outcome : Nat) (e : Beat) (w : Who) : (s.logTransfer p n outcome e w).free = s.free := by
  unfold State.logTransfer
  split <;> rfl

theorem State.damageColumn_time (la n : Nat) : (s.damageColumn la n).time = s.time := by
  unfold State.damageColumn
  split <;> rfl

/-! ### Refresh and alerts (26/R383) -/

theorem bankRefresh_due (due : (s.bank p b).due + 4290 ≤ s.time) :
    exec (.bankRefresh p b) s = .next (({ s with free := s.free + 1 } : State).modBank p b fun k =>
      if k.postponed < 8 ∧ (Config.freeWord s.free 0).getLsbD 0 = true then { k with due := s.time, postponed := k.postponed + 1 }
      else { k with due := s.time, busy := max k.busy s.time + 209 }) := by
  have now : ¬ s.time < (s.bank p b).due + refreshPeriod := Nat.not_lt.2 due
  have same : ({ s with free := s.free + 1 } : State).bank p b = s.bank p b := rfl
  simp only [exec_bankRefresh, execBankRefresh, now, if_false, State.modBank, same]
  by_cases later : (s.bank p b).postponed < 8 ∧ (Config.freeWord s.free 0).getLsbD 0 = true
  · simp [later]
  · have carried : (decide ((s.bank p b).postponed < 8) && (Config.freeWord s.free 0).getLsbD 0) = false := by
      simpa using later
    simp only [later, carried, if_false, Bool.false_eq_true]
    rfl

theorem activationAlert_blocks : ∃ t, exec (.activationAlert p b) s = .next t ∧ s.time < (t.bank p b).busy
    ∧ (s.bank p b).busy ≤ (t.bank p b).busy ∧ (t.bank p b).postponed ≤ (s.bank p b).postponed ∧ t.mem = s.mem := by
  refine ⟨_, rfl, ?_⟩
  rw [State.modBank_bank]
  unfold refreshCycles alertCycles
  split
  · next h =>
    obtain ⟨_, busy⟩ := Bool.and_eq_true_iff.1 h
    have busy := of_decide_eq_true busy
    exact ⟨Nat.lt_add_right _ busy, Nat.le_add_right _ _, Nat.le_refl _, rfl⟩
  · split
    · exact ⟨by dsimp only; omega, by dsimp only; omega, Nat.zero_le _, rfl⟩
    · exact ⟨by dsimp only; omega, by dsimp only; omega, Nat.le_refl _, rfl⟩

/-! ### Scrubs (26/R387, R388) -/

theorem patrolScrub_reads {la syms n : Nat} {s1 : State} (home : s.bankAt la = some (p, b)) (idle : s.bankBusy la = false)
    (h1 : s1 = (s.damageColumn la syms).modPart p fun x => if (p + 1) * 2 ^ 34 - 64 ≤ la
      then { x with patrolAt := s.time, patrolCol := 0 } else { x with patrolCol := max x.patrolCol (la / 64 + 1) })
    (beats : ∀ w, s1.meetBeat la w = none) (damage : s1.damaged.get? (la / 64) = some n) :
    exec (.patrolScrub p la syms) s = .next (if n ≤ 3 then s1.correct p b (la / 64) n { va := 0, source := 5 }
      else s1.logArray p (64 * (la / 64)) 3 b n { va := 0, source := 5 }) := by
  have patrol : (s.damageColumn la syms).patrolled p la = s1 := by
    rw [h1, State.patrolled, State.damageColumn_time]
    rfl
  simp only [exec_patrolScrub, execPatrolScrub, home, idle, ne_eq, not_true_eq_false, decide_false, Bool.or_self, Bool.false_eq_true,
    if_false, patrol, beats, damage]

/-! ### Beats (26/R389) -/

variable {bus t : Nat} {e : Beat} {who : Option Report}

/-- The bus as an event on one of its beats finds it does not depend on the count of free values. -/
theorem State.bus_free (n : Nat) : ({ s with free := n } : State).bus p bus = s.bus p bus := rfl

theorem retryBeat_succeeds (good : (Config.freeWord s.free 0).getLsbD 0 = true) :
    ((s.retryBeat p bus e who).bus p bus) = { s.bus p bus with resend := none, last := some s.time }
      ∧ (s.retryBeat p bus e who).mem = s.mem ∧ (s.retryBeat p bus e who).free = s.free + 1 := by
  simp only [State.retryBeat, good, if_true, State.modBus_bus]
  split
  · exact ⟨rfl, rfl, rfl⟩
  · exact ⟨by rw [State.logTransfer_bus, State.bus_free], State.logTransfer_mem .., State.logTransfer_free ..⟩

theorem retryBeat_again (bad : (Config.freeWord s.free 0).getLsbD 0 = false) (more : e.retries + 1 < 3) :
    s.retryBeat p bus e who = ({ s with free := s.free + 1 } : State).modBus p bus fun b =>
      { b with resend := some (s.time + 2, { e with retries := e.retries + 1 }, who) } := by
  simp only [State.retryBeat, bad, more, Bool.false_eq_true, if_false, if_true]

theorem retryBeat_stops (bad : (Config.freeWord s.free 0).getLsbD 0 = false) (last : 3 ≤ e.retries + 1) :
    s.retryBeat p bus e who = ({ s with free := s.free + 1 } : State).modBus p bus fun b =>
      { b with resend := none, testing := some (s.time, { e with retries := e.retries + 1 }, who) } := by
  simp only [State.retryBeat, bad, Nat.not_lt.2 last, Bool.false_eq_true, if_false]

theorem beatParityFail_retries (test : (s.bus p bus).testing = none) (again : (s.bus p bus).resend = some (t, e, who)) (grp la : Nat) :
    exec (.beatParityFail p bus grp la) s = .next (if t ≤ s.time then s.retryBeat p bus e who else s) := by
  simp only [exec_beatParityFail, execBeatParityFail, test, again, Option.isSome_none, Bool.false_eq_true, if_false]

theorem beatParityFail_outcomes (test : (s.bus p bus).testing = none) (again : (s.bus p bus).resend = some (t, e, who)) (grp la : Nat)
    (due : t ≤ s.time) {e1 : Beat} (h1 : e1 = { e with retries := e.retries + 1 }) :
    ∃ r, exec (.beatParityFail p bus grp la) s = .next r ∧ r.mem = s.mem ∧ r.free = s.free + 1
      ∧ (r.bus p bus).failed = (s.bus p bus).failed
      ∧ ((Config.freeWord s.free 0).getLsbD 0 = true →
        (r.bus p bus).resend = none ∧ (r.bus p bus).testing = none ∧ (r.bus p bus).last = some s.time)
      ∧ ((Config.freeWord s.free 0).getLsbD 0 = false → e.retries + 1 < 3 →
        (r.bus p bus).resend = some (s.time + 2, e1, who) ∧ (r.bus p bus).testing = none)
      ∧ ((Config.freeWord s.free 0).getLsbD 0 = false → 3 ≤ e.retries + 1 →
        (r.bus p bus).resend = none ∧ (r.bus p bus).testing = some (s.time, e1, who)) := by
  refine ⟨s.retryBeat p bus e who, (beatParityFail_retries test again grp la).trans (by rw [if_pos due]), ?_⟩
  subst h1
  cases good : (Config.freeWord s.free 0).getLsbD 0 with
  | true =>
    obtain ⟨after, mem, free⟩ := retryBeat_succeeds (p := p) (bus := bus) (e := e) (who := who) good
    rw [after]
    exact ⟨mem, free, rfl, fun _ => ⟨rfl, test, rfl⟩, nofun, nofun⟩
  | false =>
    by_cases more : e.retries + 1 < 3
    · rw [retryBeat_again good more, State.modBus_bus]
      exact ⟨rfl, rfl, rfl, nofun, fun _ _ => ⟨rfl, test⟩, fun _ last => absurd more (Nat.not_lt.2 last)⟩
    · rw [retryBeat_stops good (Nat.not_lt.1 more), State.modBus_bus]
      exact ⟨rfl, rfl, rfl, nofun, fun _ few => absurd few more, fun _ _ => ⟨rfl, rfl⟩⟩

/-! ### A bus tests its lines (26/R389) -/

section
variable {line : Option Nat} {again : Bool} (testing : (s.bus p bus).testing = some (t, e, who)) (due : t + 2200 ≤ s.time)
include testing due

theorem busLineTest_fails (none : (line.filter fun n => n / 32 = e.group && 0 < (s.bus p bus).spares) = none) :
    exec (.busLineTest p bus line again) s
      = .next (s.modBus p bus fun b => { b with testing := .none, failed := b.failed ++ [e] }) := by
  have now : ¬ s.time < t + 2 * usCycles := Nat.not_lt.2 due
  simp only [exec_busLineTest, execBusLineTest, testing, now, if_false, none]

theorem busLineTest_swaps {n : Nat} (some : (line.filter fun n => n / 32 = e.group && 0 < (s.bus p bus).spares) = some n) :
    ∃ r, exec (.busLineTest p bus line again) s = .next r ∧ r.mem = s.mem ∧ r.bus p bus = { s.bus p bus with
      testing := none, spares := (s.bus p bus).spares - 1
      failed := (s.bus p bus).failed ++ if again then [{ e with line := n, spare := 8 - (s.bus p bus).spares }] else [] } := by
  have now : ¬ s.time < t + 2 * usCycles := Nat.not_lt.2 due
  refine ⟨_, by rw [exec_busLineTest]; rfl, ?_⟩
  simp only [testing, now, if_false, some]
  cases again with
  | true => exact ⟨rfl, by simp⟩
  | false =>
    simp only [Bool.false_eq_true, if_false]
    exact ⟨State.logTransfer_mem .., by simp⟩

theorem busLineTest_outcomes : ∃ r, exec (.busLineTest p bus line again) s = .next r ∧ (r.bus p bus).testing = none ∧ r.mem = s.mem
      ∧ ((line = none ∨ (s.bus p bus).spares = 0) → (r.bus p bus).failed = (s.bus p bus).failed ++ [e])
      ∧ (∀ n, line = some n → n / 32 ≠ e.group → (r.bus p bus).failed = (s.bus p bus).failed ++ [e])
      ∧ (∀ n, line = some n → n / 32 = e.group → 0 < (s.bus p bus).spares → (r.bus p bus).spares = (s.bus p bus).spares - 1
        ∧ (again = false → (r.bus p bus).failed = (s.bus p bus).failed)
        ∧ (again = true → (r.bus p bus).failed =
          (s.bus p bus).failed ++ [{ e with line := n, spare := 8 - (s.bus p bus).spares }])) := by
  cases found : line.filter fun n => n / 32 = e.group && 0 < (s.bus p bus).spares with
  | none =>
    refine ⟨_, busLineTest_fails testing due found, by rw [State.modBus_bus], rfl, fun _ => by rw [State.modBus_bus],
      fun n _ _ => by rw [State.modBus_bus], fun n hn group spare => ?_⟩
    rw [hn] at found
    simp [group, spare] at found
  | some n =>
    obtain ⟨named, fits⟩ := Option.filter_eq_some_iff.1 found
    obtain ⟨group, spare⟩ := Bool.and_eq_true_iff.1 fits
    obtain ⟨r, runs, mem, bus⟩ := busLineTest_swaps (again := again) testing due found
    have spare := of_decide_eq_true spare
    refine ⟨r, runs, by rw [bus], mem, fun none => ?_, fun m hm other => ?_, fun m hm _ _ => ?_⟩
    · rcases none with none | none
      · exact nomatch named.symm.trans none
      · omega
    · cases named.symm.trans hm
      exact absurd (of_decide_eq_true group) other
    · cases named.symm.trans hm
      rw [bus]
      refine ⟨rfl, ?_, ?_⟩
      · rintro rfl
        exact List.append_nil _
      · rintro rfl
        rfl

end

/-! ### Exchanges and remaps (26/R384-R386) -/

theorem pageExchange_step {x : Exchange} (h : (s.part p).exch = some x) (va la : Nat) :
    exec (.pageExchange p va la) s = .next (if s.exchWaits p x then s
      else if x.size ≤ 64 * x.done then s.endExchange p x
      else (s.moveGranule x).modPart p fun y => { y with exch := some { x with done := x.done + 1 } }) := by
  simp only [exec_pageExchange, execPageExchange, h]

theorem State.reconfigured_part (s : State) (p : Nat) : (s.reconfigured p).part p = s.part p := rfl

theorem remap_takes (s : State) (p : Nat) (map : Word) : ((s.remap p map).part p).bankmap = map ∧ ((s.remap p map).part p).remapTo = none := by
  simp [State.remap, State.notify, State.addReport, State.reconfigured_part]

theorem remapStep_runs {map : Word} (enough : 64 - (s.part p).rsv ≤ onBits map) :
    exec (.remapStep p map) s = .next (if s.drained p then s.remap p map else s.modPart p fun x => { x with remapTo := some map }) := by
  simp only [exec_remapStep, execRemapStep, Nat.not_lt.2 enough, if_false]

end

/-- Settles O50. -/
theorem memoryHardware : Obligations.MemoryHardware := by
  refine ⟨fun p b s => bankRefresh_due, ?_, ?_, fun p b s => activationAlert_blocks,
    fun p la syms b n s home idle => patrolScrub_reads home idle rfl, fun c off bits s => rfl, ?_, ?_,
    fun p bus t e who line again s testing due => busLineTest_outcomes testing due, ?_, ?_, ?_⟩
  · intro p b s over_
    simp only [exec_refreshComplete, execRefreshComplete, over_, if_true]
  · intro p b s over_ some
    simp only [exec_postponedRefresh, execPostponedRefresh, over_, some, decide_true, Bool.and_self, if_true]
    rfl
  · intro p bus grp la s test none
    simp only [exec_beatParityFail, execBeatParityFail, test, none, Option.isSome_none, Bool.false_eq_true, if_false]
  · intro p bus grp la t e who s test again e1
    exact ⟨fun early => (beatParityFail_retries test again grp la).trans (by rw [if_neg (Nat.not_le.2 early)]),
      fun due => beatParityFail_outcomes test again grp la due rfl⟩
  · intro p va la s none
    simp only [exec_pageExchange, execPageExchange, none]
  · intro p va la s e h
    refine ⟨fun waits => ?_, fun goes last => ?_, fun goes more => ?_⟩ <;> rw [pageExchange_step h]
    · rw [if_pos waits]
    · rw [goes, if_neg Bool.false_ne_true, if_pos last]
    · rw [goes, if_neg Bool.false_ne_true, if_neg (Nat.not_le.2 more)]
  · intro p map s enough
    refine ⟨fun still => ⟨_, (remapStep_runs enough).trans (by rw [if_pos still]), remap_takes s p map⟩, fun busy => ?_⟩
    rw [remapStep_runs enough, busy, if_neg Bool.false_ne_true]

end Sys2Proof.Machine

/-!
What a walk of a partition's tree reads of the partitions' registers, for O51: none of those that START sets (28/R409).
-/

namespace Sys2Proof.Machine

open Sys2Proof Sys2Proof.Claims

theorem Map.get?_update {α : Type} (m : Map α) (f : Nat → α → α) (k : Nat) : Map.get? (m.update f) k = (Map.get? m k).map (f k) := by
  induction m with
  | nil => rfl
  | cons p m ih =>
    rw [Map.update] at ih ⊢
    rw [List.map_cons, Map.get?, Map.get?, ih]
    split
    · next e => rw [e]; rfl
    · rfl

theorem Map.update_set {α : Type} (m : Map α) (f : Nat → α → α) (k : Nat) (v : α) : (m.set k v).update f = (m.update f).set k (f k v) := by
  induction m with
  | nil => rfl
  | cons p m ih =>
    rw [Map.update] at ih ⊢
    rw [Map.update, List.map_cons, Map.set, Map.set]
    split
    · rfl
    · split
      · rfl
      · rw [List.map_cons, ih, Map.update]

theorem Map.set_set {α : Type} (m : Map α) (k : Nat) (v w : α) : (m.set k v).set k w = m.set k w := by
  induction m with
  | nil => simp [Map.set]
  | cons p m ih =>
    rw [Map.set]
    split
    · next e => simp [Map.set, e]
    · next other =>
      split
      · next less => simp [Map.set, other, less]
      · next greater => simp only [Map.set, other, greater, if_false, ih]

/-! ### A state without the registers that START sets -/

/-- A bank without the slots kept for registers. -/
def Bank.unstarted (k : Bank) : Bank := { k with slots := [] }

/-- A partition with the registers that START sets as they are at reset. -/
def Partition.unstarted (x : Partition) : Partition :=
  { x with state := 0, service := 0, cap := 7, begun := false, remaps := 0, cpages := [], banks := x.banks.update fun _ k => k.unstarted }

def State.unstarted (s : State) : State := { s with parts := s.parts.update fun _ x => x.unstarted }

section
variable (s : State) (p b la : Nat) (w : Who)

theorem State.unstarted_part : s.unstarted.part p = (s.part p).unstarted := by
  change ((s.parts.update fun _ x => x.unstarted).get? p).getD {} = ((s.parts.get? p).getD {}).unstarted
  rw [Map.get?_update]
  cases s.parts.get? p <;> rfl

theorem State.unstarted_bank : s.unstarted.bank p b = (s.bank p b).unstarted := by
  rw [State.bank, State.unstarted_part]
  change (((s.part p).banks.update fun _ k => k.unstarted).get? b).getD (Machine.idleBank s.time) = (((s.part p).banks.get? b).getD (Machine.idleBank s.time)).unstarted
  rw [Map.get?_update]
  cases (s.part p).banks.get? b <;> rfl

variable {s p}

theorem State.unstarted_modPart {f g : Partition → Partition} (h : (f (s.part p)).unstarted = g (s.part p).unstarted) :
    (s.modPart p f).unstarted = s.unstarted.modPart p g := by
  have set : ((s.parts.set p (f (s.part p))).update fun _ x => x.unstarted)
      = (s.parts.update fun _ x => x.unstarted).set p (g (s.part p).unstarted) := by
    rw [Map.update_set, h]
  rw [State.modPart, State.modPart, State.unstarted_part, State.unstarted, set]
  rfl

/-- A change of other registers of a partition. -/
theorem State.unstarted_modPart_self {f : Partition → Partition} (h : ∀ x, (f x).unstarted = f x.unstarted) :
    (s.modPart p f).unstarted = s.unstarted.modPart p f := State.unstarted_modPart (h _)

variable (s p)

theorem State.unstarted_notify (kind : Nat) (v : Word) (r : Report) : (s.notify p kind v r).unstarted = s.unstarted.notify p kind v r := by
  rw [State.notify, State.addReport, State.unstarted_modPart_self]
  · rfl
  · exact fun _ => rfl

theorem State.unstarted_logArray (kind bank syms : Nat) :
    (s.logArray p la kind bank syms w).unstarted = s.unstarted.logArray p la kind bank syms w := by
  unfold State.logArray
  rw [State.unstarted_part]
  dsimp only
  split
  · rw [State.unstarted_notify, State.unstarted_modPart_self]
    · rfl
    · exact fun _ => rfl
  · rw [State.unstarted_modPart_self]
    · rfl
    · exact fun _ => rfl

theorem State.unstarted_logTransfer (bus outcome : Nat) (e : Beat) :
    (s.logTransfer p bus outcome e w).unstarted = s.unstarted.logTransfer p bus outcome e w := by
  unfold State.logTransfer
  rw [State.unstarted_part]
  dsimp only
  split
  · rw [State.unstarted_modPart_self]
    · rfl
    · exact fun _ => rfl
  · rw [State.unstarted_notify, State.unstarted_modPart_self]
    · rfl
    · exact fun _ => rfl

theorem State.unstarted_correct (col syms : Nat) : (s.correct p b col syms w).unstarted = s.unstarted.correct p b col syms w := by
  have banks : (({ s with damaged := s.damaged.erase col } : State).modPart p fun x => { x with
      banks := x.banks.set b { s.bank p b with corrected := (s.bank p b).corrected + 1, lastCorr := some s.time } }).unstarted
      = ({ s.unstarted with damaged := s.damaged.erase col } : State).modPart p fun x => { x with
          banks := x.banks.set b { (s.bank p b).unstarted with corrected := (s.bank p b).corrected + 1, lastCorr := some s.time } } :=
    State.unstarted_modPart (s := { s with damaged := s.damaged.erase col }) (by
      simp only [Partition.unstarted, Map.update_set]
      rfl)
  unfold State.correct
  rw [State.unstarted_bank]
  dsimp only
  rw [apply_ite State.unstarted, State.unstarted_logArray, banks]
  rfl

theorem State.unstarted_laKind : s.unstarted.laKind la = s.laKind la := by
  simp only [State.laKind, State.unstarted_part]
  rfl

theorem State.unstarted_bankAt : s.unstarted.bankAt la = s.bankAt la := by
  unfold State.bankAt
  rw [State.unstarted_laKind]

theorem State.unstarted_modPart_buses (q : Nat) (m : Map Bus) :
    (s.modPart q fun x => { x with buses := m }).unstarted = s.unstarted.modPart q fun x => { x with buses := m } :=
  State.unstarted_modPart_self fun _ => rfl

theorem State.unstarted_meetBeat : s.unstarted.meetBeat la w = (s.meetBeat la w).map State.unstarted := by
  unfold State.meetBeat
  rw [State.unstarted_bankAt]
  cases (if w.source = 2 then none else s.bankAt la) with
  | none => rfl
  | some x =>
    have buses : (s.unstarted.part x.1).buses = (s.part x.1).buses := by rw [State.unstarted_part]; rfl
    simp only [buses]
    cases ((s.part x.1).buses.get (x.2 / 16) {}).failed.find? fun e => e.col == la / 64 with
    | none => rfl
    | some e =>
      dsimp only [Option.map_some]
      rw [State.unstarted_modPart_self, State.unstarted_logTransfer]
      exact fun _ => rfl

theorem State.unstarted_readColumn : s.unstarted.readColumn la w = Prod.map id State.unstarted (s.readColumn la w) := by
  unfold State.readColumn
  rw [State.unstarted_meetBeat, State.unstarted_bankAt]
  cases s.meetBeat la w with
  | some t => rfl
  | none =>
    change (match s.damaged.get? (la / 64), s.bankAt la with | some syms, some (p, b) => _ | _, _ => _) = _
    dsimp only
    cases s.damaged.get? (la / 64) with
    | none => rfl
    | some n =>
      cases s.bankAt la with
      | none => rfl
      | some x =>
        dsimp only
        split
        · rw [← State.unstarted_correct]; rfl
        · rw [← State.unstarted_logArray]; rfl

theorem State.unstarted_meetColumns (cs : List Nat) : State.meetColumns w cs s.unstarted = Prod.map id State.unstarted (State.meetColumns w cs s) := by
  induction cs generalizing s with
  | nil => rfl
  | cons c cs ih =>
    rw [State.meetColumns, State.meetColumns, State.unstarted_readColumn]
    cases s.readColumn (64 * c) w with
    | mk found t => cases found <;> [rfl; exact ih t]

theorem State.unstarted_located : s.unstarted.located la = s.located la := by
  simp only [State.located, State.unstarted_part]
  rfl

theorem State.unstarted_codeOf : s.unstarted.codeOf la = s.codeOf la := by
  rw [State.codeOf, State.unstarted_located]
  rfl

theorem State.unstarted_columnOf : s.unstarted.columnOf la = s.columnOf la := by
  rw [State.columnOf, State.unstarted_located, State.unstarted_codeOf]
  rfl

theorem State.unstarted_bankBusy : s.unstarted.bankBusy la = s.bankBusy la := by
  simp only [State.bankBusy, State.bankBlocked, State.unstarted_located, State.unstarted_bankAt, State.unstarted_bank, State.unstarted_part]
  rfl

end

/-- What a read finds, in a state changed by f. -/
def readIn (f : State → State) : Except (Nat × State) (List Byte × State) → Except (Nat × State) (List Byte × State)
  | .ok (bs, s) => .ok (bs, f s)
  | .error (o, s) => .error (o, f s)

section
variable (s : State) (p la va : Nat) (w : Who)

theorem State.unstarted_readOffs (offs : List Nat) : s.unstarted.readOffs la w offs = readIn State.unstarted (s.readOffs la w offs) := by
  have columns as : s.unstarted.columnsOf as = s.columnsOf as := by
    simp only [State.columnsOf, State.unstarted_codeOf]
    congr 2
    exact funext fun a => s.unstarted_columnOf a
  unfold State.readOffs
  rw [columns, State.unstarted_meetColumns]
  cases State.meetColumns w (s.columnsOf (offs.map (la + ·))) s with
  | mk bad t =>
    cases bad with
    | none => simp only [Prod.map, id, State.unstarted_located, readIn]; rfl
    | some c => simp only [Prod.map, id, State.unstarted_columnOf, readIn]

theorem State.unstarted_refuse : (s.refuse la).unstarted = s.unstarted.refuse la := by
  unfold State.refuse
  rw [State.unstarted_bankAt]
  cases s.bankAt la with
  | none => rfl
  | some x => exact State.unstarted_logArray ..

theorem State.unstarted_entryAt : s.unstarted.entryAt p la w = Prod.map id State.unstarted (s.entryAt p la w) := by
  have reach : s.unstarted.reaches p la 8 = s.reaches p la 8 := rfl
  unfold State.entryAt
  rw [reach, State.unstarted_readOffs]
  split
  · rw [← State.unstarted_refuse]; rfl
  · cases s.readOffs la { w with source := 7 } (List.range 8) <;> rfl

theorem State.unstarted_walkFrom (table : Nat) (ls : List (Nat × Nat)) :
    State.walkFrom p va w table s.unstarted ls = Prod.map id State.unstarted (State.walkFrom p va w table s ls) := by
  induction ls generalizing s table with
  | nil => rfl
  | cons l ls ih =>
    have reach a : s.unstarted.reaches p a 8 = s.reaches p a 8 := rfl
    rw [State.walkFrom, State.walkFrom]
    simp only [reach, State.unstarted_bankBusy, State.unstarted_entryAt]
    split
    · rfl
    · cases s.entryAt p (table + 8 * (va / 2 ^ l.1 % 2 ^ l.2)) w with
      | mk found t =>
        cases found with
        | none => rfl
        | some e =>
          dsimp only [Prod.map, id]
          split
          · rfl
          · split
            · cases ls with
              | nil => rfl
              | cons m ls =>
                dsimp only
                split
                · rfl
                · exact ih _ _
            · split <;> rfl

/-- A walk finds the same whatever START has set. -/
theorem State.unstarted_treeWalk : (s.unstarted.treeWalk p va w).1 = (s.treeWalk p va w).1 := by
  have root : (s.unstarted.part p).root = (s.part p).root := by rw [State.unstarted_part]; rfl
  rw [State.treeWalk, root, State.unstarted_walkFrom]
  rfl

/-- START's checks of its addresses do not depend on what it has set before. -/
theorem State.unstarted_startBusy : s.unstarted.startBusy p = s.startBusy p := by
  simp only [State.startBusy, State.unstarted_treeWalk, State.unstarted_part]
  rfl

theorem State.unstarted_startAddress : s.unstarted.startAddress p = s.startAddress p := by
  simp only [State.startAddress, State.startMapped, State.unstarted_treeWalk, State.unstarted_part, State.unstarted_bankAt]
  rfl

/-- A change of those registers of a partition that has been listed leaves nothing for a walk to find. -/
theorem State.unstarted_modPart_started {m : Map Partition} {x : Partition} {f : Partition → Partition} (listed : s.parts = m.set p x)
    (h : (f x).unstarted = x.unstarted) : (s.modPart p f).unstarted = s.unstarted := by
  have here : s.part p = x := by rw [State.part, listed, Map.get_set_same]
  rw [State.modPart, here, listed, Map.set_set]
  simp only [State.unstarted, Map.update_set, h, listed]

end

end Sys2Proof.Machine

/-!
PROOF of O51, clause by clause: the host's requests, the fields of its pages, and the end and the start of a partition's work.
-/

namespace Sys2Proof.Machine

open Sys2Proof Sys2Proof.Claims

/-! ### Requests of a link (18/R302) -/

section
variable {s : State} {k p q : Nat} {r r' : HostReq}

/-- A state whose link has no request that waits. -/
def State.linkFree (s : State) (k : Nat) : State := { s with hostQs := s.hostQs.erase k }

theorem hostDrain_waits {rs rest : List (Nat × HostReq)} (queue : s.hostQs.get k [] ++ rs = (p, r) :: rest) (waits : s.hostWaits p r = true) :
    s.hostDrain k rs = { s with hostQs := (s.hostQs.erase k).set k ((p, r) :: rest) } := by
  have still : (s.linkFree k).hostWaits p r = true := waits
  rw [State.hostDrain, queue, State.hostRun, ← State.linkFree, if_pos still]
  rfl

theorem hostDrain_applies {rs : List (Nat × HostReq)} (queue : s.hostQs.get k [] ++ rs = [(p, r)]) (goes : s.hostWaits p r = false) :
    s.hostDrain k rs = (s.linkFree k).hostApply p r := by
  have still : (s.linkFree k).hostWaits p r = false := goes
  rw [State.hostDrain, queue, State.hostRun, ← State.linkFree, still]
  rfl

theorem hostSend_waits (empty : s.hostQs.get (p / 24) [] = []) (waits : s.hostWaits p r = true) :
    s.hostSend p r = { s with hostQs := (s.hostQs.erase (p / 24)).set (p / 24) [(p, r)] } :=
  hostDrain_waits (k := p / 24) (by rw [empty, List.nil_append]) waits

theorem hostSend_applies (empty : s.hostQs.get (p / 24) [] = []) (goes : s.hostWaits p r = false) :
    s.hostSend p r = (s.linkFree (p / 24)).hostApply p r :=
  hostDrain_applies (k := p / 24) (by rw [empty, List.nil_append]) goes

theorem hostSend_behind (queue : s.hostQs.get (q / 24) [] = [(p, r)]) (waits : s.hostWaits p r = true) :
    s.hostSend q r' = { s with hostQs := (s.hostQs.erase (q / 24)).set (q / 24) [(p, r), (q, r')] } :=
  hostDrain_waits (k := q / 24) (by rw [queue]; rfl) waits

/-! ### The inbound window (21/R327, R328) -/

section
variable {off : Nat} {b : Byte} (low : 0x1000 ≤ off) (high : off < 0x1_0000)
include low high

theorem landRing_one : s.landRing p off [b] = match (s.part p).ringAt off with
    | none => s.modPart p fun x => { x with ring := x.ring.set off b }
    | some (n, q) => match q.land (off - q.base) with
      | some q' => (s.modPart p fun x => { x with ring := x.ring.set off b }).modQueue p n fun _ => q'
      | none => (s.modQueue p n fun q => { q with drop := q.drop + 1, ovf := true }).notify p 0x47 (BitVec.ofNat 64 off) { team := n } := by
  have inside : (decide (off < 0x1000) || decide (0x1_0000 ≤ off)) = false := by simp [low, high]
  simp only [State.landRing, State.ringBytes, inside, Bool.false_eq_true, if_false]
  cases (s.part p).ringAt off with
  | none => rfl
  | some x =>
    dsimp only
    cases x.2.land (off - x.2.base) <;> rfl

end

theorem controlStore_fields (s : State) (p q : Nat) (x : Word) {old new : Inbound} (ho : old = (s.part p).queues.get q {})
    (hn : new = ((s.controlStore p q x).part p).queues.get q {}) :
    (old.on = false → new.size = x.toNat % 2 ^ 32) ∧ (old.on = true → new.size = old.size)
    ∧ (x.toNat / 2 ^ 32 % 256 = 0 → new.on = false) ∧ (x.getLsbD 40 = true → new.ovf = false)
    ∧ (x.toNat / 2 ^ 32 % 256 = 1 → old.on = false → (s.part p).queueOk q { old with ovf := new.ovf, size := new.size } = true →
      new.on = true ∧ new.mark = 0 ∧ new.cons = 0 ∧ new.drop = 0) := by
  rw [State.controlStore, State.modQueue, State.modPart_same] at hn
  simp only [Map.get_set_same, ← ho] at hn
  subst hn
  have flags : x.getLsbD 40 = true → (old.ovf && !x.getLsbD 40) = false := fun h => by rw [h, Bool.not_true, Bool.and_false]
  generalize x.toNat / 2 ^ 32 % 256 = state
  cases on : old.on with
  | true =>
    simp only [if_true]
    split
    · exact ⟨nofun, fun _ => rfl, fun _ => rfl, flags, fun _ => nofun⟩
    · exact ⟨nofun, fun _ => rfl, nofun, flags, fun _ => nofun⟩
    · next zero _ => exact ⟨nofun, fun _ => rfl, fun e => absurd e zero, flags, fun _ => nofun⟩
  | false =>
    simp only [Bool.false_eq_true, if_false, on, Bool.not_false, Bool.true_and]
    split
    · exact ⟨fun _ => rfl, nofun, fun _ => rfl, flags, nofun⟩
    · split
      · exact ⟨fun _ => rfl, nofun, nofun, flags, fun _ _ _ => ⟨rfl, rfl, rfl, rfl⟩⟩
      · next bad => exact ⟨fun _ => rfl, nofun, nofun, flags, fun _ _ ok => absurd ok bad⟩
    · next zero one => exact ⟨fun _ => rfl, nofun, fun e => absurd e zero, flags, fun e => absurd e one⟩

theorem consStore_cons (s : State) (p q : Nat) (x : Word) {old : Inbound} (ho : old = (s.part p).queues.get q {}) :
    (((s.consStore p q x).part p).queues.get q {}).cons
      = if x.toNat % 64 = 0 ∧ old.cons ≤ x.toNat ∧ x.toNat ≤ old.mark then x.toNat else old.cons := by
  rw [State.consStore, State.modQueue, State.modPart_same]
  simp only [Map.get_set_same, ← ho, Bool.and_eq_true, decide_eq_true_eq, and_assoc]
  split <;> rfl

/-! ### The memory window (28/R406) -/

theorem partWindow_eq : partWindow = 2 ^ 34 := rfl

theorem hostWaits_write (s : State) (p off : Nat) (bs : List Byte) :
    s.hostWaits p (.write off bs) = (s.standsDown p || s.rangeBusy (p * 2 ^ 34 + off) bs.length) := by
  rw [← partWindow_eq]
  rfl

theorem hostWaits_read (s : State) (p off n : Nat) :
    s.hostWaits p (.read off n) = (s.standsDown p || s.rangeBusy (p * 2 ^ 34 + off) n) := by
  rw [← partWindow_eq]
  rfl

theorem hostApply_write (s : State) (p off : Nat) (bs : List Byte) : s.hostApply p (.write off bs)
    = if s.windowOk p off bs.length then s.writeRuns (p * 2 ^ 34 + off) hostWho [(0, bs)] else s := by
  rw [← partWindow_eq]
  rfl

theorem hostApply_read (s : State) (p off n : Nat) : s.hostApply p (.read off n)
    = if s.windowOk p off n then match s.readOffs (p * 2 ^ 34 + off) hostWho (List.range n) with
        | .ok (bs, t) => { t with outbox := t.outbox ++ [.hostData p off .success bs] }
        | .error (_, t) => { t with outbox := t.outbox ++ [.hostData p off .aborted []] }
      else { s with outbox := s.outbox ++ [.hostData p off .unsupported []] } := by
  rw [← partWindow_eq]
  simp only [State.hostApply, Bool.not_eq_true', Bool.eq_false_iff, ite_not] <;> rfl

theorem State.windowOk_linkFree (s : State) (k p off n : Nat) : (s.linkFree k).windowOk p off n = s.windowOk p off n := by
  have bank la : (s.linkFree k).bankAt la = s.bankAt la := rfl
  simp only [State.windowOk, bank]

theorem State.meetBeat_linkFree {s : State} {la : Nat} {w : Who} (k : Nat) (h : s.meetBeat la w = none) :
    (s.linkFree k).meetBeat la w = none := State.meetBeat_eq_none (s := s) (t := s.linkFree k) rfl rfl h

theorem State.codeOf_of_uncoded {zs : List (Nat × Nat)} {a : Nat} (h : s.coded zs a = false) : s.codeOf a = 0 := by
  simp only [State.coded, Bool.or_eq_false_iff, bne_eq_false_iff_eq] at h
  exact h.2

section
variable {off : Nat} (empty : s.hostQs.get (p / 24) [] = []) (runs : s.standsDown p = false)
include empty runs

theorem hostWrite_lands {bs : List Byte} (inside : s.windowOk p off bs.length = true) (idle : s.rangeBusy (p * 2 ^ 34 + off) bs.length = false)
    (plain : ∀ o < bs.length, s.located (p * 2 ^ 34 + off + o) = p * 2 ^ 34 + off + o
      ∧ s.damaged.get? ((p * 2 ^ 34 + off + o) / 64) = none ∧ s.coded s.zPages (p * 2 ^ 34 + off + o) = false)
    (beats : ∀ c w, s.meetBeat c w = none) : ∃ m, s.hostSend p (.write off bs) = { s.linkFree (p / 24) with mem := m } ∧
      ∀ a, Memory.read m a = if p * 2 ^ 34 + off ≤ a ∧ a < p * 2 ^ 34 + off + bs.length then bs.getD (a - (p * 2 ^ 34 + off)) 0
        else Memory.read s.mem a := by
  have goes : s.hostWaits p (.write off bs) = false := by rw [hostWaits_write, runs, idle, Bool.or_self]
  have plainHere : PlainBytes (s.linkFree (p / 24)) (p * 2 ^ 34 + off) bs.length hostWho :=
    ⟨fun o ho => (plain o ho).1, fun o ho => ⟨(plain o ho).2.1, State.meetBeat_linkFree _ (beats _ _)⟩,
      fun o ho => State.codeOf_of_uncoded (plain o ho).2.2⟩
  obtain ⟨m, writes, reads⟩ := plainHere.writeRun_eq (fun o ho => (plain o ho).2.2) rfl
  refine ⟨m, ?_, reads⟩
  rw [hostSend_applies empty goes, hostApply_write, State.windowOk_linkFree, if_pos inside, writes]

theorem hostRead_unsupported {n : Nat} (idle : s.rangeBusy (p * 2 ^ 34 + off) n = false) (outside : s.windowOk p off n = false) :
    s.hostSend p (.read off n) = { s.linkFree (p / 24) with outbox := s.outbox ++ [.hostData p off .unsupported []] } := by
  have goes : s.hostWaits p (.read off n) = false := by rw [hostWaits_read, runs, idle, Bool.or_self]
  rw [hostSend_applies empty goes, hostApply_read, State.windowOk_linkFree, outside]
  rfl

theorem hostRead_answers {n : Nat} (idle : s.rangeBusy (p * 2 ^ 34 + off) n = false) (inside : s.windowOk p off n = true)
    (plain : ∀ o < n, s.located (p * 2 ^ 34 + off + o) = p * 2 ^ 34 + off + o ∧ s.damaged.get? ((p * 2 ^ 34 + off + o) / 64) = none
      ∧ s.codeOf (p * 2 ^ 34 + off + o) = 0 ∧ ∀ w, s.meetBeat (64 * ((p * 2 ^ 34 + off + o) / 64)) w = none) :
    s.hostSend p (.read off n) = { s.linkFree (p / 24) with
      outbox := s.outbox ++ [.hostData p off .success (Memory.readN s.mem (p * 2 ^ 34 + off) n)] } := by
  have goes : s.hostWaits p (.read off n) = false := by rw [hostWaits_read, runs, idle, Bool.or_self]
  have plainHere : PlainBytes (s.linkFree (p / 24)) (p * 2 ^ 34 + off) n hostWho :=
    ⟨fun o ho => (plain o ho).1, fun o ho => ⟨(plain o ho).2.1, State.meetBeat_linkFree _ ((plain o ho).2.2.2 _)⟩,
      fun o ho => (plain o ho).2.2.1⟩
  have reads := plainHere.readOffs_eq (offs := List.range n) fun o ho => List.mem_range.1 ho
  rw [← readN_eq_map] at reads
  rw [hostSend_applies empty goes, hostApply_read, State.windowOk_linkFree, if_pos inside, reads]
  rfl

end

/-! ### The control page (28/R408) -/

theorem controlPageWrite_stopped (p : Nat) (x : Word) (s : State) (idle : (s.part p).state = 0 ∨ (s.part p).state = 4) :
    exec (.controlPageWrite p 0x00 x) s = .next (s.modPart p fun y => { y with stewrec := x.toNat })
    ∧ exec (.controlPageWrite p 0x08 x) s = .next (s.modPart p fun y => { y with root := x.toNat })
    ∧ exec (.controlPageWrite p 0x18 x) s = .next (s.modPart p fun y => { y with winva := x.toNat })
    ∧ exec (.controlPageWrite p 0x20 x) s = .next (s.modPart p fun y => { y with logva := x.toNat })
    ∧ exec (.controlPageWrite p 0x28 x) s = .next (s.modPart p fun y => { y with sigva := x.toNat }) := by
  have free : ((s.part p).state == 0 || (s.part p).state == 4) = true := by simpa using idle
  simp only [exec_controlPageWrite, execControlPageWrite, free, if_true, and_self]

theorem controlPageWrite_runs {p off : Nat} {x : Word} {s : State} (busy : ¬ ((s.part p).state = 0 ∨ (s.part p).state = 4))
    (field : off < 0x30) : exec (.controlPageWrite p off x) s = .next s := by
  have free : ((s.part p).state == 0 || (s.part p).state == 4) = false := by simpa using busy
  have table : msixTable off = false := by simp [msixTable]; omega
  rw [exec_controlPageWrite]
  unfold execControlPageWrite
  simp only [free, Bool.false_eq_true, if_false]
  split
  · rfl
  · rfl
  · rfl
  · rfl
  · rfl
  · omega
  · simp only [State.msixWrite, table, Bool.not_false, Bool.or_true, if_true]

/-! ### The end of a partition's work (28/R411) -/

theorem Map.key_or_mem_of_mem_set {α : Type} {m : Map α} {k : Nat} {v : α} {c : Nat × α} (h : c ∈ m.set k v) : c = (k, v) ∨ c ∈ m := by
  induction m with
  | nil => exact .inl (List.mem_singleton.1 h)
  | cons p m ih =>
    unfold Map.set at h
    split at h
    · exact (List.mem_cons.1 h).imp id (List.mem_cons_of_mem _)
    · split at h
      · exact (List.mem_cons.1 h)
      · rcases List.mem_cons.1 h with rfl | h
        · exact .inr List.mem_cons_self
        · exact (ih h).imp id (List.mem_cons_of_mem _)

theorem State.mem_groups {s : State} {g : Nat × Group} (h : g ∈ s.groups) :
    g ∈ s.others ∨ (s.me.status ≠ .absent ∧ g = (s.meId, s.me)) := by
  unfold State.groups at h
  split at h
  · exact .inl h
  · next present => exact (Map.key_or_mem_of_mem_set h).symm.imp id fun e => ⟨present, e⟩

section
variable (s : State) (p : Nat)

theorem quit_parts : ∃ (m : Map Partition) (x : Partition), (s.quit p).parts = m.set p x.ended := ⟨_, _, rfl⟩

theorem quit_mem : (s.quit p).mem = s.mem := by
  have drained : ((s.groups.filter fun g : Nat × Group => corePart g.2.core == p).foldl (fun (s : State) (g : Nat × Group) => s.drainWc g.1) s).mem = s.mem :=
    foldl_keeps _ State.mem (fun u (g : Nat × Group) => State.drainWc_keeps (p := State.mem) (fun _ _ _ _ _ => rfl) u g.1) _ s
  unfold State.quit
  dsimp only
  split <;> exact drained

theorem quit_others : ∀ g ∈ (s.quit p).others, corePart g.2.core ≠ p := by
  intro g hg
  unfold State.quit at hg
  dsimp only at hg
  split at hg <;> exact bne_iff_ne.1 (List.mem_filter.1 hg).2

theorem quit_me (present : (s.quit p).me.status ≠ .absent) : corePart (s.quit p).me.core ≠ p := by
  unfold State.quit at present ⊢
  dsimp only at present ⊢
  split at present
  · exact absurd rfl present
  · next other =>
    rw [if_neg other]
    simp only [Bool.and_eq_true, decide_eq_true_eq, not_and] at other
    exact other present

theorem quit_groups : ∀ g ∈ (s.quit p).groups, corePart g.2.core ≠ p := by
  intro g hg
  rcases State.mem_groups hg with other | ⟨present, rfl⟩
  · exact quit_others s p g other
  · exact quit_me s p present

theorem quit_teams : ∀ x ∈ (s.quit p).teams, x.2.part ≠ p := by
  intro x hx
  unfold State.quit at hx
  dsimp only at hx
  split at hx <;> exact bne_iff_ne.1 (List.mem_filter.1 hx).2

theorem quit_part : ∃ x : Partition, (s.quit p).part p = x.ended := ⟨_, State.modPart_same ..⟩

/-- A partition that has been halted has no work left, and memory is as it was. -/
theorem halt_ends : ((s.halt p).part p).state = 0 ∧ (∀ g ∈ (s.halt p).groups, corePart g.2.core ≠ p)
    ∧ (∀ x ∈ (s.halt p).teams, x.2.part ≠ p) ∧ ((s.halt p).part p).slots = [] ∧ ((s.halt p).part p).reports = []
    ∧ (s.halt p).mem = s.mem := by
  have part : (s.halt p).part p = (s.quit p).part p := rfl
  obtain ⟨x, ended⟩ := quit_part s p
  rw [part, ended]
  exact ⟨rfl, quit_groups s p, quit_teams s p, rfl, rfl, quit_mem s p⟩

/-! ### Starting (28/R409) -/

variable {s p}

/-- What START has set before its checks. -/
def State.starts (s : State) (p : Nat) : State := s.modPart p fun x => { x with
  state := 1, begun := false, service := s.serviceNow p, cap := serviceCap (s.serviceNow p), remaps := 0, cpages := []
  banks := x.banks.update fun _ k => { k with slots := [] } }

theorem start_begins (stopped : (s.part p).state = 0 ∨ (s.part p).state = 4) {s1 : State}
    (h1 : s1 = (s.quit p).invalidatePart p 0 (2 ^ 52)) : s.start p = (s1.starts p).startSteward p := by
  have fresh : s.starting p = false := by
    rcases stopped with e | e <;> simp [State.starting, e]
  have idle : (!(decide ((s.part p).state = 0) || decide ((s.part p).state = 4))) = false := by
    rcases stopped with e | e <;> simp [e]
  rw [State.start, fresh, h1]
  simp only [Bool.false_eq_true, if_false, idle]
  rfl

/-- A bad address of the control page ends the start with STATE 4. -/
theorem starts_fails {s1 : State} {va : Nat} (h1 : s1 = (s.quit p).invalidatePart p 0 (2 ^ 52)) (idle : s1.startBusy p = false)
    (bad : s1.startAddress p = some va) : (s1.starts p).startSteward p = (s1.starts p).startFails p va := by
  obtain ⟨m, x, listed⟩ := quit_parts s p
  have banks : (x.ended.banks.update fun _ k => { k with slots := [] }).update (fun _ k => k.unstarted)
      = x.ended.banks.update fun _ k => k.unstarted := by
    simp only [Map.update, List.map_map]
    rfl
  have same : (s1.starts p).unstarted = s1.unstarted := State.unstarted_modPart_started s1 p (m := m) (x := x.ended) (by rw [h1]; exact listed) (by
    simp only [Partition.unstarted, banks])
  have busy : (s1.starts p).startBusy p = false := by
    rw [← State.unstarted_startBusy, same, State.unstarted_startBusy, idle]
  have address : (s1.starts p).startAddress p = some va := by
    rw [← State.unstarted_startAddress, same, State.unstarted_startAddress, bad]
  have begun : ((s1.starts p).part p).begun = false := by simp [State.starts]
  simp only [State.startSteward, begun, busy, address, Bool.false_eq_true, if_false]

theorem restart_begins (running : (s.part p).state = 2 ∨ (s.part p).state = 3) : s.restart p =
    (((s.teams.filter fun t => t.2.part == p && t.2.steward).foldl (fun s t => s.endTeam t.1 1) s).modPart p fun x => { x with
      state := 1, begun := true, cmds := [] }).startSteward p := by
  have runs : (!(decide ((s.part p).state = 2) || decide ((s.part p).state = 3))) = false := by
    rcases running with e | e <;> simp [e]
  rw [State.restart, runs]
  rfl

theorem startFails_part (s : State) (p va : Nat) : ((s.startFails p va).part p).state = 4 ∧ ((s.startFails p va).part p).strap.tcause = 0x48
    ∧ ((s.startFails p va).part p).strap.tval = BitVec.ofNat 64 va := by
  simp [State.startFails]

end

end

/-- Settles O51. -/
theorem hostSide : Obligations.HostSide := by
  refine ⟨?_, ?_, fun p q x s => ⟨_, rfl, controlStore_fields s p q x rfl rfl⟩, fun p q x s => ⟨_, rfl, consStore_cons s p q x rfl⟩,
    ?_, ?_, ?_, fun p q r r' s link queue waits => ?_, ?_, fun p x s => rfl, ?_, ?_, ?_⟩
  · intro p off bs s empty
    exact congrArg Host.Outcome.next (hostSend_waits empty (by simp [State.hostWaits]))
  · intro p off since b s low high runs since_ queue s1
    have goes : s.hostWaits p (.ring off [b] since) = false := by
      rw [State.hostWaits, runs, decide_eq_false (Nat.not_le.2 since_), Bool.or_self]
    have lands : s.hostDrain (p / 24) [] = (s.linkFree (p / 24)).landRing p off [b] :=
      hostDrain_applies (k := p / 24) (by rw [queue]; rfl) goes
    have part : (s.linkFree (p / 24)).part p = s.part p := rfl
    rw [lands, landRing_one low high, part]
    refine ⟨fun none => ?_, fun n q q' ring land => ?_, fun n q ring full => ?_⟩
    · rw [none]
      rfl
    · rw [ring]
      simp only [land]
      rfl
    · rw [ring]
      simp only [full]
      rfl
  · intro p q off x s
    rw [exec_descriptorWrite, execDescriptorWrite, State.fieldStore]
    simp only [Bool.and_eq_true, decide_eq_true_eq, Bool.not_eq_true']
  · intro p off bs s la empty
    refine ⟨fun waits => congrArg Host.Outcome.next (hostSend_waits empty ?_), fun runs inside idle plain beats => ?_⟩
    · rw [hostWaits_write, Bool.or_eq_true]
      exact waits
    · obtain ⟨m, lands, reads⟩ := hostWrite_lands empty runs inside idle plain beats
      exact ⟨_, congrArg Host.Outcome.next lands, rfl, reads⟩
  · intro p off n s la s1 empty
    refine ⟨fun waits => congrArg Host.Outcome.next (hostSend_waits empty ?_),
      fun runs outside idle => congrArg Host.Outcome.next (hostRead_unsupported empty runs idle outside),
      fun runs inside idle plain => congrArg Host.Outcome.next (hostRead_answers empty runs idle inside plain)⟩
    rw [hostWaits_read, Bool.or_eq_true]
    exact waits
  · rw [show s.hostSend q r' = s.hostDrain (q / 24) [(q, r')] from rfl]
    exact hostSend_behind queue waits
  · intro p off x s idle
    refine ⟨?_, ?_, ?_, ?_, ?_, fun busy => controlPageWrite_runs busy, ?_⟩
    · rintro stopped rfl
      obtain ⟨stewrec, _⟩ := controlPageWrite_stopped p x s stopped
      exact stewrec
    · rintro stopped rfl
      obtain ⟨_, root, _⟩ := controlPageWrite_stopped p x s stopped
      exact root
    · rintro stopped rfl
      obtain ⟨_, _, winva, _⟩ := controlPageWrite_stopped p x s stopped
      exact winva
    · rintro stopped rfl
      obtain ⟨_, _, _, logva, _⟩ := controlPageWrite_stopped p x s stopped
      exact logva
    · rintro stopped rfl
      obtain ⟨_, _, _, _, sigva⟩ := controlPageWrite_stopped p x s stopped
      exact sigva
    · rintro rfl
      rw [exec_controlPageWrite]
      simp only [execControlPageWrite, Bool.and_eq_true, decide_eq_true_eq]
  · intro i hi s
    have runs : exec i s = .next (s.halt s.subject) := by
      rcases List.mem_pair.1 hi with rfl | rfl <;> rfl
    exact ⟨_, runs, halt_ends s s.subject⟩
  · intro s p s1 stopped
    have begins : exec .start s = .next ((s1.starts p).startSteward p) := congrArg Host.Outcome.next (start_begins stopped rfl)
    refine ⟨fun va idle bad => ⟨_, begins.trans (by rw [starts_fails rfl idle bad]), startFails_part _ p va⟩, begins⟩
  · intro s p old running
    exact congrArg Host.Outcome.next (restart_begins running)

end Sys2Proof.Machine

/-!
PROOF of O52, event by event.
-/

namespace Sys2Proof.Machine

open Sys2Proof Sys2Proof.Claims

/-! ### A group after a change of it -/

theorem State.modGroup_group {s : State} {g : Nat} {x : Group} {f : Group → Group} (h : s.group? g = some x)
    (status : (f x).status = x.status) : (s.modGroup g f).group g = f x := by
  unfold State.modGroup
  rw [h]
  unfold State.group State.group? State.setGroup
  unfold State.group? at h
  split at h
  · next turn =>
    split at h
    · nomatch h
    · next present =>
      cases h
      simp only [turn, if_true, status, present, if_false, Option.getD_some]
  · next other => simp only [other, if_false, Map.get?_set_same, Option.getD_some]

theorem State.group?_of_isSome {s : State} {g : Nat} (h : (s.group? g).isSome = true) : s.group? g = some (s.group g) := by
  obtain ⟨x, hx⟩ := Option.isSome_iff_exists.1 h
  rw [State.group, hx, Option.getD_some]

/-! ### Requests of other modules (17/R269, 28/R404) -/

/-- What made a request: a load or store of another module (source 0), or one of its atomics and sums (source 3). -/
def homeSource : HomeOp → Nat
  | .read _ | .gather _ | .write _ => 0
  | _ => 3

section
variable {s s1 : State} {r : HomeReq} {bs : List Byte}

theorem applyRequest_refused (closed : s.sharesModule r.module r.la (homeSpan r.op) = false) :
    s.applyRequest r = (false, [], s.refuse r.la) := by
  simp only [State.applyRequest, closed, Bool.not_false, if_true]

theorem applyRequest_applied (opened : s.sharesModule r.module r.la (homeSpan r.op) = true)
    (applied : s.applyHome r.la { va := 0, source := homeSource r.op } r.op = .ok (bs, s1)) : s.applyRequest r = (true, bs, s1) := by
  unfold State.applyRequest
  rw [opened]
  cases op : r.op <;> rw [op] at applied <;> simp only [homeSource] at applied <;>
    simp only [applied, Bool.not_true, Bool.false_eq_true, if_false]

/-- An operation that reads and changes nothing. -/
def isRead (op : HomeOp) : Prop := (∃ n, op = .read n) ∨ ∃ o, op = .gather o

variable (home : (s.bankAt r.la).isSome = true)
include home

theorem serve_read (reads : isRead r.op) {ok : Bool} (applied : s.applyRequest r = (ok, bs, s1)) : s.serve r = s1.reply r ok bs := by
  obtain ⟨bank, place⟩ := Option.isSome_iff_exists.1 home
  rcases reads with ⟨n, op⟩ | ⟨o, op⟩ <;> simp only [State.serve, place, op, applied]

theorem serve_change (changes : (∀ n, r.op ≠ .read n) ∧ ∀ o, r.op ≠ .gather o) : s.serve r = match s.retries.find? fun x => x.holds r with
    | some x => s.reply r x.ok x.reply
    | none =>
      let a := s.applyRequest r
      ({ a.2.2 with retries := a.2.2.retries ++ [{ module := r.module, part := r.part, group := r.group, home := r.la, seq := r.seq
                                                   ok := a.1, reply := a.2.1 }] } : State).reply r a.1 a.2.1 := by
  obtain ⟨bank, place⟩ := Option.isSome_iff_exists.1 home
  obtain ⟨noRead, noGather⟩ := changes
  unfold State.serve
  rw [place]
  cases op : r.op with
  | read n => exact absurd op (noRead n)
  | gather o => exact absurd op (noGather o)
  | write _ | atoms _ _ _ | xsum _ _ | xrd _ _ => cases s.retries.find? fun x => x.holds r <;> rfl

end

/-! ### Flits (28/R403) -/

section
variable {s : State} {k m seq : Nat} {before after : List (Nat × Nat)}

theorem State.modPort_ports (s : State) (k : Nat) (f : Port → Port) : (s.modPort k f).ports = s.ports.set k (f (s.ports.get k {})) := rfl

/-- A message that leaves other buffers changes neither which ports are up nor their numbers. -/
theorem unstrand_port (s : State) (k m : Nat) : ((s.unstrand m).ports.get k {}).next = (s.ports.get k {}).next
    ∧ ((s.unstrand m).ports.get k {}).up = (s.ports.get k {}).up := by
  simp only [State.unstrand, Map.get, Map.get?_update]
  cases s.ports.get? k with
  | none => exact ⟨rfl, rfl⟩
  | some x => simp only [Option.map_some, Option.getD_some]; split <;> exact ⟨rfl, rfl⟩

theorem sendFlit_sends (named : (s.routeOf m).contains k = true) (room : (s.ports.get k {}).buffer.length < 4096)
    (alone : (∀ k' n, Outgoing.flit k' n m ∉ s.outbox) ∨ s.stranded m = true) :
    s.sendFlit k m = { (s.unstrand m).modPort k fun x => { x with next := (x.next + 1) % 2 ^ 32, buffer := x.buffer ++ [(x.next, m)] } with
      outbox := s.outbox ++ [.flit k (s.ports.get k {}).next m] } := by
  have single : (!s.inFlit m || s.stranded m) = true := by
    rcases alone with new | stranded
    · have none : s.inFlit m = false := by
        rw [State.inFlit, List.any_eq_false]
        intro o ho
        cases o with
        | flit k' n m' => simp only [beq_iff_eq]; rintro rfl; exact new k' n ho
        | _ => exact Bool.false_ne_true
      rw [none]
      rfl
    · rw [stranded, Bool.or_true]
  obtain ⟨next, _⟩ := unstrand_port s k m
  simp only [State.sendFlit, named, room, single, decide_true, Bool.and_self, if_true, State.emitFlit, next] <;> rfl

theorem modPort_up (s : State) (j : Nat) {f : Port → Port} (h : ∀ x, (f x).up = x.up) :
    ((s.modPort j f).ports.get k {}).up = (s.ports.get k {}).up := by
  rw [State.modPort_ports]
  by_cases e : j = k
  · rw [e, Map.get_set_same, h]
  · rw [Map.get_set_other _ _ _ e]

theorem sendFlit_up (s : State) (j m : Nat) : ((s.sendFlit j m).ports.get k {}).up = (s.ports.get k {}).up := by
  obtain ⟨_, up⟩ := unstrand_port s k m
  unfold State.sendFlit
  split
  · exact (modPort_up _ j (f := fun x => { x with next := (x.next + 1) % 2 ^ 32, buffer := x.buffer ++ [(x.next, m)] }) fun _ => rfl).trans up
  · rfl

theorem portDown_up (s : State) (k : Nat) (left : List (Nat × Nat)) : ((s.portDown k left).ports.get k {}).up = false := by
  have moved (u : State) (ms : List Nat) : ((u.moveTraffic ms).ports.get k {}).up = (u.ports.get k {}).up := by
    refine foldl_keeps _ (fun u : State => (u.ports.get k {}).up) (fun u m => ?_) ms u
    split
    · exact sendFlit_up u _ m
    · rfl
  rw [State.portDown, moved, State.modPort_ports, Map.get_set_same]

/-- A port that has gone down keeps what no other port has room for (log 41). -/
theorem portDown_stays {left : List (Nat × Nat)}
    (full : ∀ e ∈ left, ∀ j, (s.routeOf e.2).contains j = true → j ≠ k → 4096 ≤ (s.ports.get j {}).buffer.length) :
    s.portDown k left = s.modPort k fun x => { x with up := false, buffer := left, fails := 0 } := by
  let t := s.modPort k fun x => { x with up := false, buffer := left, fails := 0 }
  have port {j : Nat} (other : j ≠ k) : t.ports.get j {} = s.ports.get j {} := by
    rw [State.modPort_ports, Map.get_set_other _ _ _ other.symm]
  have down : (t.ports.get k {}).up = false := by rw [State.modPort_ports, Map.get_set_same]
  have route {m j : Nat} (h : (t.routeOf m).contains j = true) : j ≠ k ∧ (s.routeOf m).contains j = true := by
    have ports {m' : Nat} (h : (t.portsTo m').contains j = true) : j ≠ k ∧ (s.portsTo m').contains j = true := by
      simp only [State.portsTo, List.contains_iff_mem, List.mem_filter] at h ⊢
      obtain ⟨named, up⟩ := h
      have other : j ≠ k := by
        rintro rfl
        exact Bool.false_ne_true (down.symm.trans up)
      exact ⟨other, named, by rwa [port other] at up⟩
    unfold State.routeOf at h ⊢
    rw [show t.outbox = s.outbox from rfl] at h
    split at h
    · exact ports h
    · exact ports h
    · exact nomatch h
  have stays {ms : List Nat} (hms : ∀ m ∈ ms, m ∈ left.map (·.2)) : t.moveTraffic ms = t := by
    induction ms with
    | nil => rfl
    | cons m ms ih =>
      have none : (t.routeOf m).find? (fun j => (t.ports.get j {}).buffer.length < 4096) = none := by
        refine List.find?_eq_none.2 fun j hj => ?_
        obtain ⟨e, he, rfl⟩ := List.mem_map.1 (hms m List.mem_cons_self)
        obtain ⟨other, named⟩ := route (List.contains_iff_mem.2 hj)
        rw [port other, decide_eq_true_eq, Nat.not_lt]
        exact full e he j named other
      rw [State.moveTraffic, List.foldl_cons, none]
      exact ih fun x hx => hms x (List.mem_cons_of_mem _ hx)
  exact stays fun _ h => h

section
variable (up : (s.ports.get k {}).up = true) (buffer : (s.ports.get k {}).buffer = before ++ (seq, m) :: after)
  (first : ∀ e ∈ before, e.1 ≠ seq)
include up buffer first

theorem flitHeard_eq (good : Bool) : s.flitHeard k seq good =
    if good then s.modPort k fun x => { x with buffer := after, fails := 0 }
    else if 8 ≤ (if before = [] then (s.ports.get k {}).fails else 0) then s.portDown k ((seq, m) :: after)
    else { s.modPort k (fun y => { y with
        buffer := (seq, m) :: after, fails := (if before = [] then (s.ports.get k {}).fails else 0) + 1 }) with
      outbox := s.outbox ++ ((seq, m) :: after).map fun f => .flit k f.1 f.2 } := by
  have left : (s.ports.get k {}).buffer.dropWhile (·.1 != seq) = (seq, m) :: after := by
    rw [buffer, List.dropWhile_append_of_pos fun e he => bne_iff_ne.2 (first e he)]
    simp
  have same : (((seq, m) :: after).length = (s.ports.get k {}).buffer.length) ↔ before = [] := by
    rw [buffer, List.length_append, ← List.length_eq_zero_iff]
    omega
  simp only [State.flitHeard, left, up, same, List.isEmpty_cons, Bool.not_true, Bool.or_self, Bool.false_eq_true, if_false,
    List.drop_succ_cons, List.drop_zero]

end

end

/-! ### Answers and their time limits (18/R278, 28/R404) -/

section
variable {s : State} {g seq : Nat} {ok : Bool} {bs : List Byte} {a : Asked}

theorem deviceCompletion_answers (present : (s.group? g).isSome = true) (asked : (s.group g).asked = some a) (number : a.seq = seq)
    (open_ : a.answer = none) (early : a.due = 0 ∨ s.time < a.due) : ∃ t, exec (.deviceCompletion g seq ok bs) s = .next t
      ∧ (t.group g).asked = some { a with answer := some (ok, bs) } ∧ t.mem = s.mem := by
  have here := State.group?_of_isSome present
  have inside : inTime s.time a.due = true := by simpa [inTime] using early
  refine ⟨_, rfl, ?_, State.modGroup_mem ..⟩
  rw [State.answer, State.modGroup_group (x := s.group g) (by exact here) rfl]
  simp only [asked, Option.map_some, number, open_, inside, Option.isNone_none, decide_true, Bool.and_self, if_true]

theorem timeOut_answers (device : Bool) (present : (s.group? g).isSome = true) (asked : (s.group g).asked = some a) (limit : a.due ≠ 0)
    (late : a.due ≤ s.time) (open_ : a.answer = none)
    (remote : (s.outbox.any fun o => match o with | .remote h q .. => h == g && q == a.seq | _ => false) = !device) :
    ((s.timeOut g device).group g).asked = some { a with answer := some (false, []) } ∧ (s.timeOut g device).mem = s.mem := by
  have here := State.group?_of_isSome present
  have due : (a.due != 0) = true := bne_iff_ne.2 limit
  have sent : ((!device) != device) = true := by cases device <;> rfl
  refine ⟨?_, State.modGroup_mem ..⟩
  rw [State.timeOut, State.modGroup_group (x := s.group g) here rfl]
  simp only [asked, Option.map_some]
  rw [if_pos]
  rw [Bool.and_eq_true]
  exact ⟨by simp [due, late, open_], (congrArg (· != device) remote).trans sent⟩

theorem wcIdleDrain_drains (quiet : ∀ l ∈ (s.group s.subject).wc, l.last + 1100 ≤ s.time) (some : (s.group s.subject).wc ≠ []) :
    exec .wcIdleDrain s = .next (s.drainWc s.subject) := by
  have last (ls : List WcLine) (h : ∀ l ∈ ls, l.last + 1100 ≤ s.time) (n : Nat) (hn : n + 1100 ≤ s.time) :
      ls.foldl (fun n l => max n l.last) n + 1100 ≤ s.time := by
    induction ls generalizing n with
    | nil => exact hn
    | cons l ls ih =>
      have first := h l List.mem_cons_self
      exact ih (fun x hx => h x (List.mem_cons_of_mem _ hx)) _ (by dsimp only; omega)
  obtain ⟨l, hl⟩ := List.exists_mem_of_ne_nil _ some
  have start := quiet l hl
  exact congrArg Host.Outcome.next (if_pos (last _ quiet 0 (by omega)))

end

/-! ### Cluster reset (28/R401, R402) -/

theorem foldl_modCore_core (f : Core → Core) (base j : Nat) (l : List Nat) (once : l.Nodup) : ∀ s : State,
    (l.foldl (fun s k => s.modCore (base + k) f) s).core (base + j) = if j ∈ l then f (s.core (base + j)) else s.core (base + j) := by
  induction l with
  | nil => intro s; simp
  | cons k l ih =>
    intro s
    obtain ⟨new, rest⟩ := List.nodup_cons.1 once
    rw [List.foldl_cons, ih rest]
    by_cases e : k = j
    · subst e
      rw [if_neg new, if_pos List.mem_cons_self, State.modCore_same]
    · have other : base + k ≠ base + j := by omega
      rw [State.modCore_other _ _ other]
      simp only [List.mem_cons, Ne.symm e, false_or]

section
variable {s : State} {cl : Nat}

theorem resetCluster_resets (s : State) (cl : Nat) (retire : Bool) : ((s.resetCluster cl retire).cluster cl).reset.isSome = true
    ∧ ((s.resetCluster cl retire).cluster cl).retiring = retire ∧ ∀ j < 8, ((s.resetCluster cl retire).core (8 * cl + j)).inReset = true := by
  refine ⟨?_, ?_, fun j hj => ?_⟩
  · rw [State.resetCluster, State.modCluster_same]
    rfl
  · rw [State.resetCluster, State.modCluster_same]
  · rw [State.resetCluster, State.modCluster_core, State.modPart_core, foldl_modCore_core _ _ _ _ List.nodup_range,
      if_pos (List.mem_range.2 hj)]

/-- A reconfiguration invalidates buffers and cancels requests for power alone. -/
theorem reconfigured_keeps (s : State) (p cl c : Nat) : ((s.reconfigured p).cluster cl).reset = (s.cluster cl).reset
    ∧ ((s.reconfigured p).core c).inReset = (s.core c).inReset ∧ ((s.reconfigured p).core c).retired = (s.core c).retired := by
  have cluster : (((s.reconfigured p).clusters.get? cl).getD (idleCluster s.time)).reset
      = ((s.clusters.get? cl).getD (idleCluster s.time)).reset := by
    simp only [State.reconfigured, State.invalidatePart, State.invalidate, Map.get?_update]
    cases s.clusters.get? cl with
    | none => rfl
    | some k => simp only [Option.map_some, Option.getD_some]; split <;> rfl
  have core {β : Type} (get : Core → β) (hget : ∀ k tlb request grantAt, get { k with tlb, request, grantAt } = get k) :
      get (((s.reconfigured p).cores.get? c).getD {}) = get ((s.cores.get? c).getD {}) := by
    simp only [State.reconfigured, State.invalidatePart, State.invalidate, Map.get?_update]
    cases s.cores.get? c with
    | none => rfl
    | some k =>
      simp only [Option.map_some, Option.getD_some]
      split <;> split <;> exact hget k _ _ _
  exact ⟨cluster, core Core.inReset fun _ _ _ _ => rfl, core Core.retired fun _ _ _ _ => rfl⟩

/-- New routes for a retired cluster take no core out of reset or back into the machine. -/
theorem recompute_keeps (s : State) (cl c : Nat) : ((s.recompute cl).cluster cl).reset = (s.cluster cl).reset
    ∧ ((s.recompute cl).core c).inReset = (s.core c).inReset ∧ ((s.recompute cl).core c).retired = (s.core c).retired
    ∧ (s.recompute cl).parts = s.parts := by
  unfold State.recompute
  dsimp only
  split
  · obtain ⟨reset, inReset, retired⟩ := reconfigured_keeps (s.modCluster cl fun k => { k with retiring := false }) (corePart (8 * cl)) cl c
    rw [reset, inReset, retired, State.modCluster_same]
    exact ⟨rfl, rfl, rfl, rfl⟩
  · exact ⟨rfl, rfl, rfl, rfl⟩

/-- The state at the end of a cluster's reset, before its routes are computed again. -/
def State.resetOver (s : State) (cl : Nat) : State :=
  (((List.range 8).foldl (fun u j => u.modCore (8 * cl + j) fun x =>
      { x with inReset := false, retired := x.retired || (s.cluster cl).retiring }) s).modCluster cl fun k => { k with reset := none }).notify
    (corePart (8 * cl)) 0x4D (BitVec.ofNat 64 (cl + (s.cluster cl).retiring.toNat * 2 ^ 16))

theorem clusterResetDone_runs (reset : (s.cluster s.subject).reset.isSome = true) :
    exec .clusterResetDone s = .next ((s.resetOver s.subject).recompute s.subject) := by
  obtain ⟨t, ht⟩ := Option.isSome_iff_exists.1 reset
  simp only [exec_clusterResetDone, execClusterResetDone, ht, Option.isNone_some, Bool.false_eq_true, if_false, State.resetOver]

theorem resetOver_ends (s : State) (cl : Nat) : ((s.resetOver cl).cluster cl).reset = none
    ∧ (∀ j < 8, (s.resetOver cl).core (8 * cl + j) = { s.core (8 * cl + j) with
      inReset := false, retired := (s.core (8 * cl + j)).retired || (s.cluster cl).retiring })
    ∧ ∃ r ∈ ((s.resetOver cl).part (corePart (8 * cl))).reports,
      r.tcause = 0x4D ∧ r.tval = BitVec.ofNat 64 (cl + (s.cluster cl).retiring.toNat * 2 ^ 16) := by
  refine ⟨?_, fun j hj => ?_, ?_⟩
  · rw [State.resetOver, State.notify_cluster, State.modCluster_same]
  · rw [State.resetOver, State.notify, State.addReport, State.modPart_core, State.modCluster_core,
      foldl_modCore_core _ _ _ _ List.nodup_range, if_pos (List.mem_range.2 hj)]
  · rw [State.resetOver, State.notify_reports]
    exact ⟨_, List.mem_append_right _ (List.mem_singleton_self _), rfl, rfl⟩

theorem clusterResetDone_ends (hcl : cl = s.subject) (reset : (s.cluster cl).reset.isSome = true) : ∃ t, exec .clusterResetDone s = .next t
    ∧ (t.cluster cl).reset = none
    ∧ (∀ j < 8, (t.core (8 * cl + j)).inReset = false
      ∧ (t.core (8 * cl + j)).retired = ((s.core (8 * cl + j)).retired || (s.cluster cl).retiring))
    ∧ ∃ r ∈ (t.part (corePart (8 * cl))).reports,
      r.tcause = 0x4D ∧ r.tval = BitVec.ofNat 64 (cl + (s.cluster cl).retiring.toNat * 2 ^ 16) := by
  subst hcl
  obtain ⟨none, cores, report⟩ := resetOver_ends s s.subject
  obtain ⟨resets, _, _, parts⟩ := recompute_keeps (s.resetOver s.subject) s.subject 0
  refine ⟨_, clusterResetDone_runs reset, resets.trans none, fun j hj => ?_, ?_⟩
  · obtain ⟨_, inReset, retired, _⟩ := recompute_keeps (s.resetOver s.subject) s.subject (8 * s.subject + j)
    rw [inReset, retired, cores j hj]
    exact ⟨rfl, rfl⟩
  · rw [State.part, parts]
    exact report

end

/-! ### Calibration, module reset and the mailboxes (28/R413, R414) -/

/-- A partition that stands still passes to full service. -/
def State.toFull (s : State) (p : Nat) : State :=
  (((s.keepReduced p).modPart p fun x => { x with service := 2, cap := 7 }).reconfigured p).notify p 0x4D 0x2_0000

theorem toFull_same (s : State) (p : Nat) : ((s.toFull p).part p).service = 2 ∧ ((s.toFull p).part p).cap = 7 := by
  simp [State.toFull, State.notify, State.addReport, State.reconfigured_part]

theorem toFull_other (s : State) {p q : Nat} (h : p ≠ q) : (s.toFull p).part q = s.part q := by
  have parts : ∀ u : State, (u.reconfigured p).part q = u.part q := fun _ => rfl
  rw [State.toFull, State.notify, State.addReport, State.modPart_other _ _ h, parts, State.modPart_other _ _ h]
  rfl

theorem calibrationEnd_passes (s : State) : ∃ t, exec .calibrationEnd s = .next t ∧ t.calib.get s.subject false = true ∧
    ∀ p, p / 4 = s.subject → (s.part p).service = 1 → s.drained p = true → (t.part p).service = 2 ∧ (t.part p).cap = 7 := by
  let s1 : State := { s with calib := s.calib.set s.subject true }
  let ps := ((List.range 4).map (4 * s.subject + ·)).filter fun p => (s1.part p).service == 1 && s1.drained p
  refine ⟨ps.foldl State.toFull s1, rfl, ?_, fun p terrace reduced still => ?_⟩
  · rw [foldl_keeps State.toFull State.calib (fun _ _ => rfl) ps s1]
    exact Map.get_set_same ..
  · have named : p ∈ ps := by
      refine List.mem_filter.2 ⟨List.mem_map.2 ⟨p % 4, List.mem_range.2 (by omega), by omega⟩, ?_⟩
      rw [show (s1.part p).service = 1 from reduced, show s1.drained p = true from still]
      rfl
    have passed := foldl_sets (fun t : State => ((t.part p).service, (t.part p).cap)) (upd := State.toFull) (a := p) (v := (2, 7))
      (fun t => Prod.ext (toFull_same t p).1 (toFull_same t p).2) (fun t q other => by rw [toFull_other t other]) ps s1
    rw [if_pos named, Prod.mk.injEq] at passed
    exact passed

theorem reboot_parts (s : State) (b : Boot) (p : Nat) : (s.reboot b).part p = (s.part p).rebooted := by
  change ((s.parts.update fun _ x => x.rebooted).get? p).getD {} = ((s.parts.get? p).getD {}).rebooted
  rw [Map.get?_update]
  cases s.parts.get? p <;> rfl

theorem bootMeasures_config (b : Boot) (old : Map Nat) : (bootMeasures b old).get 3 0 = b.config := Map.get_set_same ..

theorem bootMeasures_good (b : Boot) (old : Map Nat) (loader : b.loaderGood = true) : (bootMeasures b old).get 1 0 = b.loader
    ∧ (b.firmGood = true → (bootMeasures b old).get 2 0 = b.firmware) := by
  simp only [bootMeasures, loader, if_true, Bool.true_and]
  rw [Map.get_set_other _ _ _ (by decide : 3 ≠ 1), Map.get_set_other _ _ _ (by decide : 3 ≠ 2)]
  refine ⟨?_, fun firm => ?_⟩
  · split
    · rw [Map.get_set_other _ _ _ (by decide : 2 ≠ 1)]
      rfl
    · cases old.get? 2 with
      | none => rfl
      | some v => exact (Map.get_set_other _ _ _ (by decide : 2 ≠ 1)).trans rfl
  · rw [if_pos firm, Map.get_set_same]

/-- Settles O52. -/
theorem moduleEvents : Obligations.ModuleEvents := by
  refine ⟨?_, ?_, fun k m s => sendFlit_sends, ?_, fun k left s => portDown_stays,
    fun g seq ok bs s a => deviceCompletion_answers, ?_, fun s => wcIdleDrain_drains, ?_, fun s => clusterResetDone_ends rfl,
    calibrationEnd_passes, ?_, fun s => ⟨rfl, rfl, fun fn offer => rfl, rfl, fun fn slot => rfl, fun fn slot nonce => rfl, fun fn index => rfl⟩⟩
  · intro r s home source
    have hs : source = homeSource r.op := by
      simp only [source]
      cases r.op <;> rfl
    refine ⟨fun waits => congrArg Host.Outcome.next (if_pos waits), fun goes => ?_⟩
    have served : exec (.homeRequest r) s = .next (s.serve r) := by
      rw [exec_homeRequest, execHomeRequest, State.arrive, goes]
      rfl
    rw [served]
    refine ⟨fun bs s1 reads opened applied => ?_, fun reads closed => ?_, fun noRead noGather => ?_⟩
    · rw [serve_read home reads (applyRequest_applied opened (hs ▸ applied))]
    · rw [serve_read home reads (applyRequest_refused closed)]
    · rw [serve_change home ⟨noRead, noGather⟩]
      refine ⟨fun x found => ?_, fun new => ⟨fun closed => ?_, fun bs s1 opened applied => ?_⟩⟩
      · rw [found]
      · rw [new, applyRequest_refused closed]
      · rw [new, applyRequest_applied opened (hs ▸ applied)]
  · intro f s k up
    have up' : (!(s.ports.get f.port {}).up) = false := by rw [up]; rfl
    rw [exec_flitReceive]
    unfold execFlitReceive
    refine ⟨fun good next => ?_, fun bad few => ?_, fun bad many => ?_⟩
    · simp only [up', good, next, beq_self_eq_true, Bool.and_self, Bool.false_eq_true, if_false, if_true, k]
    · have asks : ¬ 8 ≤ (s.ports.get f.port {}).resent := Nat.not_le.2 few
      simp only [up', bad, Bool.false_and, Bool.false_eq_true, if_false, asks, k]
    · have fails : 8 ≤ (s.ports.get f.port {}).resent := many
      simp only [up', bad, Bool.false_and, Bool.false_eq_true, if_false, fails, if_true, k]
  · intro k seq m before after s x up buffer first
    refine ⟨(flitHeard_eq up buffer first true).trans rfl, fun few => ?_, fun none many => ?_⟩
    · rw [flitHeard_eq up buffer first false, if_neg Bool.false_ne_true, if_neg (Nat.not_le.2 few)]
    · have down : s.flitHeard k seq false = s.portDown k ((seq, m) :: after) := by
        rw [flitHeard_eq up buffer first false, if_neg Bool.false_ne_true, if_pos none, if_pos many]
      exact ⟨down, by rw [down, portDown_up]⟩
  · intro r hr s a some present asked limit late open_ remote
    rcases List.mem_pair.1 hr with rfl | rfl
    · exact ⟨_, congrArg Host.Outcome.next (if_neg some), timeOut_answers false present asked limit late open_ remote⟩
    · exact ⟨_, rfl, timeOut_answers true present asked limit late open_ remote⟩
  · intro cl retire s running inside
    have goes : ((s.cluster cl).reset.isSome || decide (384 ≤ cl)) = false := by
      rw [running, decide_eq_false (Nat.not_le.2 inside)]
      rfl
    exact ⟨_, congrArg Host.Outcome.next (by rw [goes]; rfl), resetCluster_resets s cl retire⟩
  · intro b s
    refine ⟨_, rfl, rfl, rfl, rfl, rfl, rfl, fun p => ?_, bootMeasures_good b s.measured, bootMeasures_config b s.measured⟩
    rw [reboot_parts]
    exact ⟨rfl, rfl⟩

end Sys2Proof.Machine

/-!
PROOF of O49: the three instructions, then the steps of a round in their order.
-/

namespace Sys2Proof.Machine

open Sys2Proof Sys2Proof.Claims

/-! ### A load leaves its group where it is -/

section
variable {γ : Type} {p : State → γ} (hp : ∀ s parts damaged, p { s with parts, damaged } = p s)
include hp

theorem State.translate_keeps (s : State) (n core va : Nat) (w : Who) (write fetch : Bool) :
    p (s.translate n core va w write fetch).2 = p s := by
  have looked : p (s.lookup n core va w).2 = p s := by
    unfold State.lookup
    split
    · rfl
    · exact State.walk_keeps hp s n va w
  unfold State.translate
  split
  · dsimp only
    split_ifs <;> rfl
  · split
    · next t e => rwa [e] at looked
    · next t e => rwa [e] at looked
    · next t e => rwa [e] at looked
    · next t e => rwa [e] at looked
    · next l t e =>
      rw [e] at looked
      dsimp only
      split_ifs <;> exact looked

theorem translated_keeps {i : Instr} {s t : State} {va : Word} {write : Bool} {h : Home} {sc : Bool}
    (e : translated i s va write = .ok (h, sc, t)) : p t = p s := by
  have kept := State.translate_keeps hp s s.myPart s.me.core va.toNat (s.who s.me va 0) write false
  unfold translated at e
  split at e
  · cases e; rfl
  · split at e
    · next u found => cases e; rwa [found] at kept
    · nomatch e
    · nomatch e
    · nomatch e

end

theorem ask_core {i : Instr} {s t : State} {va : Word} {due : Nat} {mine : Map Byte} {send : Nat → Outgoing} {again : Bool} {bs : List Byte}
    (e : ask i s va due mine send again = .ok (bs, t)) : t.me.core = s.me.core := by
  unfold ask at e
  split at e
  · split at e
    · nomatch e
    · cases e; rfl
    · nomatch e
  · nomatch e

theorem loadBytes_core {i : Instr} {s t : State} {va : Word} {n : Nat} {offs : List Nat} {scalar : Bool} {bs : List Byte}
    (e : loadBytes i s va n offs scalar = .ok (bs, t)) : t.me.core = s.me.core := by
  have me : ∀ (s : State) parts damaged, State.me { s with parts, damaged } = s.me := fun _ _ _ => rfl
  unfold loadBytes at e
  split at e
  · cases e; rfl
  · split at e
    · nomatch e
    · next h sc u found =>
      have same : u.me = s.me := translated_keeps me found
      split at e
      · nomatch e
      · dsimp only at e
        rw [← same]
        split at e
        · next la _ =>
          have read := State.readOffs_keeps me u la (u.who u.me va 0) offs
          split at e
          · nomatch e
          · split at e
            · nomatch e
            · split at e
              · next r ok => cases e; rw [ok] at read; exact congrArg Group.core read
              · nomatch e
        · split_ifs at e
          cases e; rfl
        · cases e; rfl
        · nomatch e
        · exact ask_core e
        · split_ifs at e
          exact ask_core e
        · exact ask_core e

/-! ### `bidf` (20/R317, 22/R350, 24/R365) -/

section
variable {f : Form} {s s1 : State} {info : Info} {bs : List Byte} {x : Word} (h : Clear (.bidf f) info f s)
  (hx : x = s.me.scalar f.a + f.imm) (aligned : x.toNat % 64 = 0) (inside : x.toNat < 2 ^ 52)
include h hx aligned inside

theorem bidf_queued (busy : (s.part s.myPart).tender ≠ none ∨ s.me.splits.any (·.acq) = true) : Waits (.bidf f) s .formula := by
  have held : ((s.part s.myPart).tender.isSome || s.me.splits.any (·.acq)) = true := by
    rw [Bool.or_eq_true, Option.isSome_iff_ne_none]
    exact busy
  refine waits_of_run (exec_bidf f s) h ?_
  simp only [← hx, aligned, ne_eq, not_true_eq_false, if_false, Nat.not_le.2 inside, held, if_true]

variable (quiet : (s.part s.myPart).tender = none) (loads : s.me.splits.any (·.acq) = false)
include quiet loads

theorem bidf_installs {fm : Formula} (load : loadBytes (.bidf f) s x 64 (List.range 64) false = .ok (bs, s1))
    (good : formulaOf bs = some fm) : Completes (.bidf f) s (s1.modPart s1.myPart fun p => { p with formula := some fm }) := by
  have part : s1.myPart = s.myPart := congrArg corePart (loadBytes_core load)
  refine completes_of_run (exec_bidf f s) h ?_
  simp only [← hx, aligned, ne_eq, not_true_eq_false, if_false, Nat.not_le.2 inside, quiet, loads, Option.isSome_none, Bool.or_self,
    Bool.false_eq_true, load, good, part]

theorem bidf_illegal (load : loadBytes (.bidf f) s x 64 (List.range 64) false = .ok (bs, s1)) (bad : formulaOf bs = none) :
    Traps (.bidf f) s (trapOf (.bidf f) s.me 6 (BitVec.ofNat 64 (Instr.bidf f).firstWord)) := by
  refine traps_of_run (exec_bidf f s) h ?_
  simp only [← hx, aligned, ne_eq, not_true_eq_false, if_false, Nat.not_le.2 inside, quiet, loads, Option.isSome_none, Bool.or_self,
    Bool.false_eq_true, load, bad, illegal]

theorem bidf_waits {w v : Wait} (load : loadBytes (.bidf f) s x 64 (List.range 64) false = .error (.wait w))
    (hv : v = if w = .inbound then .image else .formula) : Waits (.bidf f) s v := by
  refine waits_of_run (exec_bidf f s) h ?_
  simp only [← hx, aligned, ne_eq, not_true_eq_false, if_false, Nat.not_le.2 inside, quiet, loads, Option.isSome_none, Bool.or_self,
    Bool.false_eq_true, load, hv]
  cases w <;> rfl

theorem bidf_held {w : Wait} (load : loadBytes (.bidf f) s x 64 (List.range 64) false = .error (.held w s1)) :
    exec (.bidf f) s = .next { s1 with me := s1.me.waitOn .formula s1.time } := by
  refine held_of_run (exec_bidf f s) h ?_
  simp only [← hx, aligned, ne_eq, not_true_eq_false, if_false, Nat.not_le.2 inside, quiet, loads, Option.isSome_none, Bool.or_self,
    Bool.false_eq_true, load]

end

/-! ### `tndr` and `tacc` (20/R320, 22/R350, 24/R366) -/

section
variable {f : Form} {s : State} {info : Info}

theorem legalTask {v : Nat} (h : v < 2 ^ 22) : decide (v / 2 ^ 22 ≠ 0) = false := by
  rw [Nat.div_eq_of_lt h]
  rfl

/-- The answer of a `tndr`: a status word, or the trap that it asks for. -/
def tndrAnswer (f : Form) (s : State) (w : Word) : Except Halt State :=
  if f.imm2.getLsbD 16 && (w.toNat % 256 = 1 || w.toNat % 256 = 2) then .error (.fail { trapOf (.tndr f) s.me 20 w with tlm := 0 } s)
  else .ok (s.setScalar f.d w)

/-- The tender that a `tndr` asks for, from the cycle that it waits since. -/
def tndrTender (f : Form) (s : State) : Tender :=
  { gid := s.meId, since := (if s.me.wait = some .reorder then s.me.waited else s.time, s.me.index)
    slot := (s.me.scalar f.a).toNat / 2 ^ 16 % 64, team := (s.me.scalar f.a).toNat % 2 ^ 16, mask := f.imm, win := f.imm2.toNat % 0x2000 }

/-- What a `tndr` of a legal task does without a status word, in the order of its checks. -/
def tndrAsks (f : Form) (s : State) : Except Halt State :=
  let x := s.part s.myPart
  let slot := (s.me.scalar f.a).toNat / 2 ^ 16 % 64
  let team := (s.me.scalar f.a).toNat % 2 ^ 16
  if (x.tender.toList ++ x.waiting).any (·.gid == s.meId) then .error (.wait .tender)
  else if s.badTask s.myPart slot team then tndrAnswer f s 3
  else if (x.slots.get slot {}).oldest + 255 < team then .error (.wait .reorder)
  else if f.imm = 0 then tndrAnswer f s 1
  else if 16 ≤ x.waiting.length then .error (.wait .tender)
  else .error (.held .tender (s.modPart s.myPart fun x => { x with waiting := queueTender (tndrTender f s) x.waiting }))

/-- What a `tndr` of a legal task does: it answers the status word, once it is there. -/
def tndrEffect (f : Form) (s : State) : Except Halt State :=
  s.me.tres.elim (tndrAsks f s) fun w => tndrAnswer f { s with me := { s.me with tres := none } } w

variable (h : Clear (.tndr f) info f s) (task : (s.me.scalar f.a).toNat < 2 ^ 22)
include h task

/-- `tndr` runs where its operand names a task. -/
theorem exec_tndr_legal : ∃ e, exec (.tndr f) s = run (.tndr f) s e ∧ e info f = tndrEffect f s := by
  rw [exec_tndr]
  unfold execTndr
  refine ⟨_, runIf_eq_run h (legalTask task), ?_⟩
  unfold tndrEffect
  cases s.me.tres <;> rfl

theorem tndr_completes {s1 : State} {w : Word} (e : tndrEffect f s = tndrAnswer f s1 w) (calm : f.imm2.getLsbD 16 = false ∨ (w.toNat % 256 ≠ 1 ∧ w.toNat % 256 ≠ 2)) :
    Completes (.tndr f) s (s1.setScalar f.d w) := by
  obtain ⟨effect, runs, is⟩ := exec_tndr_legal h task
  refine completes_of_run runs h (is.trans (e.trans (if_neg ?_)))
  rcases calm with off | ⟨one, two⟩
  · rw [off]
    exact Bool.false_ne_true
  · simp only [one, two, decide_false, Bool.or_self, Bool.and_false, Bool.false_eq_true, not_false_eq_true]

theorem tndr_traps {s1 : State} {w : Word} (e : tndrEffect f s = tndrAnswer f s1 w) (turn : s1.meId = s.meId) (on : f.imm2.getLsbD 16 = true) (fails : w.toNat % 256 = 1 ∨ w.toNat % 256 = 2) :
    exec (.tndr f) s = .next (s1.counted.takeTrap s.meId { trapOf (.tndr f) s1.me 20 w with tlm := 0 }) := by
  obtain ⟨effect, runs, is⟩ := exec_tndr_legal h task
  rw [← turn]
  refine fail_of_run runs h (is.trans (e.trans (if_pos ?_))) turn
  simpa [on] using fails

theorem tndr_waits {w : Wait} (e : tndrEffect f s = .error (.wait w)) : Waits (.tndr f) s w := by
  obtain ⟨effect, runs, is⟩ := exec_tndr_legal h task
  exact waits_of_run runs h (is.trans e)

omit h task in
theorem tndrEffect_answered {w : Word} (there : s.me.tres = some w) :
    tndrEffect f s = tndrAnswer f { s with me := { s.me with tres := none } } w := by
  rw [tndrEffect, there]
  rfl

omit h task in
/-- The tender of a group is under way or queued. -/
theorem queued_iff {x : Partition} {g : Nat} : (x.tender.toList ++ x.waiting).any (·.gid == g) = true
    ↔ (∃ t, x.tender = some t ∧ t.gid = g) ∨ ∃ t ∈ x.waiting, t.gid = g := by
  simp only [List.any_append, Bool.or_eq_true, List.any_eq_true, Option.mem_toList, beq_iff_eq]

section
variable (none : s.me.tres = none)
include none

omit h task in
theorem tndrEffect_asks : tndrEffect f s = tndrAsks f s := by
  rw [tndrEffect, none]
  rfl

theorem tndr_queued (queued : (∃ t, (s.part s.myPart).tender = some t ∧ t.gid = s.meId) ∨ ∃ t ∈ (s.part s.myPart).waiting, t.gid = s.meId) :
    Waits (.tndr f) s .tender :=
  tndr_waits h task ((tndrEffect_asks none).trans (if_pos (queued_iff.2 queued)))

variable (new : ¬ ((∃ t, (s.part s.myPart).tender = some t ∧ t.gid = s.meId) ∨ ∃ t ∈ (s.part s.myPart).waiting, t.gid = s.meId))
include new

theorem tndr_badTask (bad : s.badTask s.myPart ((s.me.scalar f.a).toNat / 2 ^ 16 % 64) ((s.me.scalar f.a).toNat % 2 ^ 16) = true) :
    Completes (.tndr f) s (s.setScalar f.d 3) :=
  tndr_completes h task (s1 := s) (((tndrEffect_asks none).trans (if_neg (mt queued_iff.1 new))).trans (if_pos bad)) (.inr (by decide))

variable (good : s.badTask s.myPart ((s.me.scalar f.a).toNat / 2 ^ 16 % 64) ((s.me.scalar f.a).toNat % 2 ^ 16) = false)
include good

omit h task in
theorem tndrEffect_good : tndrEffect f s =
    if ((s.part s.myPart).slots.get ((s.me.scalar f.a).toNat / 2 ^ 16 % 64) {}).oldest + 255 < (s.me.scalar f.a).toNat % 2 ^ 16 then
      .error (.wait .reorder)
    else if f.imm = 0 then tndrAnswer f s 1
    else if 16 ≤ (s.part s.myPart).waiting.length then .error (.wait .tender)
    else .error (.held .tender (s.modPart s.myPart fun x => { x with waiting := queueTender (tndrTender f s) x.waiting })) :=
  ((tndrEffect_asks none).trans (if_neg (mt queued_iff.1 new))).trans (if_neg (by rw [good]; exact Bool.false_ne_true))

theorem tndr_reorder (far : ((s.part s.myPart).slots.get ((s.me.scalar f.a).toNat / 2 ^ 16 % 64) {}).oldest + 255
    < (s.me.scalar f.a).toNat % 2 ^ 16) : Waits (.tndr f) s .reorder :=
  tndr_waits h task ((tndrEffect_good none new good).trans (if_pos far))

variable (near : (s.me.scalar f.a).toNat % 2 ^ 16 ≤ ((s.part s.myPart).slots.get ((s.me.scalar f.a).toNat / 2 ^ 16 % 64) {}).oldest + 255)
include near

theorem tndr_noCandidate (mask : f.imm = 0) (off : f.imm2.getLsbD 16 = false) : Completes (.tndr f) s (s.setScalar f.d 1) :=
  tndr_completes h task (s1 := s) ((tndrEffect_good none new good).trans ((if_neg (Nat.not_lt.2 near)).trans (if_pos mask))) (.inl off)

theorem tndr_noCandidateTraps (mask : f.imm = 0) (on : f.imm2.getLsbD 16 = true) :
    Traps (.tndr f) s { trapOf (.tndr f) s.me 20 1 with tlm := 0 } :=
  tndr_traps h task (s1 := s) ((tndrEffect_good none new good).trans ((if_neg (Nat.not_lt.2 near)).trans (if_pos mask))) rfl on
    (.inl (by decide))

theorem tndr_full (mask : f.imm ≠ 0) (full : 16 ≤ (s.part s.myPart).waiting.length) : Waits (.tndr f) s .tender :=
  tndr_waits h task ((tndrEffect_good none new good).trans ((if_neg (Nat.not_lt.2 near)).trans ((if_neg mask).trans (if_pos full))))

theorem tndr_queues (mask : f.imm ≠ 0) (room : (s.part s.myPart).waiting.length < 16) : exec (.tndr f) s =
    .next { s.modPart s.myPart fun x => { x with waiting := queueTender (tndrTender f s) x.waiting } with me := s.me.waitOn .tender s.time } := by
  obtain ⟨effect, runs, is⟩ := exec_tndr_legal h task
  exact held_of_run runs h (is.trans ((tndrEffect_good none new good).trans
    ((if_neg (Nat.not_lt.2 near)).trans ((if_neg mask).trans (if_neg (Nat.not_le.2 room))))))

end

end

theorem tacc_reads {f : Form} {s : State} {info : Info} (h : Clear (.tacc f) info f s) (task : (s.me.scalar f.a).toNat < 2 ^ 22) :
    Completes (.tacc f) s (s.setScalar f.d
      (s.taccWord s.myPart ((s.me.scalar f.a).toNat / 2 ^ 16 % 64) ((s.me.scalar f.a).toNat % 2 ^ 16))) :=
  (exec_tacc f s).trans (runIf_ok h (legalTask task) rfl)

/-! ### The steps of a round (20/R321, 22/R344-R349) -/

section
variable {s : State} {p : Nat} {t : Tender} {a : Nat}

theorem bidSample_samples {l : Launch} {fm : Formula} (rd : List (Nat × Nat × Nat)) (tender : (s.part p).tender = some t)
    (round : t.round = some a) (launch : (s.part p).slots.get? t.slot = some l) (formula : (s.part p).formula = some fm)
    (new : t.sampled = false) (due : a + 6 ≤ s.time) : exec (.bidSample p rd) s =
    .next (((s.sample p t l fm rd).foldl (fun (s : State) b => s.modCore b.core fun k => { k with reserved := some t.slot })
      { s with free := s.free + 1 }).modPart p fun x => { x with tender := some { t with sampled := true, bids := s.sample p t l fm rd } }) := by
  simp only [exec_bidSample, execBidSample, tender, round, launch, formula, new, decide_eq_false (Nat.not_lt.2 due), Bool.or_self,
    Bool.false_eq_true, if_false]

theorem windowClose_awards (hp : p = s.subject) (tender : (s.part p).tender = some t) (round : t.round = some a) (sampled : t.sampled = true)
    (new : t.award = none) (due : a + t.win ≤ s.time) : exec .tenderWindowClose s = .next (match winner t.bids (s.part p).pointer with
      | none => s.endTender p t 1 0 0
      | some (b, tie) => { (s.unreserve p (some b.core)).modPart p fun x => { x with
          tender := some { t with award := some b, bound := some s.order }, pointer := if tie then b.core + 1 else x.pointer } with
          order := s.order + 1 }) := by
  subst hp
  rw [exec_tenderWindowClose]
  unfold execTenderWindowClose
  rcases won : winner t.bids (s.part s.subject).pointer with _ | ⟨b, tie⟩ <;>
    simp only [tender, round, sampled, new, won, decide_eq_false (Nat.not_lt.2 due), Option.isSome_none, Bool.not_true, Bool.or_self,
      Bool.false_eq_true, if_false]

theorem awardArrival_answers {b : Bid} {l : Launch} (hp : p = s.subject) (tender : (s.part p).tender = some t) (round : t.round = some a)
    (award : t.award = some b) (new : t.answer = none) (launch : (s.part p).slots.get? t.slot = some l) (due : a + t.win + 3 ≤ s.time)
    {s1 : State} (h1 : s1 = s.modPart p fun x => { x with
      tender := some { t with answer := some (!s.mustWithdraw p l b, s.time), mute := (s.core b.core).inReset } }) :
    exec .awardArrival s = .next (if s.mustWithdraw p l b && !(s.core b.core).inReset then (s1.unreserve p none).withdrew b.core else s1) := by
  subst hp h1
  simp only [exec_awardArrival, execAwardArrival, tender, round, award, new, launch, Nat.not_lt.2 due, if_false]

theorem endTender_parts (s : State) (p : Nat) (t : Tender) (status bid core : Nat) : ((s.endTender p t status bid core).part p).tender = none
    ∧ ((s.endTender p t status bid core).part p).reports = (s.part p).reports := by
  have parts (u : State) (w : Word) : (u.tellTender t w).part p = u.part p := by
    rw [State.part, State.tellTender, State.modGroup_parts, State.part]
  rw [State.endTender, parts, State.modPart_same]
  exact ⟨rfl, rfl⟩

theorem endTender_numbers (s : State) (p : Nat) (t : Tender) (status bid core : Nat) : (s.endTender p t status bid core).nextId = s.nextId
    ∧ (s.endTender p t status bid core).order = s.order := by
  rw [State.endTender, State.tellTender, State.modGroup_nextId, State.modGroup_order]
  exact ⟨rfl, rfl⟩

theorem withdrew_time (s : State) (c : Nat) : (s.withdrew c).time = s.time := by
  unfold State.withdrew
  dsimp only
  split <;> rfl

theorem bitsNat_testBit (f : Nat → Bool) (n i : Nat) : (bitsNat n f).testBit i = (decide (i < n) && f i) := by
  have below (n : Nat) : bitsNat n f < 2 ^ n := by
    induction n with
    | zero => exact Nat.one_pos
    | succ n ih =>
      have bit : (f n).toNat % 2 ^ 1 ≤ 1 := by omega
      have top : (f n).toNat % 2 ^ 1 * 2 ^ (1 * n) ≤ 1 * 2 ^ n := by rw [Nat.one_mul]; exact Nat.mul_le_mul_right _ bit
      change bitsNat n f + (f n).toNat % 2 ^ 1 * 2 ^ (1 * n) < 2 ^ (n + 1)
      omega
  induction n with
  | zero => simp [bitsNat, packNat]
  | succ n ih =>
    have split : bitsNat (n + 1) f = 2 ^ n * (f n).toNat + bitsNat n f := by
      change bitsNat n f + (f n).toNat % 2 ^ 1 * 2 ^ (1 * n) = _
      have bit : (f n).toNat % 2 ^ 1 = (f n).toNat := Nat.mod_eq_of_lt (f n).toNat_lt
      rw [bit, Nat.one_mul, Nat.mul_comm, Nat.add_comm]
    rw [split, Nat.testBit_two_pow_mul_add _ (below n), ih]
    by_cases lower : i < n
    · have lower' : i < n + 1 := by omega
      simp only [lower, lower', if_true]
    · by_cases here : i = n
      · subst here
        cases f i <;> simp
      · have beyond : ¬ i < n + 1 := by omega
        have above : i - n ≠ 0 := by omega
        simp only [lower, beyond, if_false, decide_false, Bool.false_and]
        cases f n with
        | false => exact Nat.zero_testBit _
        | true => exact Nat.testBit_lt_two_pow (Nat.one_lt_two_pow above)

/-- The tender of the round that follows a withdrawal. -/
def Tender.again (t : Tender) (p : Nat) (b : Bid) (time : Nat) : Tender :=
  { t with
    wdraws := t.wdraws + 1, wdcore := b.core, bids := [], sampled := false, award := none, answer := none, mute := false, bound := none
    mask := BitVec.ofNat 64 (bitsNat 64 fun i => t.mask.getLsbD i && partCore p i != b.core), round := some time }

theorem Tender.again_mask (t : Tender) (p : Nat) (b : Bid) (time : Nat) : ∀ i < 64, (t.again p b time).mask.getLsbD i
    = (t.mask.getLsbD i && partCore p i != b.core) := by
  intro i hi
  rw [Tender.again, BitVec.getLsbD_ofNat, bitsNat_testBit]
  simp only [hi, decide_true, Bool.true_and]

section
variable {b : Bid} {at_ : Nat} (hp : p = s.subject) (tender : (s.part p).tender = some t) (award : t.award = some b)
include hp tender award

/-- What a withdrawal leaves once it has been reported. -/
theorem withdrawalArrival_runs (answer : t.answer = some (false, at_)) (due : at_ + 3 ≤ s.time) : ∃ s1 : State, s1.time = s.time
    ∧ (∃ y ∈ (s1.part p).reports, y.tcause = 0x46 ∧ y.tval = BitVec.ofNat 64 b.core)
    ∧ exec .withdrawalArrival s = .next (if t.wdraws + 1 < 3
      then s1.modPart p fun x => { x with tender := some (t.again p b s.time), reconf := false }
      else s1.endTender p (t.again p b s.time) 2 0 0) := by
  subst hp
  let s0 := if t.mute then (s.unreserve s.subject none).withdrew b.core else s
  have time : s0.time = s.time := by
    simp only [s0]
    split
    · exact withdrew_time ..
    · rfl
  refine ⟨s0.notify s.subject 0x46 (BitVec.ofNat 64 b.core) { team := t.team }, time, ?_, ?_⟩
  · rw [State.notify_reports]
    exact ⟨_, List.mem_append_right _ (List.mem_singleton_self _), rfl, rfl⟩
  · have again : t.again s.subject b s.time = t.again s.subject b s0.time := by rw [time]
    rw [again, exec_withdrawalArrival]
    unfold execWithdrawalArrival
    simp only [tender, award, answer, Nat.not_lt.2 due, if_false]
    rfl

theorem withdrawalArrival_returns (answer : t.answer = some (false, at_)) (due : at_ + 3 ≤ s.time) : ∃ r, exec .withdrawalArrival s = .next r
    ∧ (∃ y ∈ (r.part p).reports, y.tcause = 0x46 ∧ y.tval = BitVec.ofNat 64 b.core)
    ∧ (t.wdraws < 2 → ∃ u, (r.part p).tender = some u ∧ u.wdraws = t.wdraws + 1 ∧ u.wdcore = b.core ∧ u.round = some s.time
      ∧ u.award = none ∧ u.bound = none ∧ ∀ i < 64, u.mask.getLsbD i = (t.mask.getLsbD i && partCore p i != b.core))
    ∧ (2 ≤ t.wdraws → (r.part p).tender = none) := by
  obtain ⟨s1, _, report, runs⟩ := withdrawalArrival_runs hp tender award answer due
  refine ⟨_, runs, ?_⟩
  by_cases more : t.wdraws + 1 < 3
  · rw [if_pos more, State.modPart_same]
    exact ⟨report, fun _ => ⟨_, rfl, rfl, rfl, rfl, rfl, rfl, t.again_mask p b s.time⟩, fun last => by omega⟩
  · obtain ⟨none, reports⟩ := endTender_parts s1 p (t.again p b s.time) 2 0 0
    rw [if_neg more, none, reports]
    exact ⟨report, fun few => by omega, fun _ => rfl⟩

theorem acceptanceArrival_places {l : Launch} (answer : t.answer = some (true, at_)) (launch : (s.part p).slots.get? t.slot = some l)
    (due : at_ + 7 ≤ s.time) : ∃ r s1 : State, exec .acceptanceArrival s = .next (r.tryPlace s.nextId) ∧ s1 = s.endTender p t 0 b.bid b.core
    ∧ r.nextId = s1.nextId + 2 ∧ (r.team s.nextId).core = b.core ∧ (r.team s.nextId).state = .awarded
    ∧ (r.team s.nextId).index = t.team ∧ (r.team s.nextId).slot = t.slot
    ∧ (r.team s.nextId).order = t.bound.getD s1.order ∧ r.groups = s1.groups ∧ r.parts = s1.parts := by
  obtain ⟨number, order⟩ := endTender_numbers s p t 0 b.bid b.core
  rw [exec_acceptanceArrival]
  unfold execAcceptanceArrival
  subst hp
  simp only [tender, award, answer, launch, Nat.not_lt.2 due, if_false]
  refine ⟨_, _, rfl, rfl, by rw [number], ?_⟩
  simp only [State.team, State.setTeam, Map.get_set_same, order, true_and, and_true]
  rfl

end

theorem benchExpiry_ends (bench : (s.core s.subject).benched = some a) (due : a + 1100000 ≤ s.time) :
    exec .benchExpiry s = .next (s.modCore s.subject fun k => { k with benched := none }) := by
  have now : a + benchCycles ≤ s.time := due
  simp only [exec_benchExpiry, execBenchExpiry, bench, now, if_true]

end

/-- Settles O49. -/
theorem tenders : Obligations.Tenders := by
  refine ⟨fun f s s1 info bs fm h aligned inside quiet loads load good => bidf_installs h rfl aligned inside quiet loads load good,
    fun f s info h aligned inside => ⟨bidf_queued h rfl aligned inside, fun quiet loads =>
      ⟨fun bs s1 load bad => ⟨_, bidf_illegal h rfl aligned inside quiet loads load bad, rfl⟩,
        fun load => bidf_waits h rfl aligned inside quiet loads load rfl,
        fun w other load => bidf_waits h rfl aligned inside quiet loads load (if_neg other).symm,
        fun w s1 load => bidf_held h rfl aligned inside quiet loads load⟩⟩,
    fun f s info w h task there calm => tndr_completes h task (tndrEffect_answered there) calm,
    fun f s info w h task there on fails => ⟨_, tndr_traps h task (tndrEffect_answered there) rfl on fails, rfl, rfl, rfl⟩,
    fun f s info h task none => ⟨tndr_queued h task none, tndr_badTask h task none, fun new good =>
      ⟨tndr_reorder h task none new good, fun near => ⟨tndr_noCandidate h task none new good near,
        fun mask on => ⟨_, tndr_noCandidateTraps h task none new good near mask on, rfl, rfl, rfl⟩,
        tndr_full h task none new good near, tndr_queues h task none new good near⟩⟩⟩,
    fun f s info h task => tacc_reads h task, fun s => ?_⟩
  intro p x
  refine ⟨?_, ?_, fun q t a l fm rd tender round launch formula new due => bidSample_samples rd tender round launch formula new due,
    fun t a tender round sampled new due => ?_, fun t a b l tender round award new launch due => ?_, fun t => benchExpiry_ends,
    fun t b at_ tender award => withdrawalArrival_returns rfl tender award,
    fun t b at_ l tender award answer launch due => acceptanceArrival_places rfl tender award answer launch due⟩
  · intro t rest none queue free
    rw [exec_tenderAnnounce]
    unfold execTenderAnnounce
    simp only [show (s.part s.subject).tender = .none from none, show (s.part s.subject).waiting = t :: rest from queue,
      show s.formulaWaits s.subject = false from free, Bool.false_eq_true, if_false]
    rfl
  · intro none waits
    rw [exec_tenderAnnounce]
    unfold execTenderAnnounce
    simp only [show (s.part s.subject).tender = .none from none]
    cases (s.part s.subject).waiting with
    | nil => rfl
    | cons t rest => exact congrArg Host.Outcome.next (if_pos waits)
  · have closes := windowClose_awards rfl tender round sampled new due
    exact ⟨fun none => by rw [closes, none], fun b tie won => by rw [closes, won]⟩
  · exact awardArrival_answers rfl tender round award new launch due rfl

end Sys2Proof.Machine

/-!
PROOF of O47: the answers of `lnch`, then the binding of a cohort and the placement of a team.
-/

namespace Sys2Proof.Machine

open Sys2Proof Sys2Proof.Claims

/-! ### The slot that a launch takes -/

/-- The first free slot of a partition, if it has one. -/
def State.freeLaunchSlot (s : State) (p : Nat) : Option Nat :=
  (List.range 64).find? fun k => ((s.part p).slots.get? k).isNone

theorem State.freeLaunchSlot_eq_some {s : State} {p k : Nat} (bound : k < 64) (taken : ∀ j < k, ((s.part p).slots.get? j).isSome = true)
    (free : (s.part p).slots.get? k = none) : s.freeLaunchSlot p = some k :=
  List.find?_range_eq_some.2 ⟨by rw [free]; rfl, List.mem_range.2 bound, fun j lt => by
    rw [Bool.not_eq_true', ← Option.not_isSome, taken j lt]; rfl⟩

theorem State.freeLaunchSlot_eq_none {s : State} {p : Nat} (taken : ∀ j < 64, ((s.part p).slots.get? j).isSome = true) :
    s.freeLaunchSlot p = none :=
  List.find?_range_eq_none.2 fun j lt => by rw [Bool.not_eq_true', ← Option.not_isSome, taken j lt]; rfl

/-! ### `lnch` -/

/-- Whom `lnch` at an address reads its record and its table for. -/
def State.launcher (s : State) (x : Nat) : Who := { s.who s.me (BitVec.ofNat 64 x) 0 with own := true }

/-- What `lnch` answers once its record and its table are good. -/
def State.launched (s : State) (p x : Nat) (rb : List Byte) (ts : List TeamRec) : Option Nat × State :=
  match s.freeLaunchSlot p with
  | none => (some 5, s)
  | some k => (some (k * 2 ^ 16),
    { s.modPart p fun q => { q with slots := q.slots.set k (newLaunch rb ts x s.order) } with order := s.order + 1 })

section
variable {s s1 : State} {x : Nat}

theorem State.launch_bad {st va : Nat} (check : s.checkRecord s.myPart s.me.core (s.launcher x) x = .bad st va s1) :
    s.launch x = (some st, s1.hwAsked.notify s.myPart 0x48 (BitVec.ofNat 64 va)) := by
  unfold State.launcher at check
  simp only [State.launch, check]

theorem State.launch_waits (check : s.checkRecord s.myPart s.me.core (s.launcher x) x = .wait s1) :
    s.launch x = (none, s.keepAsks s1) := by
  unfold State.launcher at check
  simp only [State.launch, check]

theorem State.launch_ok {rb : List Byte} {ts : List TeamRec} (check : s.checkRecord s.myPart s.me.core (s.launcher x) x = .ok rb ts s1) :
    s.launch x = s1.hwAsked.launched s.myPart x rb ts := by
  unfold State.launcher at check
  simp only [State.launch, check]
  rfl

end

section
variable {f : Form} {s s1 : State} {info : Info}

/-- What `lnch` does at an address with what its launch answers. -/
def launchEffect (f : Form) (s : State) (x : Nat) : Option Nat × State → Except Halt State
  | (none, t) => .error (.held (if s.launchGated x then .inbound else .answer) t)
  | (some st, t) => .ok (t.setScalar f.d (BitVec.ofNat 64 st))

theorem exec_lnch_aligned (aligned : (s.me.scalar f.a).toNat % 64 = 0) :
    ∃ e, exec (.lnch f) s = run (.lnch f) s e
      ∧ e info f = launchEffect f s (s.me.scalar f.a).toNat (s.launch (s.me.scalar f.a).toNat) := by
  refine ⟨_, exec_lnch f s, (if_neg (not_not.2 aligned)).trans ?_⟩
  generalize s.launch (s.me.scalar f.a).toNat = answer
  obtain ⟨_ | st, t⟩ := answer <;> rfl

variable (h : Clear (.lnch f) info f s) (aligned : (s.me.scalar f.a).toNat % 64 = 0)
include h aligned

theorem lnch_answers {st : Nat} (answer : s.launch (s.me.scalar f.a).toNat = (some st, s1)) :
    Completes (.lnch f) s (s1.setScalar f.d (BitVec.ofNat 64 st)) := by
  obtain ⟨_, run, effect⟩ := exec_lnch_aligned (info := info) aligned
  exact completes_of_run run h (effect.trans (congrArg (launchEffect f s _) answer))

theorem lnch_waits (check : s.checkRecord s.myPart s.me.core (s.launcher (s.me.scalar f.a).toNat) (s.me.scalar f.a).toNat = .wait s1) :
    exec (.lnch f) s = .next { s.keepAsks s1 with
      me := s.me.waitOn (if s.launchGated (s.me.scalar f.a).toNat then .inbound else .answer) s.time } := by
  obtain ⟨_, run, effect⟩ := exec_lnch_aligned (info := info) aligned
  exact held_of_run run h (effect.trans (congrArg (launchEffect f s _) (State.launch_waits check)))

end

/-! ### Binding and placement -/

theorem cohortBind_binds {p slot k : Nat} {s s1 : State} {l : Launch} {ts : List TeamRec} (launch : (s.part p).slots.get? slot = some l)
    (first : ∀ o ∈ (s.part p).slots, o.2.order < l.order → s.bindable p o.2 = .no) (binds : s.bindable p l = .yes k ts s1) :
    exec (.cohortBind p slot) s = .next (s1.hwAsked.bindCohort p slot l k ts) := by
  have turn : (s.part p).slots.any (fun o => o.2.order < l.order && s.bindable p o.2 != .no) = false :=
    List.any_eq_false.2 fun o mem earlier => by
      obtain ⟨order, other⟩ := Bool.and_eq_true_iff.1 earlier
      exact bne_iff_ne.1 other (first o mem (of_decide_eq_true order))
  simp only [exec_cohortBind, execCohortBind, launch, turn, binds, Bool.false_eq_true, if_false]

section
variable {s s1 : State} {t : Nat} {r : TeamRec} (waits : (s.team t).state = .bound ∨ (s.team t).state = .awarded)
  (turn : s.firstFor t = true) (template : (if (s.team t).state = .awarded then s.idly (·.templateOf t) else s.templateOf t) = .ok r s1)

/-- The index in its launch of the cohort of a team. -/
def State.cohortIndex (s : State) (t : Nat) : Nat :=
  if (s.team t).steward then 0 else (s.team t).index / max 1 ((s.part (s.team t).part).slots.get (s.team t).slot {}).teams

include waits turn in
theorem tryPlace_proceeds : (!(decide ((s.team t).state = .bound) || decide ((s.team t).state = .awarded)) || !s.firstFor t) = false := by
  simp only [turn, Bool.not_true, Bool.or_false, Bool.not_eq_false', Bool.or_eq_true, decide_eq_true_eq, waits]

include waits turn template

theorem tryPlace_waits (none : s1.placeTeam t r (s.cohortIndex t) = none) : s.tryPlace t = (s.keepAsks s1).hwAsked := by
  unfold State.cohortIndex at none
  simp only [State.tryPlace, tryPlace_proceeds waits turn, template, none, Bool.false_eq_true, if_false]

theorem tryPlace_fits {s2 : State} (fits : s1.placeTeam t r (s.cohortIndex t) = some s2) :
    s.tryPlace t = if (s.core (s.team t).core).power = .on then s2.hwAsked.placed t
      else (s.keepAsks s1).hwAsked.wakeIsland (s.team t).core := by
  unfold State.cohortIndex at fits
  simp only [State.tryPlace, tryPlace_proceeds waits turn, template, fits, Bool.false_eq_true, if_false]

end

/-! ### O47 -/

/-- Settles O47: `lnch` answers what its check and the first free slot give; a cohort binds where no earlier launch can; a team is
placed, wakes its island or waits as its template and its core's state say. -/
theorem launchAndPlacement : Obligations.LaunchAndPlacement := by
  refine ⟨fun f s s1 info h aligned => ⟨fun st va check => lnch_answers h aligned (State.launch_bad check),
      fun rb ts check => ?_, lnch_waits h aligned⟩,
    fun p slot s s1 l k ts => cohortBind_binds, fun s waits turn r s1 template => ?_⟩
  · have launched := State.launch_ok check
    refine ⟨fun k bound taken free => lnch_answers h aligned (launched.trans ?_), fun taken => lnch_answers h aligned (launched.trans ?_)⟩
    · unfold State.launched
      rw [State.freeLaunchSlot_eq_some bound taken free]
    · unfold State.launched
      rw [State.freeLaunchSlot_eq_none taken]
  · exact ⟨fun s2 fits on => congrArg Host.Outcome.next ((tryPlace_fits waits turn template fits).trans (if_pos on)),
      fun s2 fits off => congrArg Host.Outcome.next ((tryPlace_fits waits turn template fits).trans (if_neg off)),
      fun none => congrArg Host.Outcome.next (tryPlace_waits waits turn template none)⟩

end Sys2Proof.Machine

/-! What the checks of a clear instruction's issue say of its fields (04/R68, 08/R130). -/
namespace Sys2Proof.Machine
open Sys2Proof Sys2Proof.Claims Sys2Proof.Opcode

section
variable {i : Instr} {info : Info} {f : Form} {s : State}

theorem wellFormed_of_issueCheck {bad : Bool} (h : issueCheck i info f bad s = .ok ()) : i.wellFormed = true := by
  by_contra ill
  have ill : i.wellFormed = false := Bool.not_eq_true _ ▸ ill
  unfold issueCheck at h
  cases window : s.me.win.isEmpty <;> simp [window, ill] at h

theorem Clear.wellFormed (h : Clear i info f s) : i.wellFormed = true := wellFormed_of_issueCheck h.admitted

theorem Clear.checked (h : Clear i info f s) : f.check info (info.op == 0xE8) = none :=
  (check_of_row h.row).symm.trans (Option.isNone_iff_eq_none.1 h.wellFormed)

/-- The effective type is the base type or one of the row's types (04/R61). -/
theorem Form.type_mem_of_check {anyNext : Bool} (h : f.check info anyNext = none) : f.type info.base ∈ info.base :: info.types := by
  simp only [Form.check, ite_some_eq_none] at h
  obtain ⟨-, ok, -⟩ := h
  simp only [Bool.not_eq_true', Bool.not_eq_false, Form.typeOk, Bool.or_eq_true, beq_iff_eq] at ok
  rcases ok with untyped | listed
  · simp [Form.type, untyped, Ty.ofCode]
  · unfold Form.type
    cases code : Ty.ofCode f.ty.toNat with
    | none => exact .head _
    | some t =>
      rw [code] at listed
      exact .tail _ (List.contains_iff_mem.1 listed)

theorem Clear.type_mem (h : Clear i info f s) : f.type info.base ∈ info.base :: info.types := Form.type_mem_of_check h.checked

end

/-! ### Numbers and bit vectors -/

section
variable {w : Nat} (x y : BitVec w)

theorem signedOf_toNat : signedOf w x.toNat = x.toInt := by rw [signedOf, BitVec.ofNat_toNat, BitVec.setWidth_eq]

theorem ofNat_patOf (k : Int) : BitVec.ofNat w (patOf w k) = BitVec.ofInt w k := by
  rw [patOf, BitVec.ofNat_toNat, BitVec.setWidth_eq]

theorem ofNat_add_toNat : BitVec.ofNat w (x.toNat + y.toNat) = x + y := by simp [BitVec.ofNat_add]

theorem ofNat_sub_toNat : BitVec.ofNat w (x.toNat + 2 ^ w - y.toNat) = x - y := by
  rw [BitVec.sub_def, Nat.add_comm, Nat.sub_add_comm y.isLt.le]

theorem ofNat_mul_toNat : BitVec.ofNat w (x.toNat * y.toNat) = x * y := by simp [BitVec.ofNat_mul]

/-- A function of a pattern, by its number. -/
theorem ofNat_ofNat_toNat (g : BitVec w → BitVec w) : BitVec.ofNat w (g (BitVec.ofNat w x.toNat)).toNat = g x := by
  rw [BitVec.ofNat_toNat, BitVec.ofNat_toNat, BitVec.setWidth_eq, BitVec.setWidth_eq]

/-- The upper half of a product's pattern of 2w bits is the pattern of its floor. -/
theorem ofNat_patOf_high (k : Int) : BitVec.ofNat w (patOf (2 * w) k / 2 ^ w) = BitVec.ofInt w (k / 2 ^ w) := by
  obtain ⟨m, hm⟩ := Int.eq_ofNat_of_zero_le (Int.emod_nonneg k (b := 2 ^ (2 * w)) (by positivity))
  have split : k = m + 2 ^ w * (2 ^ w * (k / 2 ^ (2 * w))) := by
    rw [← hm, ← mul_assoc, ← pow_add, ← two_mul, Int.emod_add_mul_ediv]
  have pattern : patOf (2 * w) k = m := by
    rw [patOf, BitVec.toNat_ofInt, Nat.cast_pow, Nat.cast_ofNat, hm, Int.toNat_natCast]
  have floor : k / 2 ^ w = ((m / 2 ^ w : Nat) : Int) + 2 ^ w * (k / 2 ^ (2 * w)) := by
    conv_lhs => rw [split, Int.add_mul_ediv_left _ _ (by positivity)]
    simp
  rw [pattern, floor]
  apply BitVec.eq_of_toNat_eq
  rw [BitVec.toNat_ofNat, BitVec.toNat_ofInt, Nat.cast_pow, Nat.cast_ofNat, Int.add_mul_emod_self_left]
  norm_cast

theorem ofNat_and_toNat : BitVec.ofNat w (x.toNat &&& y.toNat) = x &&& y := by
  rw [← BitVec.toNat_and, BitVec.ofNat_toNat, BitVec.setWidth_eq]

theorem ofNat_or_toNat : BitVec.ofNat w (x.toNat ||| y.toNat) = x ||| y := by
  rw [← BitVec.toNat_or, BitVec.ofNat_toNat, BitVec.setWidth_eq]

theorem ofNat_xor_toNat : BitVec.ofNat w (x.toNat ^^^ y.toNat) = x ^^^ y := by
  rw [← BitVec.toNat_xor, BitVec.ofNat_toNat, BitVec.setWidth_eq]

theorem ofNat_andn_toNat : BitVec.ofNat w (x.toNat &&& (2 ^ w - 1 - y.toNat)) = x &&& ~~~y := by
  rw [← BitVec.toNat_not, ofNat_and_toNat]

theorem ofNat_two_pow_sub_one : BitVec.ofNat w (2 ^ w - 1) = BitVec.allOnes w :=
  BitVec.eq_of_toNat_eq (by rw [BitVec.toNat_ofNat, BitVec.toNat_allOnes, Nat.mod_eq_of_lt (Nat.sub_one_lt (by positivity))])

theorem ofNat_divInt : BitVec.ofNat w (divInt w x.toNat y.toNat) = if y = 0 then BitVec.allOnes w else x.sdiv y := by
  by_cases zero : y = 0
  · simp [divInt, zero, ofNat_two_pow_sub_one]
  · have : y.toNat ≠ 0 := fun h => zero (BitVec.eq_of_toNat_eq h)
    rw [divInt, if_neg this, if_neg zero, ofNat_patOf, signedOf_toNat, signedOf_toNat]
    exact BitVec.eq_of_toInt_eq (by rw [BitVec.toInt_ofInt, BitVec.toInt_sdiv])

theorem ofNat_divNat : BitVec.ofNat w (divNat w x.toNat y.toNat) = if y = 0 then BitVec.allOnes w else x / y := by
  by_cases zero : y = 0
  · simp [divNat, zero, ofNat_two_pow_sub_one]
  · have : y.toNat ≠ 0 := fun h => zero (BitVec.eq_of_toNat_eq h)
    rw [divNat, if_neg this, if_neg zero, ← BitVec.toNat_udiv, BitVec.ofNat_toNat, BitVec.setWidth_eq]

theorem ofNat_remInt : BitVec.ofNat w (remInt w x.toNat y.toNat) = if y = 0 then x else x.srem y := by
  by_cases zero : y = 0
  · simp [remInt, zero]
  · have : y.toNat ≠ 0 := fun h => zero (BitVec.eq_of_toNat_eq h)
    rw [remInt, if_neg this, if_neg zero, ofNat_patOf, signedOf_toNat, signedOf_toNat, ← BitVec.toInt_srem, BitVec.ofInt_toInt]

theorem ofNat_remNat : BitVec.ofNat w (remNat w x.toNat y.toNat) = if y = 0 then x else x % y := by
  by_cases zero : y = 0
  · simp [remNat, zero]
  · have : y.toNat ≠ 0 := fun h => zero (BitVec.eq_of_toNat_eq h)
    rw [remNat, if_neg this, if_neg zero, ← BitVec.toNat_umod, BitVec.ofNat_toNat, BitVec.setWidth_eq]

end
section
variable {w : Nat} (x y : BitVec w)

theorem ofNat_shiftLeft_toNat (n : Nat) : BitVec.ofNat w (x.toNat <<< n) = x <<< n :=
  BitVec.eq_of_toNat_eq (by rw [BitVec.toNat_ofNat, BitVec.toNat_shiftLeft])

theorem ofNat_shiftRight_toNat (n : Nat) : BitVec.ofNat w (x.toNat >>> n) = x >>> n := by
  rw [← BitVec.toNat_ushiftRight, BitVec.ofNat_toNat, BitVec.setWidth_eq]

/-- A comparison of two numbers is one of their patterns (05/R81). -/
theorem compareInt_eq_ccHolds (fn : Nat) (signed : Bool) (a b : Nat) : compareInt fn w signed a b =
    ccHolds fn (if signed then (BitVec.ofNat w a).slt (BitVec.ofNat w b) else (BitVec.ofNat w a).ult (BitVec.ofNat w b))
      (BitVec.ofNat w a == BitVec.ofNat w b) := by
  have code (lt eq : Bool) : compareCode fn lt eq = ccHolds fn lt eq := by
    unfold compareCode ccHolds
    split <;> simp
  cases signed with
  | true =>
    have eq : ((BitVec.ofNat w a).toInt == (BitVec.ofNat w b).toInt) = (BitVec.ofNat w a == BitVec.ofNat w b) := by
      rw [Bool.eq_iff_iff, beq_iff_eq, beq_iff_eq, BitVec.toInt_inj]
    rw [BitVec.slt, if_pos rfl, ← eq, compareInt, if_pos rfl, code, signedOf, signedOf]
  | false =>
    have eq : (a % 2 ^ w == b % 2 ^ w) = (BitVec.ofNat w a == BitVec.ofNat w b) := by
      rw [Bool.eq_iff_iff, beq_iff_eq, beq_iff_eq, ← BitVec.toNat_inj, BitVec.toNat_ofNat, BitVec.toNat_ofNat]
    simp only [compareInt, code, eq, Bool.false_eq_true, if_false, BitVec.ult, BitVec.toNat_ofNat]

/-- Less, of two bit vectors. -/
theorem compareInt_lt_toNat (signed : Bool) : compareInt 2 w signed x.toNat y.toNat = if signed then x.slt y else x.ult y := by
  simp [compareInt_eq_ccHolds, ccHolds]

end

theorem leadingZeros_le (x : Nat) : ∀ n, leadingZeros x n ≤ n
  | 0 => Nat.le_refl 0
  | n + 1 => by
    unfold leadingZeros
    split
    · exact Nat.zero_le _
    · exact Nat.succ_le_succ (leadingZeros_le x n)

/-- A number of n bits has no bit above its leading zeros, and its highest bit next to them. -/
theorem leadingZeros_spec (x : Nat) : ∀ n, x < 2 ^ n →
    x < 2 ^ (n - leadingZeros x n) ∧ (leadingZeros x n < n → 2 ^ (n - 1 - leadingZeros x n) ≤ x)
  | 0, h => ⟨h, fun lt => absurd lt (Nat.not_lt_zero _)⟩
  | n + 1, h => by
    unfold leadingZeros
    cases bit : x.testBit n with
    | true => exact ⟨h, fun _ => Nat.ge_two_pow_of_testBit bit⟩
    | false =>
      have below : x < 2 ^ n := by
        refine Nat.lt_pow_two_of_testBit x fun i hi => ?_
        rcases Nat.eq_or_lt_of_le hi with rfl | above
        · exact bit
        · exact Nat.testBit_lt_two_pow (h.trans_le (Nat.pow_le_pow_right Nat.two_pos above))
      obtain ⟨fits, highest⟩ := leadingZeros_spec x n below
      simp only [Bool.false_eq_true, if_false]
      exact ⟨by rwa [Nat.add_sub_add_right], fun lt => by
        rw [show n + 1 - 1 - (leadingZeros x n + 1) = n - 1 - leadingZeros x n by omega]
        exact highest (Nat.lt_of_succ_lt_succ lt)⟩

theorem trailingZeros_le : ∀ n x, trailingZeros x n ≤ n
  | 0, _ => Nat.le_refl 0
  | n + 1, x => by
    unfold trailingZeros
    split
    · exact Nat.zero_le _
    · exact Nat.succ_le_succ (trailingZeros_le n (x / 2))

/-- No bit below the trailing zeros, and one next to them. -/
theorem trailingZeros_spec : ∀ n x, x % 2 ^ trailingZeros x n = 0 ∧ (trailingZeros x n < n → x.testBit (trailingZeros x n) = true)
  | 0, x => ⟨Nat.mod_one x, fun lt => absurd lt (Nat.not_lt_zero _)⟩
  | n + 1, x => by
    unfold trailingZeros
    by_cases odd : x % 2 = 1
    · simp [odd, Nat.mod_one, Nat.testBit_zero]
    · obtain ⟨none, lowest⟩ := trailingZeros_spec n (x / 2)
      rw [if_neg odd]
      refine ⟨?_, fun lt => ?_⟩
      · have even : x = 2 * (x / 2) := by omega
        rw [even, Nat.pow_succ', Nat.mul_mod_mul_left, Nat.mul_div_cancel_left _ Nat.two_pos, none]
      · rw [Nat.testBit_add_one]
        exact lowest (Nat.lt_of_succ_lt_succ lt)

theorem oneBits_eq_length : ∀ n x, oneBits x n = ((List.range n).filter fun i => x.testBit i).length
  | 0, _ => rfl
  | n + 1, x => by
    rw [oneBits, oneBits_eq_length n, List.range_succ_eq_map, List.filter_cons, List.filter_map, Nat.testBit_zero]
    have next : (fun i => x.testBit i) ∘ Nat.succ = fun i => (x / 2).testBit i := funext fun i => Nat.testBit_add_one ..
    rw [next]
    rcases Nat.mod_two_eq_zero_or_one x with even | odd
    · simp [even]
    · simp [odd, Nat.add_comm]

/-! ### Scalar operations -/

theorem extend_eq_extended (t : Ty) (x : Nat) : extend x (Ty.width t) (Ty.signed t) = extended t (BitVec.ofNat (Ty.width t) x) := rfl

/-- An operation on numbers that is `bop` at the width of each type of its row has the effect `alu bop`. -/
theorem scalarOp_result {mk : Form → Instr} {o n : Nat} {types : List Ty} {base : Ty} {op : Nat → Nat → Nat → Nat}
    {bop : (w : Nat) → BitVec w → BitVec w → BitVec w} (hx : ∀ f s, exec (mk f) s = scalarOp (mk f) s op)
    (row : ∀ f, (mk f).row = some (scalar3 o n types base, f))
    (agree : ∀ t ∈ base :: types, ∀ x y : BitVec (Ty.width t), BitVec.ofNat _ (op (Ty.width t) x.toNat y.toNat) = bop _ x y) :
    Result mk (alu base extended bop) := by
  intro f s info h
  obtain rfl : info = scalar3 o n types base := by simpa using h.row.symm.trans (row f)
  have mem : f.type base ∈ base :: types := h.type_mem
  refine completes_of_run (hx f s) h ?_
  simp only [extend_eq_extended, ← BitVec.toNat_setWidth]
  exact congrArg (fun r => Except.ok (s.setScalar f.d (extended (f.type base) r))) (agree _ mem _ _)


theorem extend_toNat {w : Nat} (r : BitVec w) (signed : Bool) :
    extend r.toNat w signed = if signed then r.signExtend 64 else r.setWidth 64 := by
  rw [extend, BitVec.ofNat_toNat, BitVec.setWidth_eq]

theorem ite_le_eq_ite_lt {α β γ : Type} [LinearOrder α] {k : β → α} (inj : Function.Injective k) (x y : β) (a b : γ)
    (same : x = y → a = b) : (if k x ≤ k y then a else b) = if k x < k y then a else b := by
  rcases lt_trichotomy (k x) (k y) with lt | eq | gt
  · rw [if_pos lt.le, if_pos lt]
  · rw [if_pos eq.le, if_neg eq.not_lt, same (inj eq)]
  · rw [if_neg gt.not_ge, if_neg gt.not_gt]

/-- A minimum or maximum that picks by `lt` has the effect `alu` with its extension. -/
theorem minmaxOp_result {mk : Form → Instr} {o n : Nat} {types : List Ty} {base : Ty} {signed greater : Bool}
    {ext : Ty → {w : Nat} → BitVec w → Word} {bop : (w : Nat) → BitVec w → BitVec w → BitVec w}
    (hx : ∀ f s, exec (mk f) s = minmaxOp (mk f) s signed greater) (row : ∀ f, (mk f).row = some (scalar3 o n types base, f))
    (hext : ∀ t w (r : BitVec w), ext t r = if signed then r.signExtend 64 else r.setWidth 64)
    (pick : ∀ w (x y : BitVec w), bop w x y =
      if (if signed then x.slt y else x.ult y) then (if greater then y else x) else (if greater then x else y)) :
    Result mk (alu base ext bop) := by
  intro f s info h
  obtain rfl : info = scalar3 o n types base := by simpa using h.row.symm.trans (row f)
  refine completes_of_run (hx f s) h ?_
  simp only [alu, hext, ← extend_toNat, pick, apply_ite BitVec.toNat, ← BitVec.toNat_setWidth, compareInt_lt_toNat]
  rfl

theorem ite_toInt_le {w : Nat} (x y : BitVec w) {γ : Type} (a b : γ) (same : x = y → a = b) :
    (if x.toInt ≤ y.toInt then a else b) = if x.slt y then a else b := by
  rw [ite_le_eq_ite_lt (fun _ _ => BitVec.eq_of_toInt_eq) x y a b same, BitVec.slt]
  simp only [decide_eq_true_eq]

theorem ite_toNat_le {w : Nat} (x y : BitVec w) {γ : Type} (a b : γ) (same : x = y → a = b) :
    (if x.toNat ≤ y.toNat then a else b) = if x.ult y then a else b := by
  rw [ite_le_eq_ite_lt (fun _ _ => BitVec.eq_of_toNat_eq) x y a b same, BitVec.ult]
  simp only [decide_eq_true_eq]

theorem mov_base {f : Form} {info : Info} {f' : Form} (h : (Instr.mov f).row = some (info, f')) : info.base = .u64 := by
  cases h; rfl

/-- The only type of a 64-bit operation. -/
theorem forall_word {p : Ty → Prop} (h : p .u64) : ∀ t ∈ Ty.u64 :: [], p t := List.forall_mem_singleton.2 h

/-- Settles O1: the two-operand instructions are one operation on numbers that agrees with one on bit vectors. -/
theorem scalarArithmetic : Obligations.ScalarArithmetic := by
  refine ⟨?mov, ?add, ?sub, ?mul, ?mulh, ?mulhu, ?and, ?or, ?xor, ?andn, ?shl, ?shr, ?sra, ?rol, ?min, ?max, ?minu, ?maxu⟩
  case mov =>
    intro f s info h
    exact completes_of_run (exec_mov f s) h (by simp only [mov_base h.row, extend_eq_extended, BitVec.ofNat_toNat])
  case add => exact scalarOp_result exec_add (fun _ => rfl) fun _ _ => ofNat_add_toNat
  case sub => exact scalarOp_result exec_sub (fun _ => rfl) fun _ _ => ofNat_sub_toNat
  case mul => exact scalarOp_result exec_mul (fun _ => rfl) fun _ _ => ofNat_mul_toNat
  case mulh =>
    exact scalarOp_result exec_mulh (fun _ => rfl) fun _ _ x y => by rw [signedOf_toNat, signedOf_toNat, ofNat_patOf_high]
  case mulhu => exact scalarOp_result exec_mulhu (fun _ => rfl) fun _ _ _ _ => rfl
  case and => exact scalarOp_result exec_and (fun _ => rfl) fun _ _ => ofNat_and_toNat
  case or => exact scalarOp_result exec_or (fun _ => rfl) fun _ _ => ofNat_or_toNat
  case xor => exact scalarOp_result exec_xor (fun _ => rfl) fun _ _ => ofNat_xor_toNat
  case andn => exact scalarOp_result exec_andn (fun _ => rfl) (forall_word ofNat_andn_toNat)
  case shl => exact scalarOp_result exec_shl (fun _ => rfl) fun _ _ x _ => ofNat_shiftLeft_toNat x _
  case shr => exact scalarOp_result exec_shr (fun _ => rfl) fun _ _ x _ => ofNat_shiftRight_toNat x _
  case sra => exact scalarOp_result exec_sra (fun _ => rfl) (forall_word fun x y => ofNat_ofNat_toNat x (·.sshiftRight (y.toNat % 64)))
  case rol => exact scalarOp_result exec_rol (fun _ => rfl) (forall_word fun x y => ofNat_ofNat_toNat x (·.rotateLeft (y.toNat % 64)))
  case min =>
    exact minmaxOp_result exec_min (fun _ => rfl) (fun _ _ _ => rfl) fun w x y => ite_toInt_le x y x y id
  case max => exact minmaxOp_result exec_max (fun _ => rfl) (fun _ _ _ => rfl) fun w x y => ite_toInt_le x y y x Eq.symm
  case minu => exact minmaxOp_result exec_minu (fun _ => rfl) (fun _ _ _ => rfl) fun w x y => ite_toNat_le x y x y id
  case maxu => exact minmaxOp_result exec_maxu (fun _ => rfl) (fun _ _ _ => rfl) fun w x y => ite_toNat_le x y y x Eq.symm

/-- Settles O2: each quotient and remainder of numbers is that of bit vectors. -/
theorem division : Obligations.Division := by
  refine ⟨?div, ?divu, ?rem, ?remu⟩
  case div => exact scalarOp_result exec_div (fun _ => rfl) fun _ _ => ofNat_divInt
  case divu => exact scalarOp_result exec_divu (fun _ => rfl) fun _ _ => ofNat_divNat
  case rem => exact scalarOp_result exec_rem (fun _ => rfl) fun _ _ => ofNat_remInt
  case remu => exact scalarOp_result exec_remu (fun _ => rfl) fun _ _ => ofNat_remNat

theorem cmp_base {f : Form} {info : Info} {f' : Form} (h : (Instr.cmp f).row = some (info, f')) : info.base = .i64 := by
  cases h; rfl

/-- Settles O3: the comparison by its code, the counts by the bits that they pass. -/
theorem compareSelectCount : Obligations.CompareSelectCount := by
  refine ⟨?cmp, ?sel, ?sxt, ?zxt, ?clz, ?ctz, ?popc⟩
  case cmp =>
    intro f s info h
    refine completes_of_run (exec_cmp f s) h ?_
    simp only [cmp_base h.row, compareInt_eq_ccHolds, BitVec.ofNat_toNat]
    rfl
  case sel => exact fun f s info h => completes_of_run (exec_sel f s) h rfl
  case sxt => exact fun f s info h => completes_of_run (exec_sxt f s) h (by cases h.row; simp only [extend, BitVec.ofNat_toNat, if_true])
  case zxt => exact fun f s info h => completes_of_run (exec_zxt f s) h (by
    cases h.row; simp only [extend, BitVec.ofNat_toNat, Bool.false_eq_true, if_false])
  case clz =>
    exact fun f s info h => ⟨_, leadingZeros_le _ 64, completes_of_run (exec_clz f s) h rfl,
      leadingZeros_spec _ 64 (s.me.scalar f.a).isLt⟩
  case ctz =>
    exact fun f s info h => ⟨_, trailingZeros_le 64 _, completes_of_run (exec_ctz f s) h rfl, trailingZeros_spec 64 _⟩
  case popc =>
    exact fun f s info h => completes_of_run (exec_popc f s) h (by rw [oneBits_eq_length]; rfl)

/-- A predicate operation writes a function of its two operands. -/
theorem predOp_completes {i : Instr} {op : BitVec 32 → BitVec 32 → BitVec 32} {info : Info} {f : Form} {s : State}
    (hx : exec i s = predOp i s op) (h : Clear i info f s) :
    Completes i s (s.setPred f.d.toNat (op (s.me.pred f.a.toNat) (s.me.pred f.b.toNat))) := completes_of_run hx h rfl

/-- Settles O4: six operations of one form, and two moves between the scalars and the predicates. -/
theorem predicates : Obligations.Predicates := by
  refine ⟨?pmov, ?pand, ?por, ?pxor, ?pandn, ?pnot, ?pget, ?pset⟩
  case pmov => exact fun f s _ h => predOp_completes (op := fun a _ => a) (exec_pmov f s) h
  case pand => exact fun f s _ h => predOp_completes (op := (· &&& ·)) (exec_pand f s) h
  case por => exact fun f s _ h => predOp_completes (op := (· ||| ·)) (exec_por f s) h
  case pxor => exact fun f s _ h => predOp_completes (op := (· ^^^ ·)) (exec_pxor f s) h
  case pandn => exact fun f s _ h => predOp_completes (op := fun a b => a &&& ~~~b) (exec_pandn f s) h
  case pnot => exact fun f s _ h => predOp_completes (op := fun a _ => ~~~a) (exec_pnot f s) h
  case pget => exact fun f s _ h => completes_of_run (exec_pget f s) h rfl
  case pset => exact fun f s _ h => completes_of_run (exec_pset f s) h rfl

/-- The count of a loop entry: that of the operand's low 32 bits, 1 for 0 (02/R21). -/
theorem loopCount_eq (v : Word) : BitVec.ofNat 32 (if v.toNat % 2 ^ 32 = 0 then 1 else v.toNat % 2 ^ 32)
    = if v.setWidth 32 = (0 : BitVec 32) then 1 else v.setWidth 32 := by
  rw [← BitVec.toNat_setWidth, apply_ite (BitVec.ofNat 32), BitVec.ofNat_toNat, BitVec.setWidth_eq]
  simp only [← BitVec.toNat_inj]
  rfl

/-- Settles O5: `lps` by the room of the loop stack; the others have one outcome. -/
theorem sequencingAndMask : Obligations.SequencingAndMask := by
  refine ⟨?nop, ?emget, ?emset, ?push, ?full⟩
  case nop => exact fun f s _ h => completes_of_run (exec_nop f s) h rfl
  case emget => exact fun f s _ h => completes_of_run (exec_emget f s) h rfl
  case emset => exact fun f s _ h => completes_of_run (exec_emset f s) h rfl
  case push =>
    intro f s info h room
    refine completes_of_run (exec_lps f s) h ((if_neg (Nat.not_le.2 room)).trans ?_)
    rw [loopCount_eq]
    rfl
  case full =>
    exact fun f s info h full => ⟨trapOf (.lps f) s.me 12 1, (exec_lps f s).trans (run_trap h (if_pos full)), rfl, rfl⟩

end Sys2Proof.Machine

/-! The element-wise vector integer instructions, and lanes and quads (06/R97-R105). -/
namespace Sys2Proof.Machine
open Sys2Proof Sys2Proof.Claims Sys2Proof.Opcode

/-! ### Elements -/

/-- Only the low bits of each element stand in a lane. -/
theorem packNat_congr {w : Nat} {f g : Nat → Nat} (h : ∀ j, f j % 2 ^ w = g j % 2 ^ w) : ∀ n, packNat w f n = packNat w g n
  | 0 => rfl
  | n + 1 => by rw [packNat, packNat, packNat_congr h n, h n]

theorem digit_lt (w x j : Nat) : digit w x j < 2 ^ w := Nat.mod_lt _ (by positivity)

theorem elemOf_toNat (w x j : Nat) : (elemOf w x j).toNat = digit w x j := by
  rw [elemOf, BitVec.toNat_ofNat, Nat.mod_eq_of_lt (digit_lt w x j)]

/-- The effect of an instruction that reads its sources and writes one register. -/
theorem writes_of_run {mk : Form → Instr} {always : Bool} {w : Form → State → VWrite} {e : Form → State → Info → Form → Except Halt State}
    (hx : ∀ f s, exec (mk f) s = run (mk f) s (e f s))
    (he : ∀ f s s1 info, Clear (mk f) info f s → Taken (mk f) info f always s s1 →
      e f s info f = writeReg (mk f) s1 (Spec.of f.d) (w f s) true) : Writes mk always w :=
  fun f s s1 _ info h taken written => completes_of_run (hx f s) h ((he f s s1 info h taken).trans written)

/-- An element operation on numbers that is `bop` on the patterns of its elements writes `elementwise bop`. -/
theorem elementOp_writes {mk : Form → Instr} {base : Ty} {op : Form → Nat → Bool → Nat → Nat → Nat → Nat}
    {bop : Form → Ty → (w : Nat) → BitVec w → BitVec w → BitVec w → BitVec w}
    (hx : ∀ f s, exec (mk f) s = elementOp (mk f) s (op f))
    (hbase : ∀ f, (mk f).row.map (·.1.base) = some base)
    (agree : ∀ f t w (a b c : BitVec w), BitVec.ofNat w (op f w (Ty.signed t) a.toNat b.toNat c.toNat) = bop f t w a b c) :
    Writes mk false (elementwise base bop) := by
  refine writes_of_run hx fun f s s1 info h taken => ?_
  have base : info.base = base := by simpa only [h.row, Option.map_some, Option.some_inj] using hbase f
  simp only [taken.sources, taken.ready, base]
  refine congrArg (fun lanes => writeReg (mk f) s1 (Spec.of f.d) (laneWrite (s.me.active f) lanes) true) (funext fun l => ?_)
  refine packNat_congr (fun j => ?_) _
  simp only [← agree, elemOf_toNat, BitVec.toNat_ofNat, Nat.mod_mod]

/-- Settles O6: each instruction is the element-wise form of an operation on numbers that agrees with one on bit vectors. -/
theorem vectorInteger : Obligations.VectorInteger := by
  refine ⟨?add, ?sub, ?mul, ?mulh, ?mad, ?and, ?or, ?xor, ?andn, ?shl, ?shr, ?sra, ?min, ?max, ?cmp, ?sel, ?clz, ?popc⟩
  case add => exact elementOp_writes exec_vaddInt (fun _ => rfl) fun _ _ _ a b _ => ofNat_add_toNat a b
  case sub => exact elementOp_writes exec_vsubInt (fun _ => rfl) fun _ _ _ a b _ => ofNat_sub_toNat a b
  case mul => exact elementOp_writes exec_vmulInt (fun _ => rfl) fun _ _ _ a b _ => ofNat_mul_toNat a b
  case mulh =>
    refine elementOp_writes exec_vmulh (fun _ => rfl) fun _ t w a b _ => ?_
    rw [apply_ite (BitVec.ofNat w), signedOf_toNat, signedOf_toNat, ofNat_patOf_high]
  case mad =>
    refine elementOp_writes exec_vmad (fun _ => rfl) fun _ _ w a b c => ?_
    rw [BitVec.ofNat_add, ofNat_mul_toNat, BitVec.ofNat_toNat, BitVec.setWidth_eq]
  case and => exact elementOp_writes exec_vand (fun _ => rfl) fun _ _ _ a b _ => ofNat_and_toNat a b
  case or => exact elementOp_writes exec_vor (fun _ => rfl) fun _ _ _ a b _ => ofNat_or_toNat a b
  case xor => exact elementOp_writes exec_vxor (fun _ => rfl) fun _ _ _ a b _ => ofNat_xor_toNat a b
  case andn => exact elementOp_writes exec_vandn (fun _ => rfl) fun _ _ _ a b _ => ofNat_andn_toNat a b
  case shl =>
    refine elementOp_writes exec_vshl (fun _ => rfl) fun _ _ w a b _ => ?_
    rw [← Nat.shiftLeft_eq, ofNat_shiftLeft_toNat]
  case shr =>
    refine elementOp_writes exec_vshr (fun _ => rfl) fun _ _ w a b _ => ?_
    rw [← Nat.shiftRight_eq_div_pow, ofNat_shiftRight_toNat]
  case sra =>
    refine elementOp_writes exec_vsra (fun _ => rfl) fun _ _ w a b _ => ?_
    rw [ofNat_ofNat_toNat a (·.sshiftRight (b.toNat % w))]
  case min =>
    refine elementOp_writes exec_vminInt (fun _ => rfl) fun _ t w a b _ => ?_
    rw [compareInt_lt_toNat, apply_ite (BitVec.ofNat w), BitVec.ofNat_toNat, BitVec.ofNat_toNat, BitVec.setWidth_eq, BitVec.setWidth_eq]
    rfl
  case max =>
    refine elementOp_writes exec_vmaxInt (fun _ => rfl) fun _ t w a b _ => ?_
    rw [compareInt_lt_toNat, apply_ite (BitVec.ofNat w), BitVec.ofNat_toNat, BitVec.ofNat_toNat, BitVec.setWidth_eq, BitVec.setWidth_eq]
    rfl
  case cmp =>
    refine elementOp_writes exec_vcmpInt (fun _ => rfl) fun f t w a b _ => ?_
    rw [compareInt_eq_ccHolds, apply_ite (BitVec.ofNat w), ofNat_two_pow_sub_one]
    simp only [BitVec.ofNat_toNat, BitVec.setWidth_eq]
    rfl
  case sel =>
    refine elementOp_writes exec_vsel (fun _ => rfl) fun _ _ w a b c => ?_
    rw [← BitVec.toNat_and, ← BitVec.toNat_not, ← BitVec.toNat_and, ofNat_or_toNat]
  case clz => exact elementOp_writes exec_vclz (fun _ => rfl) fun _ _ _ _ _ _ => rfl
  case popc => exact elementOp_writes exec_vpopc (fun _ => rfl) fun _ _ _ _ _ _ => rfl

/-! ### Lanes and quads (06/R97, R100, R101, R103-R105) -/

theorem elemOf_zero (w x : Nat) : elemOf w x 0 = BitVec.ofNat w x :=
  BitVec.eq_of_toNat_eq (by rw [elemOf_toNat, digit, Nat.mul_zero, Nat.pow_zero, Nat.div_one, BitVec.toNat_ofNat])

/-- The clamp of `vpack` is the nearest integer of the type's range (06/R103). -/
theorem packLane_eq (w x : Nat) (signed : Bool) : packLane w signed x =
    (BitVec.ofInt w (max (if signed then -2 ^ (w - 1) else 0) (min (if signed then 2 ^ (w - 1) - 1 else 2 ^ w - 1)
      (elemOf 32 x 0).toInt))).toNat := by
  have clamp (lo hi k : Int) (range : lo ≤ hi) : max lo (min hi k) = if k < lo then lo else if hi < k then hi else k := by omega
  have range : (if signed then -2 ^ (w - 1) else 0 : Int) ≤ if signed then 2 ^ (w - 1) - 1 else 2 ^ w - 1 := by
    have pow (n : Nat) : (0 : Int) < 2 ^ n := by positivity
    have := pow w
    have := pow (w - 1)
    split <;> omega
  rw [clamp _ _ _ range, packLane, elemOf_zero, signedOf, patOf]
  split <;> norm_cast

/-- Extension to 64 bits, cut to 32, is extension to 32. -/
theorem extend_mod (x w : Nat) (signed : Bool) : (extend x w signed).toNat % 2 ^ 32
    = (if signed then (BitVec.ofNat w x).signExtend 32 else (BitVec.ofNat w x).setWidth 32).toNat := by
  rw [← BitVec.toNat_setWidth, extend]
  refine congrArg BitVec.toNat ?_
  cases signed with
  | true =>
    simp only [if_true]
    ext i hi
    have inWord : i < 64 := hi.trans (by decide)
    simp only [BitVec.getElem_setWidth, BitVec.getElem_signExtend, BitVec.getLsbD_signExtend, inWord, decide_true, Bool.true_and]
    split
    · rw [BitVec.getLsbD_eq_getElem]
    · rfl
  | false => exact BitVec.setWidth_setWidth_of_le _ (by decide)

/-- The effect of an instruction that writes lanes of A. -/
theorem laneOp_writes {mk : Form → Instr} {base : Ty} {op : Ty → Nat → Nat} (hx : ∀ f s, exec (mk f) s = laneOp (mk f) s op)
    (hbase : ∀ f, (mk f).row.map (·.1.base) = some base) :
    Writes mk false fun f s => laneWrite (s.me.active f) fun l => op (f.type base) ((s.source f.a (f.type base)).lane l) := by
  refine writes_of_run hx fun f s s1 info h taken => ?_
  have base : info.base = base := by simpa only [h.row, Option.map_some, Option.some_inj] using hbase f
  simp only [taken.sources, taken.ready, base]

theorem shuffleOp_writes {mk : Form → Instr} {sel : Form → State → Nat → Nat → Nat}
    (hx : ∀ f s, exec (mk f) s = shuffleOp (mk f) s (sel f s)) :
    Writes mk false (moved fun f s l => sel f s (moveBy f s) l) :=
  writes_of_run hx fun f s s1 info _ taken => by simp only [taken.sources, taken.ready, moved, moveBy]

theorem sclOp_writes {mk : Form → Instr} {write : BitVec 32 → VReg → VWrite} (hx : ∀ f s, exec (mk f) s = sclOp (mk f) s write) :
    Writes mk false fun f s => write (s.me.active f) (s.source f.a .u32) :=
  writes_of_run hx fun f s s1 info _ taken => by simp only [taken.sources, taken.ready]

theorem vmov_base {f f' : Form} {info : Info} (h : (Instr.vmov f).row = some (info, f')) : info.base = .v := by
  cases h; rfl

theorem vcmppInt_base {f f' : Form} {info : Info} (h : (Instr.vcmppInt f).row = some (info, f')) : info.base = .i32 := by
  cases h; rfl

/-- Settles O7: each write by the operation that its instruction shares, and the two reads that write no lane. -/
theorem vectorLanes : Obligations.VectorLanes := by
  refine ⟨?vget, ?vmov, ?vcmpp, ?vpack, ?vunpack, ?idx, ?up, ?dn, ?xor, ?bc, ?qswz, ?vsclget⟩
  case vget => exact fun f s s1 info h sources => completes_of_run (exec_vget f s) h (by simp only [sources])
  case vmov =>
    exact writes_of_run exec_vmov fun f s s1 info h taken => by simp only [taken.sources, taken.ready, vmov_base h.row]
  case vcmpp =>
    intro f s s1 info h sources
    refine completes_of_run (exec_vcmppInt f s) h ?_
    simp only [sources, vcmppInt_base h.row, compareInt_eq_ccHolds, elemOf_zero]
    rfl
  case vpack =>
    have writes := laneOp_writes exec_vpack (base := .i16) fun _ => rfl
    simpa only [packLane_eq] using writes
  case vunpack =>
    have writes := laneOp_writes exec_vunpack (base := .i16) fun _ => rfl
    simpa only [extend_mod, ← elemOf_zero] using writes
  case idx => exact shuffleOp_writes (sel := fun f s _ l => (s.source f.b .v).lane l % 32) exec_vshflIdx
  case up => exact shuffleOp_writes (sel := fun _ _ n l => if n ≤ l then l - n else l) exec_vshflUp
  case dn => exact shuffleOp_writes (sel := fun _ _ n l => if l + n ≤ 31 then l + n else l) exec_vshflDn
  case xor => exact shuffleOp_writes (sel := fun _ _ n l => l ^^^ n) exec_vshflXor
  case bc => exact shuffleOp_writes (sel := fun _ _ n _ => n) exec_vshflBc
  case qswz => exact writes_of_run exec_qswz fun f s s1 info _ taken => by simp only [taken.sources, taken.ready]
  case vsclget => exact sclOp_writes (write := fun m a => laneWrite m fun l => a.scaleByte (l / 4)) exec_vsclget

end Sys2Proof.Machine

/-! Floating-point traps (08/R129). -/
namespace Sys2Proof.Machine
open Sys2Proof Sys2Proof.Claims

/-- Lane l is active and raises exception k. -/
def raises (g : Group) (f : Form) (res : List FRes) (k l : Nat) : Bool :=
  laneOn (g.active f) l && (res.getD l ⟨0, 0⟩).flags.testBit k

theorem fmTraps_testBit (fm : BitVec 32) {k : Nat} (hk : k < 5) : (fmTraps fm).testBit k = fm.getLsbD k := by
  have low : (fm.toNat % 2 ^ 5).testBit k = fm.getLsbD k := by
    rw [Nat.testBit_mod_two_pow, decide_eq_true hk, Bool.true_and, BitVec.testBit_toNat]
  exact low

/-- The first enabled exception that arises is the trap, with the lanes that raise it and the lowest one's result. -/
theorem fpTrap_eq_some {i : Instr} {info : Info} {f : Form} {g : Group} {res : List FRes} {k l : Nat} (hk : k < 5) (hl : l < 32)
    (enabled : g.fm.getLsbD k = true) (raised : raises g f res k l = true)
    (first : ∀ k' < k, ∀ l' < 32, (raises g f res k' l' && g.fm.getLsbD k') = false) (lowest : ∀ l' < l, raises g f res k l' = false) :
    fpTrap i info f g res = some { trapOf i g (k + 1) (BitVec.ofNat 64 (res.getD l ⟨0, 0⟩).bits) with
      tlm := maskOf (raises g f res k), place := whereCode info g f } := by
  have kind : ((List.range 5).find? fun k => (fmTraps g.fm).testBit k && (List.range 32).any (raises g f res k)) = some k := by
    refine List.find?_range_eq_some.2 ⟨?_, List.mem_range.2 hk, fun k' below => ?_⟩
    · rw [fmTraps_testBit _ hk, enabled, Bool.true_and]
      exact List.any_eq_true.2 ⟨l, List.mem_range.2 hl, raised⟩
    · rw [fmTraps_testBit _ (below.trans hk)]
      cases off : g.fm.getLsbD k' with
      | false => rfl
      | true =>
        have none : (List.range 32).any (raises g f res k') = false := List.any_eq_false.2 fun l' hl' => by
          simpa [off] using first k' below l' (List.mem_range.1 hl')
        rw [none]; rfl
  have low : (List.range 32).find? (raises g f res k) = some l :=
    List.find?_range_eq_some.2 ⟨raised, List.mem_range.2 hl, fun l' below => by rw [lowest l' below]; rfl⟩
  unfold fpTrap
  refine (congrArg (Option.map _) kind).trans ?_
  refine (congrArg (fun o : Option Nat => some { trapOf i g (k + 1) (BitVec.ofNat 64 (res.getD (o.getD 0) ⟨0, 0⟩).bits) with
      tlm := maskOf (raises g f res k), place := whereCode info g f }) low)

/-- An element-wise instruction with a trap among its results takes it. -/
theorem fpElem_traps {i : Instr} {info : Info} {f : Form} {s s1 : State} {rounds : Bool} {op : Fmt → Nat → Nat → Nat → FRes} {t : Trap}
    {res : List FRes}
    (hx : exec i s = fpElem i s rounds op) (h : Clear i info f s) (legal : rounds = true → ModeLegal s)
    (taken : Taken i info f false s s1)
    (hres : fpResults s f (f.type info.base) (op ((fmtOf (f.type info.base)).getD fmtF32)) = res)
    (trap : fpTrap i info f s.me res = some t) :
    Traps i s t :=
  (hx.trans (runIf_eq_run h (ModeLegal.not_reserved legal))).trans
    (run_trap h (by simp only [taken.sources, taken.ready, fpFinish, hres, trap]))

/-- Settles O9: the trap is that of the first enabled exception that arises. -/
theorem floatTraps : Obligations.FloatTraps := by
  intro r hr f s s1 info h legal taken raised k l hk hl hit first lowest
  have base : info.base = .f32 := by
    have rowBase := fpRows_base r hr f
    rwa [h.row, Option.map_some, Option.some_inj] at rowBase
  obtain ⟨raisesLow, enabled⟩ := (Bool.and_eq_true _ _).mp hit
  have only : raised k = raises s.me f (r.results f s) k := funext fun l' => by simp only [raised, enabled, Bool.and_true]; rfl
  have trap : fpTrap (r.ins f) info f s.me (r.results f s) = some _ :=
    fpTrap_eq_some hk hl enabled raisesLow (fun k' below l' => first k' l' below) (only ▸ lowest)
  rw [only]
  exact ⟨_, fpElem_traps (exec_fpRows r hr f s) h legal taken (by rw [base]; rfl) trap, rfl, rfl, rfl⟩

end Sys2Proof.Machine

/-! Where a trap goes, and what it leaves of its group, its partition and everything else (08/R126, R136-R139). -/
namespace Sys2Proof.Machine
open Sys2Proof Sys2Proof.Claims

/-! ### A group after a change of it, and after its core's seats are filled -/

/-- A group without its place among those that issue (21/R341), which filling a seat changes. -/
def Group.unseated (g : Group) : Group := { g with sched := .pending, stay := 0, promo := none, ready := none }

theorem State.group?_me {s : State} {x : Group} (h : s.group? s.meId = some x) : s.me.status ≠ .absent ∧ s.me = x := by
  simpa [State.group?] using h

/-- A group that is put where one stands is there, unless it is put as absent. -/
theorem State.group?_setGroup_of_some {s : State} {g : Nat} {x y : Group} (h : s.group? g = some x)
    (live : x.status ≠ .absent → y.status ≠ .absent) : (s.setGroup g y).group? g = some y := by
  by_cases mine : g = s.meId
  · subst mine
    obtain ⟨here, rfl⟩ := State.group?_me h
    exact State.group?_setGroup s s.meId y (live here)
  · simp [State.group?, State.setGroup, mine]

/-- A change that keeps a group's status and its view `p` keeps `p` of every group. -/
theorem State.modGroup_group? {α : Type} (s : State) (g a : Nat) {f : Group → Group} (p : Group → α)
    (status : ∀ x, (f x).status = x.status) (keep : ∀ x, p (f x) = p x) :
    ((s.modGroup g f).group? a).map p = (s.group? a).map p := by
  unfold State.modGroup
  cases hg : s.group? g with
  | none => rfl
  | some x =>
    by_cases ha : g = a
    · subst ha
      rw [State.group?_setGroup_of_some hg (by rw [status]; exact id), hg, Option.map_some, Option.map_some, keep]
    · exact congrArg (Option.map p) (State.group?_setGroup_other s _ ha)

theorem State.fillN_group? (c n a : Nat) : ∀ s : State,
    ((s.fillN c n).group? a).map Group.unseated = (s.group? a).map Group.unseated := by
  induction n with
  | zero => exact fun _ => rfl
  | succ n ih =>
    intro s
    unfold State.fillN
    split
    · rfl
    · split
      · rfl
      · rw [ih]; exact State.modGroup_group? s _ a _ (fun _ => rfl) fun _ => rfl

/-- Filling seats moves a group's place among those that issue and nothing else of it. -/
theorem State.fill_group? {s : State} {g : Nat} {x : Group} (h : s.group? g = some x) (c : Nat) :
    ∃ y, (s.fill c).group? g = some y ∧ y.unseated = x.unseated := by
  have seats := s.fillN_group? c 8 g
  rw [h, Option.map_some] at seats
  exact Option.map_eq_some_iff.1 seats

/-! ### What is squashed (08/R126) -/

/-- Squashing changes no partition but in its banks. -/
theorem State.squash_part (s : State) (g q : Nat) : { (s.squash g).part q with banks := [] } = { s.part q with banks := [] } := by
  have bank (s : State) (p b r : Nat) (o : Option (Nat × Nat)) :
      { (s.ownBank p b r o).part q with banks := [] } = { s.part q with banks := [] } := by
    unfold State.ownBank
    by_cases hp : p = q
    · subst hp; rw [State.modPart_same]
    · rw [State.modPart_other _ _ hp]
  unfold State.squash
  split
  · rfl
  · rename_i x _
    have keep := foldl_keeps (fun (s : State) (c : Nat × BitVec 32) =>
      if mapPlace c.2 == 2 && x.ownEntry c.1 != c.2
          && (((s.part (corePart x.core)).banks.get (bankOf c.2).1 {}).owner.get? (bankOf c.2).2) == some (g, c.1) then
        s.ownBank (corePart x.core) (bankOf c.2).1 (bankOf c.2).2 none else s)
      (fun t : State => { t.part q with banks := [] }) (by intro b a; split <;> [exact bank ..; rfl]) x.claims s
    split
    · exact keep
    · exact keep

/-- Squashing leaves the clocks of the cores. -/
theorem State.squash_cycles (s : State) (g c : Nat) : (s.squash g).cycles c = s.cycles c := by
  have pace : ((s.squash g).core c).pace = (s.core c).pace := by
    unfold State.squash
    split
    · rfl
    · rename_i x _
      have keep := foldl_keeps (fun (s : State) (c : Nat × BitVec 32) =>
        if mapPlace c.2 == 2 && x.ownEntry c.1 != c.2
            && (((s.part (corePart x.core)).banks.get (bankOf c.2).1 {}).owner.get? (bankOf c.2).2) == some (g, c.1) then
          s.ownBank (corePart x.core) (bankOf c.2).1 (bankOf c.2).2 none else s)
        (fun t : State => (t.core c).pace) (by intro b a; split <;> rfl) x.claims s
      split
      · refine Eq.trans ?_ keep
        simp only [State.modCore, State.core, Map.get, Map.get?_set]
        split
        · rename_i same; subst same; rfl
        · rfl
      · exact keep
  simp only [State.cycles, State.cycleOf, pace, State.squash_time]

/-! ### Routing (08/R136) -/

/-- The six conditions under which a trap goes to the steward. -/
theorem Group.toSteward_iff (g : Group) (steward : Bool) (kind : Nat) : g.toSteward steward kind = true ↔
    g.depth = true ∨ g.tvec.toNat % 2 ^ 52 = 0 ∨ (match steerBit kind with | some b => g.tvec.getLsbD b | none => true) = true
      ∨ kind = 21 ∨ g.tvec.toNat % 2 ^ 52 % 4 ≠ 0 ∨ steward = true := by
  simp only [Group.toSteward, Bool.or_eq_true, beq_iff_eq, bne_iff_ne]
  tauto

/-- The group of a trap that the steward takes has stopped (08/R137). -/
def Group.halted (x : Group) : Group :=
  { x.squashed with status := .stopped, wait := none, waited := 0, asked := none, fetched := [], xw := none, want := none
                    stopAt := none, sched := .pending, yielded := false, tres := none }

/-- The report of a trap that the steward takes (08/R137). -/
def State.trapReport (s : State) (x : Group) (t : Trap) : Report :=
  { s.groupReport x with
    tcause := causeWord t 2 true, tepc := x.pc.zeroExtend 64, tval := t.tval, tlm := t.tlm.toNat }

/-- A steward partition after a trap of its steward group (28/R411). -/
def Partition.struck (p : Partition) (g : Nat) (r : Report) : Partition :=
  let off (d : Tender) : Tender := if d.gid = g then { d with gid := 0 } else d
  { p with strap := r, state := 3, msi := p.msi ++ [0], tender := p.tender.map off, waiting := p.waiting.map off }

/-- What a trap that the steward takes leaves before its report: the group has stopped, and its seat is filled. -/
def State.stoppedAt (s : State) (g : Nat) (x : Group) : State := ((s.squash g).setGroup g x.halted).fill x.core

section
variable {s : State} {g : Nat} {x : Group} {t : Trap} (h : s.group? g = some x)
include h

/-- A trap that the group handles: it enters its handler, and double errors of its save slots are gone (08/R138). -/
theorem State.takeTrap_handled (user : x.toSteward (s.team x.team).steward t.kind = false) : s.takeTrap g t =
    { (s.squash g).setGroup g { x.squashed.enterHandler t with notBefore := s.cycles x.core + 6 } with
      spDamage := s.spDamage.erase (saveSlotKey g) } := by
  have route : x.squashed.toSteward ((s.squash g).team x.squashed.team).steward t.kind = false := by
    rw [State.team, State.squash_teams]; exact user
  unfold State.takeTrap
  simp only [h, route, Bool.not_false, if_true, State.squash_cycles, State.squash_spDamage]
  rfl

/-- A trap that the steward takes: the group stops, and its report goes to its partition's ring or, for a steward group, to STRAP. -/
theorem State.takeTrap_stewarded (stew : x.toSteward (s.team x.team).steward t.kind = true) : s.takeTrap g t =
    if (s.team x.team).steward then (s.stoppedAt g x).modPart (s.team x.team).part fun p => p.struck g (s.trapReport x t)
    else (s.stoppedAt g x).addReport (s.team x.team).part (s.trapReport x t) := by
  have team : (s.squash g).team x.squashed.team = s.team x.team := by rw [State.team, State.squash_teams]; rfl
  have route : x.squashed.toSteward (s.team x.team).steward t.kind = true := stew
  have report : (s.squash g).groupReport x.squashed = s.groupReport x := by rw [State.groupReport, team]; rfl
  unfold State.takeTrap
  simp only [h, team, route, report, Bool.not_true, Bool.false_eq_true, if_false]
  rfl

end

theorem State.stoppedAt_group? (s : State) (g : Nat) (x : Group) :
    ∃ y, (s.stoppedAt g x).group? g = some y ∧ y.unseated = x.halted.unseated := by
  have put : ((s.squash g).setGroup g x.halted).group? g = some x.halted := State.group?_setGroup _ _ _ (by simp [Group.halted])
  exact State.fill_group? put x.core

theorem State.stoppedAt_part (s : State) (g q : Nat) (x : Group) :
    { (s.stoppedAt g x).part q with banks := [] } = { s.part q with banks := [] } := by
  have rest : (s.stoppedAt g x).part q = (s.squash g).part q := by
    rw [State.stoppedAt, State.part, State.fill_parts, State.setGroup_parts]; rfl
  rw [rest, State.squash_part]

/-! ### The handler's group (08/R138, R139) -/

theorem Group.relievable_congr {g h : Group} (held : g.held = h.held) (pmap : g.pmap = h.pmap) : g.relievable = h.relievable := by
  unfold Group.relievable Group.holds Group.blockQueue
  rw [held, pmap]

theorem Group.relieve_block (g : Group) : g.relieve.relief.map (·.block) = g.relievable := by
  unfold Group.relieve
  cases g.relievable <;> rfl

/-- Relieving a block changes the relief, the lanes and the map alone. -/
theorem Group.relieve_rest (g : Group) :
    { g.relieve with relief := none, regs := [], pmap := [] } = { g with relief := none, regs := [], pmap := [] } := by
  unfold Group.relieve
  split <;> rfl

theorem Group.enterHandler_relief (g : Group) (t : Trap) : (g.enterHandler t).relief.map (·.block) = g.relievable :=
  (Group.relieve_block _).trans (Group.relievable_congr rfl rfl)

/-- What the handler's entry writes beside the relief: the trap registers, the mask and the stacks set aside, depth, address and waits. -/
theorem Group.enterHandler_rest (g : Group) (t : Trap) :
    { g.enterHandler t with relief := none, regs := [], pmap := [] } = { g with
      tepc := g.pc.zeroExtend 64, tcause := causeWord t 1 false, tval := t.tval, tlm := t.tlm.zeroExtend 64
      tem := g.em, setR := g.rstack, setL := g.lstack, rstack := [], lstack := [], depth := true, pc := g.tvec.truncate 52
      wait := none, waited := 0, asked := none, fetched := [], xw := none, want := none, stopAt := none
      relief := none, regs := [], pmap := [] } := by
  unfold Group.enterHandler Group.relieve
  simp only []
  split <;> rfl

theorem State.takeTrap_handled_group? {s : State} {g : Nat} {x : Group} {t : Trap} (h : s.group? g = some x)
    (user : x.toSteward (s.team x.team).steward t.kind = false) :
    (s.takeTrap g t).group? g = some { x.squashed.enterHandler t with notBefore := s.cycles x.core + 6 } := by
  have found : (s.squash g).group? g = some x := by simpa only [State.group?, State.squash_meId, State.squash_me, State.squash_others] using h
  have status : (x.squashed.enterHandler t).status = x.squashed.status := (congrArg Group.status (x.squashed.enterHandler_rest t) :)
  rw [State.takeTrap_handled h user]
  refine State.group?_setGroup_of_some found fun live => ?_
  refine status.trans_ne ?_
  unfold Group.squashed
  simp only []
  split
  · exact Status.noConfusion
  · exact live

theorem State.takeTrap_stewarded_group? {s : State} {g : Nat} {x : Group} {t : Trap} (h : s.group? g = some x)
    (stew : x.toSteward (s.team x.team).steward t.kind = true) :
    ∃ y, (s.takeTrap g t).group? g = some y ∧ y.unseated = x.halted.unseated := by
  obtain ⟨y, found, seat⟩ := s.stoppedAt_group? g x
  refine ⟨y, ?_, seat⟩
  rw [State.takeTrap_stewarded h stew, ← found]
  split <;> rfl

/-- Settles O37: the group that a trap leaves, by its routing. -/
theorem trapRouting : Obligations.TrapRouting := by
  intro s g x t h addr steer stew
  refine ⟨fun user => ?_, fun stewarded _ => ?_⟩
  · have route : x.toSteward (s.team x.team).steward t.kind = false :=
      Bool.not_eq_true _ ▸ mt (Group.toSteward_iff ..).1 user
    have rest := x.squashed.enterHandler_rest t
    exact ⟨_, State.takeTrap_handled_group? h route, (congrArg Group.win rest :), (congrArg Group.parked rest :),
      (congrArg Group.tepc rest :), (congrArg Group.tcause rest :), (congrArg Group.tval rest :), (congrArg Group.tlm rest :), (congrArg Group.tem rest :),
      (congrArg Group.setR rest :), (congrArg Group.setL rest :), (congrArg Group.rstack rest :), (congrArg Group.lstack rest :),
      (congrArg Group.depth rest :), (congrArg Group.pc rest :), (congrArg Group.em rest :), (congrArg Group.fm rest :), (congrArg Group.ff rest :),
      (congrArg Group.sregs rest :), (congrArg Group.preds rest :),
      (Group.enterHandler_relief _ t).trans (Group.relievable_congr rfl rfl), rfl⟩
  · obtain ⟨y, found, seat⟩ := State.takeTrap_stewarded_group? h ((Group.toSteward_iff ..).2 stewarded)
    exact ⟨y, found, (congrArg Group.status seat :), (congrArg Group.win seat :), (congrArg Group.parked seat :), (congrArg Group.tepc seat :),
      (congrArg Group.tcause seat :), (congrArg Group.tval seat :), (congrArg Group.tlm seat :), (congrArg Group.regs seat :),
      (congrArg Group.held seat :), (congrArg Group.relief seat :), (congrArg Group.pc seat :), (congrArg Group.em seat :)⟩

/-- Settles O38: the partition that a trap of the steward leaves, by the team that took it. -/
theorem trapReport : Obligations.TrapReport := by
  intro s g x t h stew team r p
  have rest := s.stoppedAt_part g team.part x
  have result : s.takeTrap g t = _ := State.takeTrap_stewarded h stew
  refine ⟨fun user => ?_, fun steward => ?_⟩
  · have part : p = { (s.stoppedAt g x).part team.part with reports := ((s.stoppedAt g x).part team.part).reports ++ [r] } := by
      refine (congrArg (State.part · team.part) (result.trans (if_neg (Bool.eq_false_iff.1 user)))).trans ?_
      exact State.modPart_same ..
    rw [part]
    exact ⟨(congrArg (fun q : Partition => q.reports ++ [r]) rest :), (congrArg Partition.strap rest :)⟩
  · have part : p = ((s.stoppedAt g x).part team.part).struck g r :=
      (congrArg (State.part · team.part) (result.trans (if_pos steward))).trans (State.modPart_same ..)
    rw [part]
    exact ⟨rfl, rfl, (congrArg (fun q : Partition => q.msi ++ [0]) rest :), (congrArg Partition.reports rest :)⟩

end Sys2Proof.Machine

/-! What the instructions that work on registers alone leave of the machine (06/R88, R90, R92, 08/R138). -/
namespace Sys2Proof.Machine
open Sys2Proof Sys2Proof.Claims

/-- Main memory, its damage, the culverts, cohorts, clusters and ports are as they were, and everything but the group of the turn where
that runs on at its depth. -/
def KeepsMachine (s t : State) : Prop :=
  t.mem = s.mem ∧ t.damaged = s.damaged ∧ t.culverts = s.culverts ∧ t.cohorts = s.cohorts ∧ t.clusters = s.clusters
    ∧ t.outbox = s.outbox ∧ t.time = s.time ∧ t.ports = s.ports ∧ t.shares = s.shares
    ∧ (t.me.status = .running → t.me.depth = s.me.depth → t = { s with me := t.me })

/-- An effect changes the group of the turn alone, and not its depth; or it ends in a trap or a wait. -/
def LocalEffect (s : State) : Except Halt State → Prop
  | .ok s' => s' = { s with me := s'.me } ∧ s'.me.depth = s.me.depth
  | .error (.trap _) | .error (.wait _) => True
  | .error _ => False

/-- A trap after which its group runs on at the depth of before was no group's. -/
theorem State.takeTrap_turn (s : State) (t : Trap) (runs : (s.takeTrap s.meId t).me.status = .running)
    (same : (s.takeTrap s.meId t).me.depth = s.me.depth) : s.takeTrap s.meId t = s := by
  cases h : s.group? s.meId with
  | none => simp only [State.takeTrap, h]
  | some x =>
    obtain ⟨-, rfl⟩ := State.group?_me h
    have turn {y : Group} (found : (s.takeTrap s.meId t).group? s.meId = some y) : (s.takeTrap s.meId t).me = y :=
      (State.group?_me (s := s.takeTrap s.meId t) (by rwa [State.takeTrap_meId])).2
    cases route : s.me.toSteward (s.team s.me.team).steward t.kind with
    | false =>
      have flat : s.me.depth = false := by
        cases deep : s.me.depth with
        | false => rfl
        | true => rw [(Group.toSteward_iff ..).2 (.inl deep)] at route; cases route
      rw [turn (State.takeTrap_handled_group? h route), flat] at same
      exact absurd ((congrArg Group.depth (s.me.squashed.enterHandler_rest t) :).symm.trans same) Bool.true_eq_false.mp
    | true =>
      obtain ⟨y, found, seat⟩ := State.takeTrap_stewarded_group? h route
      rw [turn found] at runs
      exact Status.noConfusion (runs.symm.trans (congrArg Group.status seat :))

section
variable {s u : State} (local_ : u = { s with me := u.me })
include local_

theorem KeepsMachine.of_local : KeepsMachine s u := by
  rw [local_]
  exact ⟨rfl, rfl, rfl, rfl, rfl, rfl, rfl, rfl, rfl, fun _ _ => rfl⟩

theorem KeepsMachine.of_takeTrap (depth : u.me.depth = s.me.depth) (t : Trap) : KeepsMachine s (u.takeTrap u.meId t) := by
  obtain ⟨mem, damaged, culverts, cohorts, clusters, outbox, time, ports, shares, -⟩ := KeepsMachine.of_local local_
  refine ⟨(u.takeTrap_mem _ t).trans mem, (u.takeTrap_damaged _ t).trans damaged, (u.takeTrap_culverts _ t).trans culverts,
    (u.takeTrap_cohorts _ t).trans cohorts, (u.takeTrap_clusters _ t).trans clusters, (u.takeTrap_outbox _ t).trans outbox,
    (u.takeTrap_time _ t).trans time, (u.takeTrap_ports _ t).trans ports, (u.takeTrap_shares _ t).trans shares, fun runs same => ?_⟩
  rw [u.takeTrap_turn t runs (same.trans depth.symm)]
  exact local_

theorem KeepsMachine.of_retire (depth : u.me.depth = s.me.depth) (i : Instr) (act : BitVec 32) : KeepsMachine s (retire i act u) := by
  unfold retire
  simp only []
  split
  · refine KeepsMachine.of_local ?_
    rw [local_]
  · exact KeepsMachine.of_takeTrap (u := { u with me := (u.me.counted i).settled }) (by rw [local_]) depth _

end

theorem of_ite_error {s : State} {p : Prop} [Decidable p] {x y : Halt} {r : Except Halt Unit} (stop : LocalEffect s (.error y))
    (go : r = .error x → LocalEffect s (.error x)) : (if p then .error y else r) = .error x → LocalEffect s (.error x) := by
  split
  · rintro ⟨⟩; exact stop
  · exact go

/-- A check of the issue stops an instruction by a trap or a wait. -/
theorem issueCheck_halts {i : Instr} {info : Info} {f : Form} {bad : Bool} {s : State} {x : Halt} :
    issueCheck i info f bad s = .error x → LocalEffect s (.error x) := by
  unfold issueCheck
  refine of_ite_error trivial (of_ite_error trivial (of_ite_error trivial
    (of_ite_error trivial (of_ite_error trivial ?_))))
  split
  · rintro ⟨⟩; trivial
  · split
    · rintro ⟨⟩; trivial
    · refine of_ite_error trivial ?_
      split
      · rintro ⟨⟩; trivial
      · exact of_ite_error trivial nofun

/-- The outcome of a local effect: it completes, or its trap, a misaligned target's or a wait changes the group alone. -/
theorem settle_keepsMachine {i : Instr} {s t : State} {r : Except Halt State} (h : LocalEffect s r) (out : settle i s r = .next t) :
    KeepsMachine s t := by
  have trap (x : Trap) : KeepsMachine s (s.counted.takeTrap s.meId x) :=
    KeepsMachine.of_takeTrap (u := s.counted) rfl rfl x
  have wait (w : Wait) : KeepsMachine s { s with me := s.me.waitOn w s.time } := KeepsMachine.of_local rfl
  cases target : badTarget i s.me with
  | none =>
    simp only [settle, target] at out
    cases r with
    | ok u => cases out; exact KeepsMachine.of_retire h.1 h.2 i _
    | error x =>
      cases x with
      | trap => cases out; exact trap _
      | wait => cases out; exact wait _
      | fail | held | park => exact h.elim
  | some v =>
    simp only [settle, target] at out
    cases r with
    | ok u => cases out; exact trap _
    | error x =>
      cases x with
      | trap x =>
        cases rank : outranksMisaligned x.kind with
        | true => simp only [rank, if_true] at out; cases out; exact trap _
        | false => simp only [rank, Bool.false_eq_true, if_false, misaligned] at out; cases out; exact trap _
      | wait w =>
        cases w with
        | window => cases out; exact wait _
        | _ => cases out; exact trap _
      | fail | held | park => exact h.elim

theorem run_keepsMachine {i : Instr} {s t : State} {e : Info → Form → Except Halt State} (he : ∀ info f, LocalEffect s (e info f))
    (out : run i s e = .next t) : KeepsMachine s t := by
  unfold run runIf at out
  split at out
  · cases out; exact KeepsMachine.of_local rfl
  · refine settle_keepsMachine ?_ out
    split
    · exact issueCheck_halts ‹_›
    · exact he _ _

/-! ### The effects -/

section
variable {s : State} {g : Group}

theorem LocalEffect.of_group (depth : g.depth = s.me.depth) : LocalEffect s (.ok { s with me := g }) := ⟨rfl, depth⟩

theorem LocalEffect.setScalar (d : BitVec 8) (v : Word) : LocalEffect s (.ok (s.setScalar d v)) := .of_group (Group.setScalar_depth ..)

theorem LocalEffect.setPred (n : Nat) (v : BitVec 32) : LocalEffect s (.ok (s.setPred n v)) := .of_group (Group.setPred_depth ..)

end

/-- Every execution of an instruction has a local effect. -/
def LocalOnly (mk : Form → Instr) : Prop :=
  ∀ f s, ∃ e : Info → Form → Except Halt State, exec (mk f) s = run (mk f) s e ∧ ∀ info f, LocalEffect s (e info f)

section
variable {mk : Form → Instr}

theorem LocalOnly.scalarOp {op : Nat → Nat → Nat → Nat} (hx : ∀ f s, exec (mk f) s = scalarOp (mk f) s op) : LocalOnly mk :=
  fun f s => ⟨_, hx f s, fun _ _ => .setScalar ..⟩

theorem LocalOnly.minmaxOp {signed greater : Bool} (hx : ∀ f s, exec (mk f) s = minmaxOp (mk f) s signed greater) : LocalOnly mk :=
  fun f s => ⟨_, hx f s, fun _ _ => .setScalar ..⟩

theorem LocalOnly.predOp {op : BitVec 32 → BitVec 32 → BitVec 32} (hx : ∀ f s, exec (mk f) s = predOp (mk f) s op) : LocalOnly mk :=
  fun f s => ⟨_, hx f s, fun _ _ => .setPred ..⟩

theorem LocalOnly.fmOp {new : BitVec 32 → Word → BitVec 32} (hx : ∀ f s, exec (mk f) s = fmOp (mk f) s new) : LocalOnly mk :=
  fun f s => ⟨_, hx f s, fun _ _ => .of_group rfl⟩

theorem LocalOnly.scalar {v : Form → State → Info → Form → Word}
    (hx : ∀ f s, exec (mk f) s = run (mk f) s fun info f' => .ok (s.setScalar f'.d (v f s info f'))) : LocalOnly mk :=
  fun f s => ⟨_, hx f s, fun _ _ => .setScalar ..⟩

theorem LocalOnly.predicate {v : Form → State → Info → Form → BitVec 32}
    (hx : ∀ f s, exec (mk f) s = run (mk f) s fun info f' => .ok (s.setPred f'.d.toNat (v f s info f'))) : LocalOnly mk :=
  fun f s => ⟨_, hx f s, fun _ _ => .setPred ..⟩

end

theorem Group.setTrapReg_depth (g : Group) (k : Nat) (x : Word) : (g.setTrapReg k x).depth = g.depth := by
  unfold Group.setTrapReg
  split <;> rfl

theorem registerOnly_local : ∀ mk ∈ registerOnly, LocalOnly mk := by
  have lps : LocalOnly .lps := fun f s => ⟨_, exec_lps f s, fun _ f => by
    simp only []
    split
    · trivial
    · exact .of_group rfl⟩
  have npr : LocalOnly .npr := fun f s => ⟨_, exec_npr f s, fun _ _ => by
    split
    · exact .of_group rfl
    · exact .of_group rfl⟩
  have nop : LocalOnly .nop := fun f s => ⟨_, exec_nop f s, fun _ _ => .of_group rfl⟩
  have emset : LocalOnly .emset := fun f s => ⟨_, exec_emset f s, fun _ _ => .of_group (Group.setMask_depth ..)⟩
  have ffclr : LocalOnly .ffclr := fun f s => ⟨_, exec_ffclr f s, fun _ _ => .of_group rfl⟩
  have epr : LocalOnly .epr := fun f s => ⟨_, exec_epr f s, fun _ _ => .of_group rfl⟩
  have trw : LocalOnly .trw := fun f s => ⟨_, exec_trw f s, fun _ _ => .of_group (Group.setTrapReg_depth ..)⟩
  simp only [registerOnly, List.forall_mem_cons]
  exact ⟨nop, lps, .predOp exec_pmov, .predOp exec_pand, .predOp exec_por, .predOp exec_pxor, .predOp exec_pandn, .predOp exec_pnot,
    .scalar exec_pget, .predicate exec_pset, .scalar exec_emget, emset, .fmOp exec_fmt, .fmOp exec_fmtRnd, .fmOp exec_fmtAb,
    .fmOp exec_fmtFtz, .fmOp exec_fmtCbs, .fmOp exec_fmtTrp, .scalar exec_fmrd, .scalar exec_ffget, ffclr, .scalar exec_mov,
    .scalarOp exec_add, .scalarOp exec_sub, .scalarOp exec_mul, .scalarOp exec_mulh, .scalarOp exec_mulhu, .scalarOp exec_div,
    .scalarOp exec_divu, .scalarOp exec_rem, .scalarOp exec_remu, .scalarOp exec_and, .scalarOp exec_or, .scalarOp exec_xor,
    .scalarOp exec_andn, .scalarOp exec_shl, .scalarOp exec_shr, .scalarOp exec_sra, .scalarOp exec_rol, .minmaxOp exec_min,
    .minmaxOp exec_max, .minmaxOp exec_minu, .minmaxOp exec_maxu, .predicate exec_cmp, .scalar exec_sel, .scalar exec_clz,
    .scalar exec_ctz, .scalar exec_popc, .scalar exec_sxt, .scalar exec_zxt, .scalar exec_trr, trw, npr, epr, .scalar exec_qfree,
    List.forall_mem_nil _⟩

/-- Settles O55: each of these instructions runs over a local effect. -/
theorem registerOnlyFrame : Obligations.RegisterOnlyFrame := by
  intro mk listed f s t out
  obtain ⟨e, hx, effect⟩ := registerOnly_local mk listed f s
  exact run_keepsMachine effect (hx.symm.trans out)

end Sys2Proof.Machine

/-! `trap`, `tret` and the trap registers (08/R141, 10/R159-R162, 26/R390). -/
namespace Sys2Proof.Machine
open Sys2Proof Sys2Proof.Claims

/-! ### Block H comes back (08/R141) -/

theorem get_foldl_set {α : Type} (b : Nat) (d : α) (xs : List α) : ∀ (m : Map α) (k j : Nat),
    Map.get ((xs.zipIdx k).foldl (fun m x => m.set (b + x.2) x.1) m) (b + j) d =
      if k ≤ j ∧ j < k + xs.length then xs.getD (j - k) d else Map.get m (b + j) d := by
  induction xs with
  | nil => intro m k j; simp
  | cons x xs ih =>
    intro m k j
    rw [List.zipIdx_cons, List.foldl_cons, ih]
    rcases lt_trichotomy k j with below | rfl | above
    · have inner : k + 1 ≤ j ∧ j < k + 1 + xs.length ↔ k ≤ j ∧ j < k + (x :: xs).length := by simp only [List.length_cons]; omega
      simp only [inner, Map.get_set_other _ _ _ (show b + k ≠ b + j by omega)]
      rw [show j - k = j - (k + 1) + 1 by omega, List.getD_cons_succ]
    · simp
    · rw [if_neg (by omega), if_neg (by omega), Map.get_set_other _ _ _ (by omega)]

/-- Entries of a list stand at their keys after a block is put. -/
theorem get_putBlock {α : Type} (m : Map α) (b : Nat) (xs : List α) (d : α) {j : Nat} (h : j < xs.length) :
    Map.get (putBlock m b xs) (8 * b + j) d = xs.getD j d :=
  (get_foldl_set (8 * b) d xs m 0 j).trans (if_pos ⟨Nat.zero_le j, by rwa [Nat.zero_add]⟩)

theorem Group.unrelieve_rest (g : Group) : { g.unrelieve with relief := none, regs := [], pmap := [], splits := [] }
    = { g with relief := none, regs := [], pmap := [], splits := [] } := by
  unfold Group.unrelieve
  split <;> rfl

theorem Group.unrelieve_relief (g : Group) : g.unrelieve.relief = none := by
  unfold Group.unrelieve
  cases h : g.relief with
  | none => exact h
  | some _ => rfl

theorem Group.unrelieve_regs {g : Group} {r : Relief} (h : g.relief = some r) {j : Nat} (hj : j < r.regs.length) :
    g.unrelieve.regs.get (8 * r.block + j) .fresh = r.regs.getD j .fresh := by
  simp only [Group.unrelieve, h, get_putBlock _ _ _ _ hj]

theorem Group.unrelieve_entry {g : Group} {r : Relief} (h : g.relief = some r) {j : Nat} (hj : j < r.map.length) :
    g.unrelieve.entry (8 * r.block + j) = r.map.getD j 0 := by
  simp only [Group.unrelieve, Group.entry, h, get_putBlock _ _ _ _ hj]

theorem State.logArray_me (s : State) (p la ekind bank syms : Nat) (w : Who) : (s.logArray p la ekind bank syms w).me = s.me := by
  unfold State.logArray
  simp only []
  split <;> rfl

/-! ### `trap` -/

theorem Clear.of_trap {f : Form} {s : State} {info : Info} (row : (Instr.trap f).row = some (info, f))
    (admitted : issueCheck (.trap f) info f false s = .ok ()) : Clear (.trap f) info f s := by
  have opcode : (Instr.trap f).opcode = 0xE8 := rfl
  refine ⟨row, admitted, ?_⟩
  unfold badTarget
  simp only [opcode, bne_self_eq_false, Bool.and_false, Bool.false_eq_true, if_false]
  split <;> rfl

/-! ### `tret` -/

/-- The group of a `tret` as it returns from its handler (08/R141). -/
def Group.cameBack (g : Group) (f : Form) : Group := (g.counted (.tret f)).settled.returnTo (g.tepc.setWidth 52)

/-- What a return leaves beside block H and what was to land in it. -/
theorem Group.cameBack_rest (g : Group) (f : Form) :
    { g.cameBack f with relief := none, regs := [], pmap := [], splits := [] } = { (g.counted (.tret f)).settled with
      em := g.tem, rstack := g.setR, lstack := g.setL, setR := [], setL := [], depth := false, pc := g.tepc.setWidth 52
      relief := none, regs := [], pmap := [], splits := [] } := by
  unfold Group.cameBack Group.returnTo Group.unrelieve
  split <;> rfl

theorem State.modGroup_turn {s : State} (live : s.me.status ≠ .absent) (f : Group → Group) :
    s.modGroup s.meId f = { s with me := f s.me } := by
  simp [State.modGroup, State.group?, live, State.setGroup]

section
variable {f : Form} {s : State} {info : Info} (h : Clear (.tret f) info f s)
include h

theorem exec_tret_flat (flat : s.me.depth = false) :
    Traps (.tret f) s (trapOf (.tret f) s.me 6 (BitVec.ofNat 64 (Instr.tret f).firstWord)) := by
  simp only [Traps, exec_tret, execTret, h.row, h.admitted, flat, settle, h.target, illegal, Bool.not_false, if_true]

theorem exec_tret_damaged (deep : s.me.depth = true) (damage : s.spDamage.get (saveSlotKey s.meId) [] ≠ []) :
    ∃ (u : State) (t : Trap), exec (.tret f) s = .next (u.counted.takeTrap s.meId t) ∧ t.kind = 19 ∧ u.me = s.me := by
  have damage : (s.spDamage.get (saveSlotKey s.meId) []).isEmpty = false := by simpa using damage
  have target (t : State) (same : t.me = s.me) : badTarget (.tret f) t.me = none := by rw [same]; exact h.target
  simp only [exec_tret, execTret, h.row, h.admitted, deep, damage, settle, target _ (State.logArray_me ..), Bool.not_true,
    Bool.false_eq_true, if_false, Bool.not_false, if_true]
  exact ⟨_, _, rfl, rfl, rfl⟩

variable (deep : s.me.depth = true) (whole : s.spDamage.get (saveSlotKey s.meId) [] = [])
include deep whole

theorem exec_tret_whole : exec (.tret f) s =
    .next ({ s with me := (s.me.counted (.tret f)).settled }.comeBack s.meId (s.me.tepc.setWidth 52)) := by
  simp only [exec_tret, execTret, h.row, h.admitted, deep, whole, Bool.not_true, Bool.false_eq_true, if_false, List.isEmpty_nil]
  rfl

variable (live : s.me.status ≠ .absent)
include live

theorem exec_tret_aligned (aligned : s.me.tepc.toNat % 4 = 0) : exec (.tret f) s = .next { s with me := s.me.cameBack f } := by
  have fetches : (s.me.tepc.setWidth 52).toNat % 4 = 0 := (setWidth52_mod_four _).trans aligned
  rw [exec_tret_whole h deep whole, State.comeBack]
  exact congrArg Host.Outcome.next ((if_pos fetches).trans
    (State.modGroup_turn (s := { s with me := (s.me.counted (.tret f)).settled }) live _))

theorem exec_tret_misaligned (astray : s.me.tepc.toNat % 4 ≠ 0) : exec (.tret f) s = .next
    ({ s with me := s.me.cameBack f }.takeTrap s.meId
      (fetchTrap 7 4 ((s.me.tepc.setWidth 52).zeroExtend 64) ({ s with me := s.me.cameBack f }.group s.meId))) := by
  have faults : (s.me.tepc.setWidth 52).toNat % 4 ≠ 0 := (setWidth52_mod_four _).trans_ne astray
  have back : { s with me := (s.me.counted (.tret f)).settled }.modGroup s.meId (·.returnTo (s.me.tepc.setWidth 52))
      = { s with me := s.me.cameBack f } :=
    State.modGroup_turn (s := { s with me := (s.me.counted (.tret f)).settled }) live _
  rw [exec_tret_whole h deep whole, State.comeBack, back]
  exact congrArg Host.Outcome.next (if_neg faults)

end

theorem Group.setTrapReg_eq (g : Group) (v : Word) : ∀ k : Nat, g.setTrapReg k v = match k with
    | 0 => { g with tvec := v &&& 0x1FFF_FFFF_FFFF_FFFF }
    | 1 => { g with tcause := v &&& 0xFF_FFFF }
    | 2 => { g with tepc := v &&& 0xF_FFFF_FFFF_FFFF }
    | 3 => { g with tval := v &&& 0xFFFF_FFFF_FFFF_FFFF }
    | _ => { g with tlm := v &&& 0xFFFF_FFFF }
  | 0 | 1 | 2 | 3 | _ + 4 => rfl

/-- Settles O39: `tret` by the depth, the double errors of its save slots and its return address. -/
theorem trapInstructions : Obligations.TrapInstructions := by
  refine ⟨?trap, ?back, ?misaligned, ?damaged, ?flat, ?trr, ?trw⟩
  case trap =>
    intro f s info row admitted
    exact (exec_trap f s).trans (run_trap (Clear.of_trap row admitted) rfl)
  case back =>
    intro f s info h deep _ live whole aligned
    have rest := s.me.cameBack_rest f
    exact ⟨_, exec_tret_aligned h deep whole live aligned, rfl, (congrArg Group.em rest :), (congrArg Group.rstack rest :),
      (congrArg Group.lstack rest :), (congrArg Group.depth rest :), (congrArg Group.pc rest :), Group.unrelieve_relief _,
      (congrArg Group.fm rest :), (congrArg Group.ff rest :), (congrArg Group.sregs rest :),
      fun r relief j _ hj => Group.unrelieve_regs (g := (s.me.counted (.tret f)).settled) relief hj,
      fun r relief j _ hj => Group.unrelieve_entry (g := (s.me.counted (.tret f)).settled) relief hj, rfl, rfl⟩
  case misaligned =>
    intro f s info h deep _ live whole astray
    have rest := s.me.cameBack_rest f
    exact ⟨{ s with me := s.me.cameBack f }, _, exec_tret_misaligned h deep whole live astray, rfl, rfl, rfl, rfl,
      (congrArg Group.depth rest :), (congrArg Group.pc rest :), (congrArg Group.em rest :)⟩
  case damaged => exact fun f s info h deep damage => exec_tret_damaged h deep damage
  case flat => exact fun f s info h flat => ⟨_, exec_tret_flat h flat, rfl⟩
  case trr => exact fun f s info h => completes_of_run (exec_trr f s) h rfl
  case trw =>
    exact fun f s info h => completes_of_run (exec_trw f s) h
      (congrArg (fun g => Except.ok { s with me := g }) (s.me.setTrapReg_eq (s.me.scalar f.a) f.d.toNat))

end Sys2Proof.Machine

/-! Loads and stores of DRAM and scratchpad (06/R107-R110, 19/R303, R304). -/
namespace Sys2Proof.Machine
open Sys2Proof Sys2Proof.Claims

/-! ### The bytes of active lanes -/

/-- The offsets of the bytes of one lane. -/
def laneOffs (l : Nat) : List Nat := (List.range 4).map (4 * l + ·)

theorem filter_range_lanes (p : Nat → Bool) : ∀ n,
    (List.range (4 * n)).filter (fun o => p (o / 4)) = ((List.range n).filter p).flatMap laneOffs
  | 0 => rfl
  | n + 1 => by
    have row : (laneOffs n).filter (fun o => p (o / 4)) = if p n then laneOffs n else [] := by
      have same : ∀ o ∈ laneOffs n, p (o / 4) = p n := by
        intro o ho
        obtain ⟨j, hj, rfl⟩ := List.mem_map.1 ho
        have small := List.mem_range.1 hj
        rw [show (4 * n + j) / 4 = n by omega]
      rw [List.filter_congr same]
      cases p n
      · exact List.filter_false _
      · exact List.filter_true _
    rw [Nat.mul_succ, List.range_add, List.filter_append, filter_range_lanes p n, List.range_succ (n := n), List.filter_append,
      List.flatMap_append]
    refine congrArg _ (row.trans ?_)
    cases h : p n <;> simp [h]

theorem laneBytes_eq (act : BitVec 32) : laneBytes act = ((List.range 32).filter (laneOn act)).flatMap laneOffs :=
  filter_range_lanes (laneOn act) 32

theorem length_flatMap_laneOffs (ls : List Nat) : (ls.flatMap laneOffs).length = 4 * ls.length := by
  induction ls with
  | nil => rfl
  | cons l ls ih =>
    have row : (laneOffs l).length = 4 := by rw [laneOffs, List.length_map, List.length_range]
    rw [List.flatMap_cons, List.length_append, ih, List.length_cons, row]
    omega

theorem lt_of_laneOn {act : BitVec 32} {l : Nat} (on : laneOn act l = true) : l < 32 := BitVec.lt_of_getLsbD on

/-- A load finds the bytes of an active lane behind those of the active lanes below it. -/
theorem lanesOf_laneBytes {act : BitVec 32} {l : Nat} (on : laneOn act l = true) (g : Nat → Byte) :
    lanesOf act ((laneBytes act).map g) l = numOf ((List.range 4).map fun o => g (4 * l + o)) := by
  obtain ⟨k, hk⟩ : ∃ k, 32 = l + (k + 1) := ⟨31 - l, by have := lt_of_laneOn on; omega⟩
  have split : (List.range 32).filter (laneOn act)
      = (List.range l).filter (laneOn act) ++ l :: ((List.range k).map fun j => l + (j + 1)).filter (laneOn act) := by
    rw [hk, List.range_add, List.range_succ_eq_map, List.filter_append, List.map_cons, List.map_map, Nat.add_zero,
      List.filter_cons_of_pos on]
    rfl
  rw [lanesOf, laneBytes_eq, split, List.flatMap_append, List.flatMap_cons, List.map_append, List.map_append,
    List.drop_left' (by rw [List.length_map, length_flatMap_laneOffs]), List.take_left' (by simp [laneOffs]), laneOffs, List.map_map]
  rfl

/-! ### The write of what a load has read -/

/-- A write of a register depends on what its active lanes get alone. -/
theorem writeReg_congr {mask : BitVec 32} {lanes lanes' : Nat → Nat} (same : ∀ l, laneOn mask l = true → lanes l = lanes' l)
    (i : Instr) (s : State) (x : Spec) (scales : Nat → Nat) (first : Bool) :
    writeReg i s x (scaledWrite mask lanes scales) first = writeReg i s x (scaledWrite mask lanes' scales) first := by
  have onto (old : VReg) : (scaledWrite mask lanes scales).onto old = (scaledWrite mask lanes' scales).onto old := by
    have lane : (fun l => if laneOn mask l then lanes l else old.lane l) = fun l => if laneOn mask l then lanes' l else old.lane l :=
      funext fun l => by
        split
        · next on => exact same l on
        · rfl
    unfold VWrite.onto scaledWrite
    exact congrArg (VReg.ofLanes · _) lane
  unfold writeReg State.writeSlot
  simp only [onto]
  rfl

theorem loadVector_eq (i : Instr) (s : State) (f : Form) (act : BitVec 32) (g : Nat → Byte) :
    loadVector i s f act ((laneBytes act).map g)
      = writeReg i s (Spec.of f.d) (scaledWrite act (fun l => numOf ((List.range 4).map fun o => g (4 * l + o))) fun _ => 0x7F) true :=
  writeReg_congr (fun _ on => lanesOf_laneBytes on g) i s _ _ true

theorem loadVector_noLane (i : Instr) (s : State) (f : Form) :
    loadVector i s f 0 [] = writeReg i s (Spec.of f.d) (scaledWrite 0 (fun _ => 0) fun _ => 0x7F) true :=
  writeReg_congr (fun l on => absurd on (by simp [laneOn])) i s _ _ true

/-! ### Loads of DRAM -/

section
variable {i : Instr} {s : State} {va : Word} {n la : Nat} {sc : Bool}

theorem loadBytes_ok (h : Reaches s va n false la sc false false) {offs : List Nat} (inside : ∀ o ∈ offs, o < n) (scalar : Bool) :
    loadBytes i s va n offs scalar = .ok (offs.map fun o => Memory.read s.mem (la + o), s) := by
  obtain ⟨granted, early⟩ := h.fresh
  have place : translated i s va false = .ok (.ram la, sc, s) := by
    simp only [translated, granted, h.maps, Option.filter_none]
  simp only [loadBytes, early, place, h.ordered, h.plain.reached, h.plain.idle, (PlainRam.bytes h.plain _).readOffs_eq inside,
    Bool.not_true, Bool.false_eq_true, if_false]

end

section
variable {f : Form} {s s2 : State} {info : Info}

theorem ld_scalar {la : Nat} {sc : Bool} (h : Clear (.ld f) info f s) (scalar : f.type info.base ≠ .v)
    (reach : Reaches s (s.me.address f) (Ty.width (f.type info.base) / 8) false la sc false false) :
    Completes (.ld f) s (s.setScalar f.d (extended (f.type info.base)
      (BitVec.ofNat (Ty.width (f.type info.base)) (stored s la (Ty.width (f.type info.base) / 8))))) := by
  have kind : (f.type info.base == .v) = false := beq_false_of_ne scalar
  have size : accessSize (f.type info.base) = Ty.width (f.type info.base) / 8 := by
    simp only [accessSize, kind, Bool.false_eq_true, if_false]
  refine completes_of_run (exec_ld f s) h ?_
  simp only [kind, Bool.false_and, Bool.false_eq_true, if_false, size, globalCheck_ok reach.aligned reach.inSpace,
    loadBytes_ok reach (fun o => List.mem_range.1), loadScalar, extend_eq_extended, stored, readN_eq_map]

theorem ld_vector {la : Nat} {sc : Bool} (h : Clear (.ld f) info f s) (vector : f.type info.base = .v) (some : s.me.active f ≠ 0)
    (ready : destReady (.ld f) info f s = .ok ()) (reach : Reaches s (s.me.address f) 128 false la sc false false)
    (writes : writeReg (.ld f) s (Spec.of f.d)
      (scaledWrite (s.me.active f) (fun l => stored s (la + 4 * l) 4) fun _ => 0x7F) true = .ok s2) :
    Completes (.ld f) s s2 := by
  have size : accessSize .v = 128 := rfl
  refine completes_of_run (exec_ld f s) h ?_
  simp only [vector, beq_self_eq_true, Bool.true_and, beq_false_of_ne some, Bool.false_eq_true, if_false, if_true, size,
    globalCheck_ok reach.aligned reach.inSpace, loadBytes_ok reach (fun o ho => ((mem_laneBytes _ o).1 ho).1), ready, ranked, loadVector_eq,
    ← writes, stored, readN_eq_map, Nat.add_assoc]

theorem ld_noLane (h : Clear (.ld f) info f s) (vector : f.type info.base = .v) (none : s.me.active f = 0)
    (writes : writeReg (.ld f) s (Spec.of f.d) (scaledWrite 0 (fun _ => 0) fun _ => 0x7F) true = .ok s2) : Completes (.ld f) s s2 := by
  refine completes_of_run (exec_ld f s) h ?_
  simp only [vector, none, beq_self_eq_true, Bool.and_self, if_true, loadVector_noLane, writes]

end

/-- Settles O23: the bytes of plain DRAM are read as they stand, and those of an active lane make its word. -/
theorem globalLoad : Obligations.GlobalLoad :=
  ⟨fun _ _ _ _ _ h scalar reach => ld_scalar h scalar reach,
    fun _ _ _ _ _ _ h vector some ready reach writes => ld_vector h vector some ready reach writes,
    fun _ _ _ _ h vector none writes => ld_noLane h vector none writes⟩

/-! ### The bytes that a store leaves -/

theorem lastByte_append (cells more : List (Nat × Byte)) (a : Nat) :
    lastByte (cells ++ more) a = (lastByte more a).or (lastByte cells a) := by
  rw [lastByte, List.foldl_append, foldl_lastByte]
  rfl

theorem runCells_cons (la : Nat) (r : Nat × List Byte) (runs : List (Nat × List Byte)) :
    runCells la (r :: runs) = (r.2.zipIdx.map fun b => (la + r.1 + b.2, b.1)) ++ runCells la runs := List.flatMap_cons

theorem lastByte_ne_none {cells : List (Nat × Byte)} {c : Nat × Byte} (h : c ∈ cells) : lastByte cells c.1 ≠ none := by
  induction cells with
  | nil => nomatch h
  | cons d cells ih =>
    rw [lastByte_cons]
    rcases List.mem_cons.1 h with rfl | later
    · cases lastByte cells c.1 <;> simp
    · obtain ⟨b, hb⟩ := Option.ne_none_iff_exists'.1 (ih later)
      simp [hb]

theorem lastByte_lanes (v : VReg) (la a : Nat) (ls : List Nat) :
    lastByte (runCells la (ls.map fun l => (4 * l, bytesOf (v.lane l) 4))) a
      = if la ≤ a ∧ (a - la) / 4 ∈ ls then some (BitVec.ofNat 8 (v.lane ((a - la) / 4) / 256 ^ ((a - la) % 4))) else none := by
  induction ls with
  | nil => simp [runCells, lastByte]
  | cons l ls ih =>
    rw [List.map_cons, runCells_cons, lastByte_append, ih, lastByte_run, length_bytesOf]
    by_cases here : la + 4 * l ≤ a ∧ a < la + 4 * l + 4
    · have lane : (a - la) / 4 = l := by omega
      have offset : a - (la + 4 * l) = (a - la) % 4 := by omega
      have low : la ≤ a := by omega
      rw [if_pos here, offset, bytesOf_getElem? _ _ _ (Nat.mod_lt _ (by decide)), lane,
        if_pos (c := la ≤ a ∧ l ∈ l :: ls) ⟨low, List.mem_cons_self⟩]
      split <;> rfl
    · have other : la ≤ a → (a - la) / 4 ≠ l := fun low e => here (by omega)
      have same : (la ≤ a ∧ (a - la) / 4 ∈ l :: ls) ↔ (la ≤ a ∧ (a - la) / 4 ∈ ls) :=
        and_congr_right fun low => by rw [List.mem_cons, or_iff_right (other low)]
      rw [if_neg here, Option.or_none]
      simp only [same]

/-- The runs of a store leave at each address the byte that it stores there. -/
theorem lastByte_storeData (s : State) (f : Form) (t : Ty) (la a : Nat) :
    lastByte (runCells la (storeData s f t)) a
      = if la ≤ a ∧ a < la + accessSize t then storeByte s f t (a - la) else none := by
  unfold storeData storeByte accessSize
  by_cases vector : t = .v
  · have inside : (la ≤ a ∧ (a - la) / 4 ∈ (List.range 32).filter (laneOn (s.me.active f)))
        ↔ (la ≤ a ∧ a < la + 128) ∧ laneOn (s.me.active f) ((a - la) / 4) = true := by
      have small : la ≤ a → ((a - la) / 4 < 32 ↔ a < la + 128) := by omega
      rw [List.mem_filter, List.mem_range, and_assoc]
      exact and_congr_right fun low => by rw [small low]
    simp only [vector, beq_self_eq_true, if_true, laneRuns, lastByte_lanes, inside]
    by_cases range : la ≤ a ∧ a < la + 128 <;> simp [range]
  · have kind : (t == .v) = false := beq_false_of_ne vector
    simp only [kind, Bool.false_eq_true, if_false]
    have cells (bs : List Byte) : runCells la [(0, bs)] = bs.zipIdx.map fun b => (la + b.2, b.1) := List.append_nil _
    rw [cells, lastByte_run, length_bytesOf]
    by_cases range : la ≤ a ∧ a < la + Ty.width t / 8
    · rw [if_pos range, if_pos range, bytesOf_getElem? _ _ _ (by omega)]
    · rw [if_neg range, if_neg range]

/-- A store names no byte outside its access. -/
theorem storeData_inside {s : State} {f : Form} {t : Ty} {la : Nat} :
    ∀ c ∈ runCells la (storeData s f t), la ≤ c.1 ∧ c.1 < la + accessSize t := by
  intro c hc
  by_contra out
  exact lastByte_ne_none hc ((lastByte_storeData s f t la c.1).trans (if_neg out))

/-! ### What reading the sources keeps -/

/-- A state after pops of queues. -/
def State.popped (s t : State) : State := { s with me := { s.me with lqueues := t.me.lqueues }, culverts := t.culverts }

theorem popOne_popped {i : Instr} {s s1 : State} {n : Nat} (h : popOne i s n = .ok s1) : s1 = s.popped s1 := by
  unfold popOne at h
  dsimp only at h
  split at h
  · split at h
    · nomatch h
    · cases h; rfl
  · split at h
    · split at h <;> nomatch h
    · split at h
      · nomatch h
      · cases h; rfl

theorem popAll_popped {i : Instr} {s1 : State} {ns : List Nat} : ∀ {s : State}, popAll i s ns = .ok s1 → s1 = s.popped s1 := by
  induction ns with
  | nil => intro s h; cases h; rfl
  | cons n ns ih =>
    intro s h
    rw [popAll] at h
    split at h
    · nomatch h
    · next u e =>
      have first := popOne_popped e
      have rest := ih h
      rw [first] at rest
      exact rest

/-- Reading the sources moves the heads of queues alone. -/
theorem readSources_popped {i : Instr} {info : Info} {f : Form} {always : Bool} {s s1 : State}
    (h : readSources i info f always s = .ok s1) : s1 = s.popped s1 := by
  unfold readSources at h
  split at h
  · nomatch h
  · split at h
    · cases h; rfl
    · exact popAll_popped h

/-! ### Stores to DRAM -/

section
variable {s : State} {va : Word} {n la : Nat} {sc rel wide sys : Bool}

theorem storeRuns_ok (within : sys = true → wide = true) (h : Reaches s va n true la sc ((rel || sc) && wide) sys)
    {runs : List (Nat × List Byte)} (inside : ∀ c ∈ runCells la runs, la ≤ c.1 ∧ c.1 < la + n) (i : Instr) (scalar : Bool) :
    ∃ m, storeRuns i s va n runs scalar rel wide sys = .ok (s.moved (s.release (rel || sc) wide) m)
      ∧ ∀ a, Memory.read m a = (lastByte (runCells la runs) a).getD (Memory.read s.mem a) := by
  have acked := State.acknowledged_release within h.acked
  have plain := PlainRam.release h.plain (rel || sc) wide
  have whole := PlainRam.bytes plain ((s.release (rel || sc) wide).who (s.release (rel || sc) wide).me va 0)
  obtain ⟨m, writes, bytes⟩ := whole.writeRuns_eq plain.uncoded inside
  rw [s.release_mem] at bytes
  refine ⟨m, ?_, bytes⟩
  have place : translated i s va true = .ok (.ram la, sc, s) := by
    simp only [translated, h.fresh.1, h.maps, Option.filter_none]
  have read := whole.readOffs_eq (offs := []) nofun
  have moved : { s.release (rel || sc) wide with mem := m } = s.moved (s.release (rel || sc) wide) m := by
    rw [State.moved, ← s.release_sent]
  simp only [storeRuns, place, Bool.or_false, h.ordered, acked, ramOp, plain.reached, plain.idle, State.applyHome, homeReads, read, writes,
    Bool.not_true, Bool.false_eq_true, if_false, moved]
  rfl

end

section
variable {f : Form} {s s1 : State} {info : Info}

theorem st_writes {la : Nat} {sc : Bool} (h : Clear (.st f) info f s) (lanes : f.type info.base = .v → s.me.active f ≠ 0)
    (sources : readSources (.st f) info f false s = .ok s1)
    (reach : Reaches s (s.me.address f) (accessSize (f.type info.base)) true la sc ((f.releases || sc) && f.wide) f.sys) :
    ∃ s', Completes (.st f) s s' ∧ s'.me.regs = s.me.regs ∧ s'.me.sregs = s.me.sregs ∧ ∀ a, Memory.read s'.mem a =
      ((if la ≤ a ∧ a < la + accessSize (f.type info.base) then storeByte s f (f.type info.base) (a - la) else none).getD
        (Memory.read s.mem a)) := by
  obtain ⟨m, stores, bytes⟩ := storeRuns_ok (wide_of_sys f) reach (storeData_inside (s := s) (f := f)) (.st f) (f.type info.base != .v)
  have some : (f.type info.base == .v && s.me.active f == 0) = false := by
    rw [Bool.and_eq_false_iff]
    exact (Bool.eq_false_or_eq_true _).symm.imp id fun v => beq_false_of_ne (lanes (eq_of_beq v))
  have popped := readSources_popped sources
  refine ⟨s1.moved (s.release (f.releases || sc) f.wide) m, completes_of_run (exec_st f s) h ?_, ?_, ?_, fun a => ?_⟩
  · simp only [some, Bool.false_eq_true, if_false, globalCheck_ok reach.aligned reach.inSpace, stores, sources, ranked,
      readSources_moved _ m sources]
  · rw [popped]; rfl
  · rw [popped]; rfl
  · rw [← lastByte_storeData]
    exact bytes a

theorem st_noLane (h : Clear (.st f) info f s) (vector : f.type info.base = .v) (none : s.me.active f = 0)
    (returned : s.me.returned (f.releases && f.wide) = .ok ())
    (acked : (s.release f.releases f.wide).acknowledged f.releases f.sys = .ok ()) :
    Completes (.st f) s (s.release f.releases f.wide) := by
  refine completes_of_run (exec_st f s) h ?_
  simp only [vector, none, beq_self_eq_true, Bool.and_self, if_true, returned, acked]
  rfl

end

/-- Settles O24: what the runs of the store leave at each address, after the release that the store may be. -/
theorem globalStore : Obligations.GlobalStore :=
  ⟨fun _ _ _ _ _ _ h lanes sources reach => st_writes h lanes sources reach,
    fun _ s _ h vector none returned acked => ⟨_, st_noLane h vector none returned acked, s.release_mem ..,
      State.release_me (p := Group.regs) (fun _ _ _ => rfl) s _ _⟩⟩

/-! ### Scratchpad -/

theorem spReadN_eq_map (s : State) (t n : Nat) : ∀ x, s.spReadN t x n = (List.range n).map fun o => s.spRead t (x + o) := by
  induction n with
  | zero => exact fun _ => rfl
  | succ n ih =>
    intro x
    rw [State.spReadN, ih, List.range_succ_eq_map, List.map_cons, List.map_map]
    refine congrArg₂ _ rfl (List.map_congr_left fun o _ => ?_)
    rw [Function.comp, Nat.add_assoc, Nat.add_comm 1]

/-- A byte of scratchpad after a store is the last that the store writes there. -/
theorem State.spRead_spStore (t a : Nat) (cells : List (Nat × Byte)) (s : State) :
    (s.spStore t cells).spRead t a = (lastByte cells a).getD (s.spRead t a) := by
  rw [State.spStore, State.spRead_spHeal]
  induction cells generalizing s with
  | nil => rfl
  | cons c cells ih =>
    rw [List.foldl_cons, ih, lastByte_cons, State.spRead_spWrite]
    cases lastByte cells a
    · split <;> rfl
    · rfl

section
variable {f : Form} {s s1 s2 : State} {info : Info}

theorem scratchCheck_ok {i : Instr} {x : Word} {n : Nat} (aligned : x.toNat % n = 0) (region : s.myTeam.inRegion x.toNat n = true) :
    scratchCheck i s x n = .ok () := by
  simp only [scratchCheck, alignCheck, aligned, region, ne_eq, not_true_eq_false, if_false, if_true]

theorem spLoadGate_ok {i : Instr} {x : Nat} {bs : List Nat} (gate : gateBytes (s.gates s.me.team) bs = .go)
    (sound : s.spBadAt s.me.team bs = false) : spLoadGate i s x bs = .ok () := by
  simp only [spLoadGate, gate, sound, Bool.false_eq_true, if_false]

section
variable (h : Clear (.ldSp f) info f s) (aligned : (s.me.address f).toNat % accessSize (f.type info.base) = 0)
  (region : s.myTeam.inRegion (s.me.address f).toNat (accessSize (f.type info.base)) = true)
  (gate : gateBytes (s.gates s.me.team) (touchedBytes s.me f (f.type info.base) (s.me.address f).toNat) = .go)
  (sound : s.spBadAt s.me.team (touchedBytes s.me f (f.type info.base) (s.me.address f).toNat) = false)
include h aligned region gate sound

theorem ldSp_scalar (scalar : f.type info.base ≠ .v) : Completes (.ldSp f) s (s.setScalar f.d (extended (f.type info.base)
    (BitVec.ofNat (Ty.width (f.type info.base))
      (numOf (s.spReadN s.me.team (s.me.address f).toNat (accessSize (f.type info.base))))))) := by
  have kind : (f.type info.base == .v) = false := beq_false_of_ne scalar
  have bytes : (touchedBytes s.me f (f.type info.base) (s.me.address f).toNat).map (s.spRead s.me.team)
      = s.spReadN s.me.team (s.me.address f).toNat (accessSize (f.type info.base)) := by
    simp only [touchedBytes, kind, Bool.false_eq_true, if_false, List.map_map, spReadN_eq_map]
    rfl
  refine completes_of_run (exec_ldSp f s) h ?_
  simp only [kind, Bool.false_and, Bool.false_eq_true, if_false, scratchCheck_ok aligned region, spLoadGate_ok gate sound, loadScalar,
    extend_eq_extended, bytes]

theorem ldSp_vector (vector : f.type info.base = .v) (some : s.me.active f ≠ 0)
    (writes : writeReg (.ldSp f) s (Spec.of f.d) (scaledWrite (s.me.active f)
      (fun l => numOf (s.spReadN s.me.team ((s.me.address f).toNat + 4 * l) 4)) fun _ => 0x7F) true = .ok s2) :
    Completes (.ldSp f) s s2 := by
  have bytes : (touchedBytes s.me f (f.type info.base) (s.me.address f).toNat).map (s.spRead s.me.team)
      = (laneBytes (s.me.active f)).map fun o => s.spRead s.me.team ((s.me.address f).toNat + o) := by
    simp only [touchedBytes, vector, beq_self_eq_true, if_true, List.map_map]
    rfl
  refine completes_of_run (exec_ldSp f s) h ?_
  simp only [vector, beq_self_eq_true, Bool.true_and, beq_false_of_ne some, Bool.false_eq_true, if_false, if_true]
  rw [vector] at aligned region gate sound bytes
  simp only [scratchCheck_ok aligned region, spLoadGate_ok gate sound, bytes, loadVector_eq, ← writes, spReadN_eq_map, Nat.add_assoc]

end

theorem ldSp_noLane (h : Clear (.ldSp f) info f s) (vector : f.type info.base = .v) (none : s.me.active f = 0)
    (writes : writeReg (.ldSp f) s (Spec.of f.d) (scaledWrite 0 (fun _ => 0) fun _ => 0x7F) true = .ok s2) : Completes (.ldSp f) s s2 := by
  refine completes_of_run (exec_ldSp f s) h ?_
  simp only [vector, none, beq_self_eq_true, Bool.and_self, if_true, loadVector_noLane, writes]

theorem stSp_noLane (h : Clear (.stSp f) info f s) (vector : f.type info.base = .v) (none : s.me.active f = 0) :
    Completes (.stSp f) s s := by
  refine completes_of_run (exec_stSp f s) h ?_
  simp only [vector, none, beq_self_eq_true, Bool.and_self, if_true]

theorem stSp_writes (h : Clear (.stSp f) info f s) (lanes : f.type info.base = .v → s.me.active f ≠ 0)
    (aligned : (s.me.address f).toNat % accessSize (f.type info.base) = 0)
    (region : s.myTeam.inRegion (s.me.address f).toNat (accessSize (f.type info.base)) = true)
    (pass : storeGated (s.gates s.me.team) (touchedBytes s.me f (f.type info.base) (s.me.address f).toNat) = false)
    (sources : readSources (.stSp f) info f false s = .ok s1) :
    ∃ s', Completes (.stSp f) s s' ∧ SameMemory s s' ∧ ∀ a, s'.spRead s.me.team a =
      ((if (s.me.address f).toNat ≤ a ∧ a < (s.me.address f).toNat + accessSize (f.type info.base)
        then storeByte s f (f.type info.base) (a - (s.me.address f).toNat) else none).getD (s.spRead s.me.team a)) := by
  have some : (f.type info.base == .v && s.me.active f == 0) = false := by
    rw [Bool.and_eq_false_iff]
    exact (Bool.eq_false_or_eq_true _).symm.imp id fun v => beq_false_of_ne (lanes (eq_of_beq v))
  have popped := readSources_popped sources
  refine ⟨s1.spRuns s.me.team (s.me.address f).toNat (storeData s f (f.type info.base)), completes_of_run (exec_stSp f s) h ?_,
    fun a => ?_, fun a => ?_⟩
  · simp only [some, Bool.false_eq_true, if_false, scratchCheck_ok aligned region, sources, pass]
  · have kept : s1.mem = s.mem := by rw [popped]; rfl
    rw [State.spRuns, State.spStore_mem, kept]
  · have kept : s1.spRead s.me.team a = s.spRead s.me.team a := by rw [popped]; rfl
    rw [State.spRuns, State.spRead_spStore, ← lastByte_storeData, kept]
    rfl

end

/-- Settles O25: the bytes of scratchpad as the access finds them, or as the runs of the store leave them. -/
theorem scratchpadAccess : Obligations.ScratchpadAccess :=
  ⟨fun _ _ _ h aligned region gate sound => ⟨ldSp_scalar h aligned region gate sound,
      fun vector some _ writes => ldSp_vector h aligned region gate sound vector some writes⟩,
    fun _ _ _ _ h vector none writes => ldSp_noLane h vector none writes,
    fun _ _ _ h vector none => stSp_noLane h vector none,
    fun _ _ _ _ h lanes aligned region pass sources => stSp_writes h lanes aligned region pass sources⟩

end Sys2Proof.Machine

/-!
The turn is the same group's after every instruction that may stand in the window. The lemmas stand in the order of the definitions they
speak of: what a function leaves, and what a stop carries in its place.
-/
namespace Sys2Proof.Machine
open Sys2Proof Sys2Proof.Claims

/-! ### States whose turn is group g's -/

theorem foldl_meId {α : Type} {f : State → α → State} (h : ∀ s a, (f s a).meId = s.meId) (l : List α) (s : State) :
    (l.foldl f s).meId = s.meId := foldl_keeps f State.meId h l s

/-- A stop that carries a state leaves the turn with group g. -/
def Halt.InTurn (g : Nat) : Halt → Prop
  | .fail _ s | .held _ s | .park _ s => s.meId = g
  | _ => True

/-- The state of a result, or of the stop in its place, has the turn with group g. -/
def InTurnOf {α : Type} (g : Nat) (st : α → State) : Except Halt α → Prop
  | .ok x => (st x).meId = g
  | .error h => h.InTurn g

/-- The next state of an outcome, if it has one, has the turn with group g. -/
def NextInTurn (g : Nat) (o : Host.Outcome State Fault Refusal) : Prop := ∀ t, o = .next t → t.meId = g

theorem InTurnOf.ranked {α β : Type} {g : Nat} {st : α → State} {a : Except Halt α} {b : Except Halt β} (ha : InTurnOf g st a)
    (hb : ∀ e, b = .error e → e.InTurn g) : InTurnOf g st (ranked a b) := by
  fun_cases Machine.ranked a b <;> grind [InTurnOf]

theorem InTurnOf.of_error {α : Type} {g : Nat} {st : α → State} {r : Except Halt α} {e : Halt} (h : InTurnOf g st r)
    (he : r = .error e) : e.InTurn g := by
  subst he; exact h

theorem InTurnOf.of_ok {α : Type} {g : Nat} {st : α → State} {r : Except Halt α} {x : α} (h : InTurnOf g st r) (he : r = .ok x) :
    (st x).meId = g := by
  subst he; exact h

theorem InTurnOf.map {α β : Type} {g : Nat} {st : α → State} {st' : β → State} {f : α → β} {r : Except Halt α} (h : InTurnOf g st r)
    (hf : ∀ x, (st' (f x)).meId = (st x).meId) : InTurnOf g st' (r.map f) := by
  cases r with
  | ok x => exact (hf x).trans h
  | error e => exact h

/-! ### An instruction's outcome -/

theorem State.reportPark_meId (s : State) (g : Group) (t : Trap) (va : Word) (entry : Nat) : (s.reportPark g t va entry).meId = s.meId :=
  rfl

theorem State.park_meId (s : State) (t : Trap) (va : Word) (ins : Option Instr) (pos : Nat) (pc : VAddr) :
    (s.park t va ins pos pc).meId = s.meId := by
  grind [State.park, State.modCore_meId, State.reportPark_meId, State.fill_meId, State.takeTrap_meId]

theorem issueCheck_inTurn {i : Instr} {info : Info} {f : Form} {bad : Bool} {s : State} {e : Halt}
    (h : issueCheck i info f bad s = .error e) :
    e.InTurn s.meId := by
  have local_ := issueCheck_halts h
  cases e with
  | trap | wait => trivial
  | fail | held | park => exact local_.elim

theorem settle_inTurn {i : Instr} {s : State} {r : Except Halt State} (h : InTurnOf s.meId id r) : NextInTurn s.meId (settle i s r) := by
  fun_cases settle i s r <;> grind [InTurnOf, Halt.InTurn, NextInTurn, misaligned, retire_meId, State.takeTrap_meId, State.counted,
    State.park_meId]

theorem runIf_inTurn {i : Instr} {s : State} {bad : Info → Form → Bool} {e : Info → Form → Except Halt State}
    (he : ∀ info f, InTurnOf s.meId id (e info f)) : NextInTurn s.meId (runIf i s bad e) := by
  unfold runIf
  split
  · rintro t ⟨⟩; rfl
  · next info f _ =>
    refine settle_inTurn ?_
    split
    · exact issueCheck_inTurn ‹_›
    · exact he info f

theorem run_inTurn {i : Instr} {s : State} {e : Info → Form → Except Halt State} (he : ∀ info f, InTurnOf s.meId id (e info f)) :
    NextInTurn s.meId (run i s e) := runIf_inTurn he

theorem LocalEffect.inTurn {s : State} {r : Except Halt State} (h : LocalEffect s r) : InTurnOf s.meId id r := by
  cases r with
  | ok u => exact (congrArg State.meId h.1 :)
  | error e =>
    cases e with
    | trap | wait => trivial
    | fail | held | park => exact h.elim

theorem LocalOnly.inTurn {mk : Form → Instr} (h : LocalOnly mk) (f : Form) (s : State) : NextInTurn s.meId (exec (mk f) s) := by
  obtain ⟨e, hx, effect⟩ := h f s
  rw [hx]
  exact run_inTurn fun info f => (effect info f).inTurn

/-! ### Columns and their codes -/

theorem State.readOffs_meId {s t : State} {la : Nat} {w : Who} {offs : List Nat} {bs : List Byte} (e : s.readOffs la w offs = .ok (bs, t)) :
    t.meId = s.meId := by
  have kept := State.readOffs_keeps (p := State.meId) (fun _ _ _ => rfl) s la w offs
  rwa [e] at kept

theorem State.readOffs_error_meId {s t : State} {la o : Nat} {w : Who} {offs : List Nat} (e : s.readOffs la w offs = .error (o, t)) :
    t.meId = s.meId := by
  have kept := State.readOffs_keeps (p := State.meId) (fun _ _ _ => rfl) s la w offs
  rwa [e] at kept

theorem State.logArray_meId (s : State) (p la ekind bank syms : Nat) (w : Who) : (s.logArray p la ekind bank syms w).meId = s.meId :=
  State.logArray_keeps (p := State.meId) (fun _ _ _ => rfl) ..

theorem State.correct_meId (s : State) (p b col syms : Nat) (w : Who) : (s.correct p b col syms w).meId = s.meId :=
  State.correct_keeps (p := State.meId) (fun _ _ _ => rfl) ..

theorem State.meetBeat_meId {s t : State} {la : Nat} {w : Who} (e : s.meetBeat la w = some t) : t.meId = s.meId :=
  State.meetBeat_keeps (p := State.meId) (fun _ _ _ => rfl) e

theorem State.refuse_meId (s : State) (la : Nat) : (s.refuse la).meId = s.meId := State.refuse_keeps (p := State.meId) (fun _ _ _ => rfl) ..

theorem State.writeColumn_meId (s : State) (col : Nat) (bytes : List (Nat × Byte)) (w : Who) :
    (s.writeColumn col bytes w).meId = s.meId := by
  grind [State.writeColumn, State.meetBeat_meId, State.correct_meId, State.logArray_meId]

theorem State.mergeColumns_meId (w : Who) (cs : List Nat) (s : State) :
    (State.mergeColumns w cs s).2.meId = s.meId ∧ ∀ t ∈ (State.mergeColumns w cs s).1, t.meId = s.meId := by
  fun_induction State.mergeColumns w cs s <;> grind [State.meetBeat_meId, State.correct_meId, State.logArray_meId]

theorem State.writeCoded_meId (s : State) (z : Bool) (k : Nat) (cells : List (Nat × Byte)) (w : Who) :
    (s.writeCoded z k cells w).meId = s.meId := by
  have merged := fun cs => State.mergeColumns_meId w cs s
  unfold State.writeCoded
  dsimp only
  split
  · next t e => exact (congrArg (fun r : Option State × State => r.2.meId) e).symm.trans (merged _).1
  · next u t e =>
    have hu : u.meId = s.meId := (merged _).2 u (by rw [e]; rfl)
    split
    · next v b =>
      obtain ⟨c, -, hc⟩ := List.exists_of_findSome?_eq_some b
      exact (State.meetBeat_meId hc).trans hu
    · exact hu

theorem State.writeRuns_meId (s : State) (la : Nat) (w : Who) (runs : List (Nat × List Byte)) : (s.writeRuns la w runs).meId = s.meId := by
  unfold State.writeRuns State.writeRaw
  dsimp only
  rw [foldl_meId fun s b => s.writeCoded_meId .., foldl_meId fun s c => s.writeColumn_meId ..]

theorem State.applyHome_meId {s t : State} {la : Nat} {w : Who} {op : HomeOp} {bs : List Byte} (e : s.applyHome la w op = .ok (bs, t)) :
    t.meId = s.meId := by
  grind [State.applyHome, State.writeRuns_meId, State.readOffs_meId]

theorem State.applyHome_error_meId {s t : State} {la o : Nat} {w : Who} {op : HomeOp} (e : s.applyHome la w op = .error (o, t)) :
    t.meId = s.meId := by
  grind [State.applyHome, State.readOffs_error_meId]

/-! ### Accesses -/

theorem State.descStore_meId (s : State) (p off : Nat) (x : Word) : (s.descStore p off x).meId = s.meId := by
  grind [State.descStore, State.consStore, State.fieldStore, State.controlStore, State.modQueue, State.modPart_meId]

theorem State.sendWrite_meId (s : State) (g va la : Nat) (bs : List Byte) : (s.sendWrite g va la bs).meId = s.meId := State.modGroup_meId ..

theorem State.sendLine_meId (g : Nat) (s : State) (l : WcLine) : (s.sendLine g l).meId = s.meId :=
  foldl_meId (fun s _ => s.sendWrite_meId ..) _ _

theorem State.drainWc_meId (s : State) (g : Nat) : (s.drainWc g).meId = s.meId :=
  State.drainWc_keeps (p := State.meId) (fun _ _ _ _ _ => rfl) ..

theorem State.combineRuns_meId (s : State) (va la : Nat) (runs : List (Nat × List Byte)) : (s.combineRuns va la runs).meId = s.meId := by
  have combine (s : State) (va la : Nat) (b : Byte) : (s.combine va la b).meId = s.meId := by
    grind [State.combine, State.sendLine_meId]
  exact foldl_meId (fun s _ => foldl_meId (fun s _ => combine s ..) _ s) _ _

theorem State.release_meId (s : State) (rel wide : Bool) : (s.release rel wide).meId = s.meId := by
  grind [State.release, State.drainWc_meId]

theorem ask_inTurn (i : Instr) (s : State) (va : Word) (due : Nat) (mine : Map Byte) (send : Nat → Outgoing) (again : Bool) :
    InTurnOf s.meId (·.2) (ask i s va due mine send again) := by
  grind [ask, Halt.InTurn, InTurnOf]

theorem askRemote_inTurn (i : Instr) (s : State) (va : Word) (module la : Nat) (op : HomeOp) (again : Bool) :
    InTurnOf s.meId (·.2) (askRemote i s va module la op again) := ask_inTurn ..

theorem acknowledged_inTurn {s : State} {rel sys : Bool} {e : Halt} (h : s.acknowledged rel sys = .error e) : e.InTurn s.meId := by
  grind [State.acknowledged, Halt.InTurn]

theorem inOrder_inTurn {g : Group} {k : Home} {n m : Nat} {rel : Bool} {e : Halt} (h : g.inOrder k n rel = .error e) : e.InTurn m := by
  grind [Group.inOrder, Halt.InTurn]

theorem ramOp_inTurn (i : Instr) (s : State) (va : Word) (la n source : Nat) (op : HomeOp) :
    InTurnOf s.meId (·.2) (ramOp i s va la n source op) := by
  grind [ramOp, Halt.InTurn, InTurnOf, State.refuse_meId, State.applyHome_meId, State.applyHome_error_meId]

theorem State.lookup_meId (s : State) (p core va : Nat) (w : Who) : (s.lookup p core va w).2.meId = s.meId := by
  unfold State.lookup
  split
  · rfl
  · exact State.walk_keeps (p := State.meId) (fun _ _ _ => rfl) ..

theorem State.translate_meId (s : State) (p core va : Nat) (w : Who) (write fetch : Bool) :
    (s.translate p core va w write fetch).2.meId = s.meId := State.translate_keeps (p := State.meId) (fun _ _ _ => rfl) ..

theorem translated_inTurn (i : Instr) (s : State) (va : Word) (write : Bool) : InTurnOf s.meId (·.2.2) (translated i s va write) := by
  grind [translated, Halt.InTurn, InTurnOf, State.translate_meId]

theorem loadBytes_inTurn (i : Instr) (s : State) (va : Word) (n : Nat) (offs : List Nat) (scalar : Bool) :
    InTurnOf s.meId (·.2) (loadBytes i s va n offs scalar) := by
  have found := translated_inTurn i s va false
  fun_cases loadBytes i s va n offs scalar <;> grind [inOrder_inTurn, State.readOffs_meId, State.readOffs_error_meId, State.refuse_meId,
    ask_inTurn, askRemote_inTurn, InTurnOf, Halt.InTurn]

theorem storeRuns_inTurn (i : Instr) (s : State) (va : Word) (n : Nat) (runs : List (Nat × List Byte)) (scalar rel wide sys : Bool) :
    InTurnOf s.meId id (storeRuns i s va n runs scalar rel wide sys) := by
  have found := translated_inTurn i s va true
  fun_cases storeRuns i s va n runs scalar rel wide sys <;> grind [inOrder_inTurn, acknowledged_inTurn, ramOp_inTurn, askRemote_inTurn,
    State.release_meId, InTurnOf, Halt.InTurn, State.descStore_meId, State.modPart_meId, foldl_meId, State.combineRuns_meId,
    State.sendWrite_meId, InTurnOf.map]

theorem ringOp_meId (s : State) (w : Nat) (op : HomeOp) : (ringOp s w op).2.meId = s.meId := by
  cases op with
  | xrd wide clear => cases clear <;> rfl
  | _ => rfl

theorem homeAccess_inTurn (i : Instr) (s : State) (va : Word) (n : Nat) (op : HomeOp) (scalar rel wide sys : Bool) :
    InTurnOf s.meId (·.2) (homeAccess i s va n op scalar rel wide sys) := by
  have found := fun b => translated_inTurn i s va b
  fun_cases homeAccess i s va n op scalar rel wide sys <;> grind [inOrder_inTurn, acknowledged_inTurn, ramOp_inTurn, askRemote_inTurn,
    ask_inTurn, State.release_meId, State.drainWc_meId, InTurnOf, Halt.InTurn, ringOp_meId]

/-! ### Operands and destinations -/

theorem spFault_inTurn (i : Instr) (s : State) (x : Nat) : (spFault i s x).InTurn s.meId := State.logArray_meId ..

theorem slotGate_inTurn {info : Info} {s : State} {i : Instr} {f : Form} {e : Halt} (h : slotGate info s i f = .error e) :
    e.InTurn s.meId := by
  have keeps : ∀ (g : Except Halt Unit → Nat → Except Halt Unit) (ns : List Nat) (r : Except Halt Unit),
      (∀ r n, InTurnOf s.meId (fun _ => s) r → InTurnOf s.meId (fun _ => s) (g r n)) → InTurnOf s.meId (fun _ => s) r →
        InTurnOf s.meId (fun _ => s) (ns.foldl g r) := by
    intro g ns
    induction ns with
    | nil => exact fun _ _ hr => hr
    | cons n ns ih => exact fun r hg hr => ih _ hg (hg r n hr)
  have fault := fun x => spFault_inTurn i s x
  unfold slotGate at h
  have start : InTurnOf s.meId (fun _ => s) (.ok ()) := rfl
  exact InTurnOf.of_error (keeps _ _ _ (fun r n hr => by grind [InTurnOf, Halt.InTurn]) start) h

theorem popOne_inTurn (i : Instr) (s : State) (n : Nat) : InTurnOf s.meId id (popOne i s n) := by
  grind [popOne, Halt.InTurn, InTurnOf, State.modCulvert_meId]

theorem popAll_inTurn (i : Instr) (s : State) (ns : List Nat) : InTurnOf s.meId id (popAll i s ns) := by
  fun_induction popAll i s ns <;> grind [popOne_inTurn, InTurnOf]

theorem readSources_inTurn (i : Instr) (info : Info) (f : Form) (always : Bool) (s : State) :
    InTurnOf s.meId id (readSources i info f always s) := by
  grind [readSources, InTurnOf, slotGate_inTurn, popAll_inTurn]

theorem pushCulvert_inTurn (i : Instr) (s : State) (n : Nat) (v : VReg) : InTurnOf s.meId id (pushCulvert i s n v) := by
  grind [pushCulvert, Halt.InTurn, InTurnOf, State.modCulvert_meId]

theorem State.spStore_meId (s : State) (t : Nat) (ws : List (Nat × Byte)) : (s.spStore t ws).meId = s.meId := by
  have write (s : State) (w : Nat × Byte) : (s.spWrite t w.1 w.2).meId = s.meId := by
    grind [State.spWrite, State.modCohort_meId, State.setTeam_meId]
  have heal (s : State) (key : Nat) (whole : Nat → Bool) : (s.spHeal key whole).meId = s.meId := by grind [State.spHeal]
  rw [State.spStore, heal, foldl_meId write]

theorem State.writeSlot_meId (s : State) (t slot : Nat) (w : VWrite) : (s.writeSlot t slot w).meId = s.meId := by
  grind [State.writeSlot, State.spHeal, State.spStore_meId, State.modTeam_meId]

theorem writeReg_inTurn (i : Instr) (s : State) (x : Spec) (w : VWrite) (first : Bool) : InTurnOf s.meId id (writeReg i s x w first) := by
  fun_cases writeReg i s x w first <;> grind [Halt.InTurn, InTurnOf, State.writeSlot_meId, State.setBankReg, State.modPart_meId,
    pushCulvert_inTurn]

theorem destReady_inTurn {i : Instr} {info : Info} {f : Form} {s : State} {e : Halt} (h : destReady i info f s = .error e) :
    e.InTurn s.meId := by
  grind [destReady, pushCulvert_inTurn, InTurnOf]

theorem writeRange_inTurn (i : Instr) (s : State) (x : Spec) (j : Nat) (ws : List VWrite) : InTurnOf s.meId id (writeRange i s x j ws) := by
  fun_induction writeRange i s x j ws <;> grind [writeReg_inTurn, InTurnOf]

theorem State.raise_meId (s : State) (flags : Nat) : (s.raise flags).meId = s.meId := rfl

theorem fpFinish_inTurn (i : Instr) (info : Info) (f : Form) (g : Group) (s : State) (wide : Bool) (res : List FRes) :
    InTurnOf s.meId id (fpFinish i info f g s wide res) := by
  grind [fpFinish, Halt.InTurn, InTurnOf, State.raise_meId, writeRange_inTurn]

theorem cellBytes_inTurn (i : Instr) (f : Form) (base : Ty) (clear : Bool) (s : State) :
    InTurnOf s.meId (·.2) (cellBytes i f base clear s) := by
  grind [cellBytes, InTurnOf, homeAccess_inTurn]

theorem bankRow_inTurn (i : Instr) (s : State) (b : Nat) (x : Word) (store : Bool) : InTurnOf s.meId (·.2) (bankRow i s b x store) := by
  fun_cases bankRow i s b x store <;> grind [InTurnOf, Halt.InTurn, spanFault, misaligned, badAddress, State.lookup_meId]

theorem readRow_inTurn (i : Instr) (s : State) (x : Word) (la : Nat) (offs : List Nat) : InTurnOf s.meId (·.2) (readRow i s x la offs) := by
  grind [readRow, InTurnOf, Halt.InTurn, State.readOffs_meId, State.readOffs_error_meId]

/-! ### The instructions -/

/-- Every execution of an instruction leaves the turn where it was. -/
def StaysInTurn (mk : Form → Instr) : Prop := ∀ f s, NextInTurn s.meId (exec (mk f) s)

/-- The vector instructions on integers, lanes and scale bytes that may stand in the window. -/
def windowedInts : List (Form → Instr) :=
  [.vget, .vmov, .vaddInt, .vsubInt, .vmulInt, .vmulh, .vmad, .vand, .vor, .vxor, .vandn, .vshl, .vshr, .vsra, .vminInt, .vmaxInt,
    .vcmpInt, .vcmppInt, .vsel, .vshflIdx, .vshflUp, .vshflDn, .vshflXor, .vshflBc, .qswz, .vpack, .vunpack, .vclz, .vpopc, .vsclget,
    .vsclset]

/-- The vector instructions on floating-point numbers that may stand in the window. -/
def windowedFloats : List (Form → Instr) :=
  [.vaddFp, .vsubFp, .vmulFp, .vfma, .vminFp, .vmaxFp, .vcmpFp, .vcmppFp, .vabs, .vneg, .vcpsgn, .vrcp, .vrsq, .vsqrt, .vexp2, .vlog2,
    .vsin, .vcos, .vredAdd, .vredMin, .vredMax, .vcvt, .vseed, .vdot2, .vdot4, .vdot8, .vrint]

/-- The instructions on places, memory and power that may stand in the window. -/
def windowedPlaces : List (Form → Instr) :=
  [.cbld, .plc, .pgr, .ld, .xrd, .st, .ldSp, .stSp, .perf, .pwrqLvl, .pwrqGate, .pwrqWeir, .pwrqTherm, .nbld, .nbfma, .nbdot, .nbst]

section
variable {i : Instr} {s : State}

theorem elementOp_inTurn (op : Nat → Bool → Nat → Nat → Nat → Nat) : NextInTurn s.meId (elementOp i s op) := by
  refine run_inTurn fun info f => ?_
  grind [InTurnOf, writeReg_inTurn, readSources_inTurn, destReady_inTurn]

theorem laneOp_inTurn (op : Ty → Nat → Nat) : NextInTurn s.meId (laneOp i s op) := by
  refine run_inTurn fun info f => ?_
  grind [InTurnOf, writeReg_inTurn, readSources_inTurn, destReady_inTurn]

theorem shuffleOp_inTurn (sel : Nat → Nat → Nat) : NextInTurn s.meId (shuffleOp i s sel) := by
  refine run_inTurn fun info f => ?_
  grind [InTurnOf, writeReg_inTurn, readSources_inTurn, destReady_inTurn]

theorem sclOp_inTurn (write : BitVec 32 → VReg → VWrite) : NextInTurn s.meId (sclOp i s write) := by
  refine run_inTurn fun info f => ?_
  grind [InTurnOf, writeReg_inTurn, readSources_inTurn, destReady_inTurn]

theorem fpElem_inTurn (rounds : Bool) (op : Fmt → Nat → Nat → Nat → FRes) : NextInTurn s.meId (fpElem i s rounds op) := by
  refine runIf_inTurn fun info f => ?_
  grind [InTurnOf, fpFinish_inTurn, readSources_inTurn, destReady_inTurn]

theorem redOp_inTurn (rounds : Bool) (pad : FpNum) (opr : FpNum → FpNum → ExRes) : NextInTurn s.meId (redOp i s rounds pad opr) := by
  refine runIf_inTurn fun info f => ?_
  grind [InTurnOf, fpFinish_inTurn, readSources_inTurn, destReady_inTurn]

theorem dotOp_inTurn : NextInTurn s.meId (dotOp i s) := by
  refine runIf_inTurn fun info f => ?_
  grind [InTurnOf, fpFinish_inTurn, readSources_inTurn, destReady_inTurn]

theorem powerQuery_inTurn (word : Nat → Word) : NextInTurn s.meId (powerQuery i s word) := by
  refine runIf_inTurn fun info f => ?_
  grind [InTurnOf, Halt.InTurn, illegal, State.setScalar_meId]

end

theorem vmov_inTurn : StaysInTurn .vmov := by
  intro f s
  rw [exec_vmov]
  refine run_inTurn fun info f => ?_
  grind [InTurnOf, writeReg_inTurn, readSources_inTurn, destReady_inTurn]

theorem qswz_inTurn : StaysInTurn .qswz := by
  intro f s
  rw [exec_qswz]
  refine run_inTurn fun info f => ?_
  grind [InTurnOf, writeReg_inTurn, readSources_inTurn, destReady_inTurn]

theorem vsclset_inTurn : StaysInTurn .vsclset := by
  intro f s
  rw [exec_vsclset]
  refine run_inTurn fun info f => ?_
  grind [InTurnOf, writeReg_inTurn, readSources_inTurn, destReady_inTurn]

theorem vcmppInt_inTurn : StaysInTurn .vcmppInt := by
  intro f s
  rw [exec_vcmppInt]
  refine run_inTurn fun info f => ?_
  grind [InTurnOf, State.setPred_meId, readSources_inTurn]

theorem vget_inTurn : StaysInTurn .vget := by
  intro f s
  rw [exec_vget]
  refine run_inTurn fun info f => ?_
  grind [InTurnOf, State.setScalar_meId, readSources_inTurn]

theorem vcmppFp_inTurn : StaysInTurn .vcmppFp := by
  intro f s
  rw [exec_vcmppFp]
  refine run_inTurn fun info f => ?_
  grind [InTurnOf, Halt.InTurn, State.setPred_meId, State.raise_meId, readSources_inTurn]

theorem vseed_inTurn : StaysInTurn .vseed := by
  intro f s
  rw [exec_vseed]
  refine run_inTurn fun info f => ?_
  grind [InTurnOf, Halt.InTurn, readSources_inTurn]

theorem cbld_inTurn : StaysInTurn .cbld := by
  intro f s
  rw [exec_cbld]
  refine run_inTurn fun info f => ?_
  grind [InTurnOf, Halt.InTurn, readSources_inTurn]

theorem perf_inTurn : StaysInTurn .perf := by
  intro f s
  rw [exec_perf]
  refine run_inTurn fun info f => ?_
  grind [InTurnOf, readSources_inTurn]

theorem State.stepSeeds_meId (s : State) (m : BitVec 32) (n : Nat) : (s.stepSeeds m n).meId = s.meId := rfl

theorem vcvt_inTurn : StaysInTurn .vcvt := by
  intro f s
  rw [exec_vcvt]
  unfold execVcvt
  extract_lets src dst
  refine runIf_inTurn fun info f => ?_
  have sources := readSources_inTurn (.vcvt f) info f false s
  dsimp only
  split
  · exact sources.of_error ‹_›
  · next s1 read =>
    have turn : s1.meId = s.meId := sources.of_ok read
    split
    · next e ready => exact turn ▸ destReady_inTurn ready
    · repeat' split
      all_goals grind [writeRange_inTurn, State.raise_meId, State.stepSeeds_meId, InTurnOf, Halt.InTurn]

theorem State.freeSlot_meId (s : State) (p : Nat) (e : BitVec 32) : (s.freeSlot p e).meId = s.meId := by
  grind [State.freeSlot, State.ownBank, State.modPart_meId]

theorem plc_inTurn : StaysInTurn .plc := by
  intro f s
  rw [exec_plc]
  refine run_inTurn fun info f => ?_
  have fault := fun x => spFault_inTurn (.plc f) s x
  dsimp only
  repeat' split
  all_goals grind [InTurnOf, Halt.InTurn, placeFault, State.freeSlot_meId, State.ownBank, State.modPart_meId, State.writeSlot_meId,
    State.setBankReg]

theorem State.gateRequest_meId (s : State) (c : Nat) : (s.gateRequest c).2.meId = s.meId := by
  have gate : (s.gateIsland c).meId = s.meId := rfl
  grind [State.gateRequest, State.modCore_meId]

theorem pgr_inTurn : StaysInTurn .pgr := by
  intro f s
  rw [exec_pgr]
  refine runIf_inTurn fun info f => ?_
  grind [InTurnOf, Halt.InTurn, illegal, State.setScalar_meId, State.gateRequest_meId]

theorem globalCheck_inTurn {i : Instr} {g : Group} {x : Word} {n m : Nat} {e : Halt} (h : globalCheck i g x n = .error e) : e.InTurn m := by
  grind [globalCheck, alignCheck, misaligned, badAddress, Halt.InTurn]

theorem scratchCheck_inTurn {i : Instr} {s : State} {x : Word} {n m : Nat} {e : Halt} (h : scratchCheck i s x n = .error e) :
    e.InTurn m := by
  grind [scratchCheck, alignCheck, misaligned, badAddress, Halt.InTurn]

theorem spLoadGate_inTurn {i : Instr} {s : State} {x : Nat} {bs : List Nat} {e : Halt} (h : spLoadGate i s x bs = .error e) :
    e.InTurn s.meId := by
  grind [spLoadGate, Halt.InTurn, spFault_inTurn]

theorem loadVector_inTurn (i : Instr) (s : State) (f : Form) (act : BitVec 32) (bs : List Byte) :
    InTurnOf s.meId id (loadVector i s f act bs) := writeReg_inTurn ..

theorem ld_inTurn : StaysInTurn .ld := by
  intro f s
  rw [exec_ld]
  refine run_inTurn fun info f => ?_
  have bytes := fun a b c d => loadBytes_inTurn (.ld f) s a b c d
  have ready := fun a b c d => (bytes a b c d).ranked (b := destReady (.ld f) info f s) fun _ => destReady_inTurn
  dsimp only
  repeat' split
  all_goals grind [InTurnOf, globalCheck_inTurn, loadVector_inTurn, loadScalar, State.setScalar_meId]

theorem st_inTurn : StaysInTurn .st := by
  intro f s
  rw [exec_st]
  refine run_inTurn fun info f => ?_
  have own : ∀ e, readSources (.st f) info f false s = .error e → e.InTurn s.meId := fun e => (readSources_inTurn ..).of_error
  have stored := fun a b c d e g k => (storeRuns_inTurn (.st f) s a b c d e g k).ranked own
  dsimp only
  split
  · split
    · next stop => grind [Group.returned, InTurnOf, Halt.InTurn]
    · refine InTurnOf.map (st := fun _ => s.release f.releases f.wide) ?_ fun _ => rfl
      grind [State.acknowledged, State.release_meId, InTurnOf, Halt.InTurn]
  · split
    · exact globalCheck_inTurn ‹_›
    · split
      · exact (stored _ _ _ _ _ _ _).of_error ‹_›
      · next u found =>
        have turn : u.meId = s.meId := (stored _ _ _ _ _ _ _).of_ok found
        exact turn ▸ readSources_inTurn ..

theorem ldSp_inTurn : StaysInTurn .ldSp := by
  intro f s
  rw [exec_ldSp]
  refine run_inTurn fun info f => ?_
  grind [InTurnOf, loadScalar, State.setScalar_meId, loadVector_inTurn, scratchCheck_inTurn, spLoadGate_inTurn]

theorem stSp_inTurn : StaysInTurn .stSp := by
  intro f s
  rw [exec_stSp]
  refine run_inTurn fun info f => ?_
  grind [InTurnOf, Halt.InTurn, scratchCheck_inTurn, State.spRuns, State.spStore_meId, readSources_inTurn]

theorem nbld_inTurn : StaysInTurn .nbld := by
  intro f s
  rw [exec_nbld]
  refine run_inTurn fun info f => ?_
  grind [InTurnOf, Halt.InTurn, bankRow_inTurn, readRow_inTurn, loadVector_inTurn]

theorem nbfma_inTurn : StaysInTurn .nbfma := by
  intro f s
  rw [exec_nbfma]
  refine runIf_inTurn fun info f => ?_
  grind [InTurnOf, Halt.InTurn, bankRow_inTurn, readRow_inTurn, fpFinish_inTurn, readSources_inTurn]

theorem nbdot_inTurn : StaysInTurn .nbdot := by
  intro f s
  rw [exec_nbdot]
  refine runIf_inTurn fun info f => ?_
  grind [InTurnOf, Halt.InTurn, bankRow_inTurn, readRow_inTurn, fpFinish_inTurn, readSources_inTurn]

theorem nbst_inTurn : StaysInTurn .nbst := by
  intro f s
  rw [exec_nbst]
  refine run_inTurn fun info f => ?_
  grind [InTurnOf, Halt.InTurn, bankRow_inTurn, State.writeRuns_meId]

theorem xrd_inTurn : StaysInTurn .xrd := by
  intro f s
  rw [exec_xrd, execXrd]
  refine runIf_inTurn fun info f => ?_
  grind [InTurnOf, globalCheck_inTurn, cellBytes_inTurn, State.raise_meId, State.setScalar_meId]

section
variable {mk : Form → Instr}

theorem StaysInTurn.elementOp {op : Form → State → Nat → Bool → Nat → Nat → Nat → Nat}
    (hx : ∀ f s, exec (mk f) s = elementOp (mk f) s (op f s)) : StaysInTurn mk := fun f s => hx f s ▸ elementOp_inTurn (op f s)

theorem StaysInTurn.shuffleOp {sel : Form → State → Nat → Nat → Nat} (hx : ∀ f s, exec (mk f) s = shuffleOp (mk f) s (sel f s)) :
    StaysInTurn mk := fun f s => hx f s ▸ shuffleOp_inTurn (sel f s)

theorem StaysInTurn.laneOp {op : Ty → Nat → Nat} (hx : ∀ f s, exec (mk f) s = laneOp (mk f) s op) : StaysInTurn mk :=
  fun f s => hx f s ▸ laneOp_inTurn op

theorem StaysInTurn.fpElem {rounds : Bool} {op : Form → State → Fmt → Nat → Nat → Nat → FRes}
    (hx : ∀ f s, exec (mk f) s = fpElem (mk f) s rounds (op f s)) : StaysInTurn mk := fun f s => hx f s ▸ fpElem_inTurn rounds (op f s)

theorem StaysInTurn.redOp {rounds : Bool} {pad : FpNum} {opr : State → FpNum → FpNum → ExRes}
    (hx : ∀ f s, exec (mk f) s = redOp (mk f) s rounds pad (opr s)) : StaysInTurn mk :=
  fun f s => hx f s ▸ redOp_inTurn rounds pad (opr s)

theorem StaysInTurn.dotOp (hx : ∀ f s, exec (mk f) s = dotOp (mk f) s) : StaysInTurn mk := fun f s => hx f s ▸ dotOp_inTurn

theorem StaysInTurn.powerQuery {word : State → Nat → Word} (hx : ∀ f s, exec (mk f) s = powerQuery (mk f) s (word s)) : StaysInTurn mk :=
  fun f s => hx f s ▸ powerQuery_inTurn (word s)

end

theorem windowedInts_inTurn : ∀ mk ∈ windowedInts, StaysInTurn mk := by
  have vsclget : StaysInTurn .vsclget := fun f s => by
    rw [exec_vsclget]
    exact sclOp_inTurn _
  simp only [windowedInts, List.forall_mem_cons]
  exact ⟨vget_inTurn, vmov_inTurn, .elementOp exec_vaddInt, .elementOp exec_vsubInt, .elementOp exec_vmulInt, .elementOp exec_vmulh,
    .elementOp exec_vmad, .elementOp exec_vand, .elementOp exec_vor, .elementOp exec_vxor, .elementOp exec_vandn, .elementOp exec_vshl,
    .elementOp exec_vshr, .elementOp exec_vsra, .elementOp exec_vminInt, .elementOp exec_vmaxInt, .elementOp exec_vcmpInt, vcmppInt_inTurn,
    .elementOp exec_vsel, .shuffleOp exec_vshflIdx, .shuffleOp exec_vshflUp, .shuffleOp exec_vshflDn, .shuffleOp exec_vshflXor,
    .shuffleOp exec_vshflBc, qswz_inTurn, .laneOp exec_vpack, .laneOp exec_vunpack, .elementOp exec_vclz, .elementOp exec_vpopc, vsclget,
    vsclset_inTurn, List.forall_mem_nil _⟩

theorem windowedFloats_inTurn : ∀ mk ∈ windowedFloats, StaysInTurn mk := by
  simp only [windowedFloats, List.forall_mem_cons]
  exact ⟨.fpElem exec_vaddFp, .fpElem exec_vsubFp, .fpElem exec_vmulFp, .fpElem exec_vfma, .fpElem exec_vminFp, .fpElem exec_vmaxFp,
    .fpElem exec_vcmpFp, vcmppFp_inTurn, .fpElem exec_vabs, .fpElem exec_vneg, .fpElem exec_vcpsgn, .fpElem exec_vrcp, .fpElem exec_vrsq,
    .fpElem exec_vsqrt, .fpElem exec_vexp2, .fpElem exec_vlog2, .fpElem exec_vsin, .fpElem exec_vcos, .redOp exec_vredAdd,
    .redOp exec_vredMin, .redOp exec_vredMax, vcvt_inTurn, vseed_inTurn, .dotOp exec_vdot2, .dotOp exec_vdot4, .dotOp exec_vdot8,
    .fpElem exec_vrint, List.forall_mem_nil _⟩

theorem windowedPlaces_inTurn : ∀ mk ∈ windowedPlaces, StaysInTurn mk := by
  simp only [windowedPlaces, List.forall_mem_cons]
  exact ⟨cbld_inTurn, plc_inTurn, pgr_inTurn, ld_inTurn, xrd_inTurn, st_inTurn, ldSp_inTurn, stSp_inTurn, perf_inTurn,
    .powerQuery exec_pwrqLvl, .powerQuery exec_pwrqGate, .powerQuery exec_pwrqWeir, .powerQuery exec_pwrqTherm, nbld_inTurn, nbfma_inTurn,
    nbdot_inTurn, nbst_inTurn, List.forall_mem_nil _⟩

theorem joinArrival_inTurn (s : State) : NextInTurn s.meId (exec .joinArrival s) := by
  rintro t ⟨⟩
  unfold State.joinCheck
  split
  · rfl
  · rfl
  · exact State.takeTrap_meId ..

/-! ### The window -/

/-- What may stand in the window has its meaning from the execution of one of the listed instructions, or of a join check. -/
theorem meaning_listed {i : Instr} {run : State → Host.Outcome State Fault Refusal} (h : meaning i = some run) :
    run = exec i ∧ (i = .joinArrival ∨ ∃ f mk, i = mk f ∧
      (mk ∈ registerOnly ∨ mk ∈ windowedInts ∨ mk ∈ windowedFloats ∨ mk ∈ windowedPlaces)) := by
  cases i <;> simp only [meaning, Option.some.injEq, reduceCtorEq] at h <;> subst h
  case joinArrival => exact ⟨rfl, .inl rfl⟩
  all_goals exact ⟨rfl, .inr ⟨_, _, rfl, by
    simp only [registerOnly, windowedInts, windowedFloats, windowedPlaces, List.mem_cons, true_or, or_true]⟩⟩

theorem meaning_inTurn {i : Instr} {run : State → Host.Outcome State Fault Refusal} (h : meaning i = some run) (s : State) :
    NextInTurn s.meId (run s) := by
  obtain ⟨rfl, rfl | ⟨f, mk, rfl, core | int | float | place⟩⟩ := meaning_listed h
  · exact joinArrival_inTurn s
  · exact (registerOnly_local mk core).inTurn f s
  · exact windowedInts_inTurn mk int f s
  · exact windowedFloats_inTurn mk float f s
  · exact windowedPlaces_inTurn mk place f s

theorem State.asReduced_inTurn {s : State} {run : State → Host.Outcome State Fault Refusal} (h : ∀ t, NextInTurn t.meId (run t))
    (reduced : Bool) : NextInTurn s.meId (s.asReduced reduced run) := by
  unfold State.asReduced
  cases reduced with
  | false => exact h s
  | true =>
    have served := h (s.modPart s.myPart fun x => { x with service := 1 })
    simp only [if_true]
    split
    · next r out =>
      rintro t ⟨⟩
      exact served r out
    · next other => exact fun t out => absurd out (other t)

theorem WinEntry.effect_inTurn {w : WinEntry} {run : State → Host.Outcome State Fault Refusal} (h : w.effect = some run) (s : State) :
    NextInTurn s.meId (run s) := by
  unfold WinEntry.effect at h
  split at h
  · cases h
    rintro t ⟨⟩
    exact (retire_meId ..).trans (State.setScalar_meId ..)
  · obtain ⟨run, hrun, rfl⟩ := Option.map_eq_some_iff.1 h
    exact State.asReduced_inTurn (meaning_inTurn hrun) _

theorem nearRead_inTurn (i : Instr) (f : Form) (x : Word) (offs : List Nat) (s : State) :
    InTurnOf s.meId (·.2) (nearRead i f x offs s) := by
  grind [nearRead, InTurnOf, bankRow_inTurn, readRow_inTurn]

theorem memRead_inTurn {i : Instr} {read : State → Except Halt (List Byte × State)} (h : memRead i = some read) (s : State) :
    InTurnOf s.meId (·.2) (read s) := by
  cases i <;> simp only [memRead, Option.some.injEq, reduceCtorEq] at h <;> subst h
  case ld f =>
    dsimp only
    split
    · exact rfl
    · exact loadBytes_inTurn ..
  case nbld f => exact nearRead_inTurn ..
  case nbfma f => exact nearRead_inTurn ..
  case nbdot f => exact nearRead_inTurn ..
  case xrd f => exact cellBytes_inTurn ..

end Sys2Proof.Machine

/-! Issue ahead, completion and commit of the place window (08/R121-R127, R145). -/
namespace Sys2Proof.Machine
open Sys2Proof Sys2Proof.Claims

/-- A step of the group of the turn that leaves it its turn. -/
theorem State.asGroup_me {s : State} {f : State → State} (named : s.meId ≠ 0) (turn : (f s).meId = s.meId) : s.asGroup s.meId f = f s := by
  have own : s.turn s.meId = s := if_pos rfl
  have kept : (f s).turn s.meId = f s := if_pos turn.symm
  simp only [State.asGroup, own, if_neg named, kept]

/-! ### Completion (08/R121, R124, R145) -/

theorem completion_eq {s t : State} {n : Nat} (named : s.meId ≠ 0) (e : s.complete n = t) (turn : t.meId = s.meId) :
    exec (.instructionCompletion s.meId n) s = .next t := by
  rw [exec_instructionCompletion, execInstructionCompletion, State.asGroup_me named (e ▸ turn), e]

section
variable {s r t : State} {n : Nat} {w : WinEntry} {late : List WinEntry} {lost : Option (List Nat)}
  {run : State → Host.Outcome State Fault Refusal} (entry : s.me.win[n]? = some w)
  (before : State.ahead (s.me.win.take n) (some []) s.bare = (t, late, lost))
include entry before

/-- What an instruction reads is not known from those before it. -/
theorem complete_unknown (unknown : meetsKeys lost (t.me.readKeys w.ins w.va) = true) : s.complete n = s := by
  simp only [State.complete, entry, before, unknown, Bool.or_true, if_true]

variable (may : (s.me.status == .running) = true) (fresh : w.done = false) (known : meetsKeys lost (t.me.readKeys w.ins w.va) = false)
  (effect : w.effect = some run) (out : run { t with me := w.seen t.me } = .next r)
include may fresh known effect out

section
variable (passed : (w.seen t.me).passed r.me = true)
include passed

/-- An instruction that has gone by has read nothing, or went elsewhere than it was to. -/
theorem complete_withoutRead (unread : memRead w.ins = none ∨ r.me.pc ≠ w.next) : s.complete n = marked s n none := by
  simp only [State.complete, entry, before, known, effect, out, passed, fresh, may, Bool.or_false, Bool.true_or, Bool.not_true,
    Bool.false_eq_true, if_false, if_true]
  rcases unread with none | elsewhere
  · simp only [none]
    rfl
  · cases memRead w.ins with
    | none => rfl
    | some read => exact if_pos elsewhere

variable {read : State → Except Halt (List Byte × State)} (loads : memRead w.ins = some read) (next : r.me.pc = w.next)
include loads next

/-- A load whose turn to read has not come. -/
theorem complete_readsLater (later : s.me.readsNext n (State.acquires { t with me := w.seen t.me } w.ins) = false) : s.complete n = s := by
  simp only [State.complete, entry, before, known, effect, out, passed, fresh, may, loads, next, later, Bool.or_false, Bool.true_or,
    Bool.not_true, Bool.not_false, ne_eq, not_true_eq_false, Bool.false_eq_true, if_false, if_true]

variable {bs : List Byte} {u : State} (first : s.me.readsNext n (State.acquires { t with me := w.seen t.me } w.ins) = true)
  (finds : read { t with me := w.seen t.me } = .ok (bs, u))
include first finds

theorem complete_reads (kept : u.me.wc = (w.seen t.me).wc) :
    s.complete n = { s.meets (w.seen t.me) read with me := (marked s n (some bs)).me } := by
  simp only [State.complete, entry, before, known, effect, out, passed, fresh, may, loads, next, first, finds, kept, Bool.or_false,
    Bool.true_or, Bool.not_true, ne_eq, not_true_eq_false, Bool.false_eq_true, if_false, if_true]
  rfl

/-- A read that drains the combining buffer is left to the commit. -/
theorem complete_drains (drained : u.me.wc ≠ (w.seen t.me).wc) : s.complete n = marked s n none := by
  simp only [State.complete, entry, before, known, effect, out, passed, fresh, may, loads, next, first, finds, drained, Bool.or_false,
    Bool.true_or, Bool.not_true, ne_eq, not_true_eq_false, Bool.false_eq_true, if_false, if_true]
  rfl

end

section
variable (stops : (w.seen t.me).passed r.me = false)
include stops

theorem complete_traps (noPark : r.me.parked = none) (noWait : r.me.wait = none) : s.complete n = marked s n none := by
  simp only [State.complete, entry, before, known, effect, out, stops, fresh, may, noPark, noWait, Bool.or_false, Bool.true_or,
    Bool.not_true, Bool.false_eq_true, if_false]
  rfl

theorem complete_answerLater (noPark : r.me.parked = none) (waits : r.me.wait = some .answer) (younger : 0 < n) : s.complete n = s := by
  simp only [State.complete, entry, before, known, effect, out, stops, fresh, may, noPark, waits, younger.ne', Bool.or_false, Bool.true_or,
    Bool.not_true, Bool.false_eq_true, if_false]

theorem complete_parks {p : Parked} (unparked : s.me.parked = none) (parks : r.me.parked = some p) :
    s.complete n = { s.park p.trap p.va p.ins n w.pc with me := { (s.park p.trap p.va p.ins n w.pc).me with
      parked := (s.park p.trap p.va p.ins n w.pc).me.parked.map fun q => { q with reduced := w.reduced } } } := by
  have still : s.unparked = s := by
    unfold State.unparked
    rw [unparked]
  simp only [State.complete, entry, before, known, effect, out, stops, fresh, may, parks, unparked, Option.any_none,
    Bool.or_false, Bool.true_or, Bool.not_true, Bool.false_eq_true, if_false]
  rw [still]

end

end

theorem meets_meId {s : State} {seen : Group} {i : Instr} {read : State → Except Halt (List Byte × State)} (loads : memRead i = some read) :
    (s.meets seen read).meId = s.meId := by
  have turn := memRead_inTurn loads { s with me := seen }
  unfold State.meets
  split
  · next found => exact turn.of_ok found
  · rfl

/-! ### Commit (08/R121, R123, R126) -/

theorem commit_eq {s t : State} (mine : s.subject = s.meId) (named : s.meId ≠ 0) (e : s.commit = t) (turn : t.meId = s.meId) :
    exec .instructionCommit s = .next t := by
  rw [exec_instructionCommit, execInstructionCommit, mine, State.asGroup_me named (e ▸ turn), e]

theorem State.squashYounger_meId (s : State) (old : Group) (rest : List WinEntry) : (s.squashYounger old rest).meId = s.meId :=
  State.squash_meId ..

/-- The group in which an instruction of its window commits, its word not counted twice. -/
def WinEntry.committing (w : WinEntry) (g : Group) : Group := { w.seen g with words := g.words - 1 }

/-- A running group is found so. -/
theorem committing_eq {w : WinEntry} {g : Group} (running : g.status = .running) (unparked : g.parked = none) (unread : w.early = none) :
    ({ w.seen g with status := .running, parked := none, words := g.words - 1, asked := (w.seen g).asked.or none } : Group)
      = w.committing g := by
  simp only [WinEntry.committing, WinEntry.seen, running, unparked, unread, Option.map_none, Option.or_none]

section
variable {s r : State} {w : WinEntry} {rest : List WinEntry} {run : State → Host.Outcome State Fault Refusal}
  (window : s.me.win = w :: rest)
include window

theorem commit_undone (undone : w.done = false) : s.commit = s := by
  simp only [State.commit, window, undone, Bool.not_false, Bool.true_or, if_true]

variable (running : s.me.status = .running) (unparked : s.me.parked = none) (silent : s.me.asked = none) (unread : w.early = none)
  (done : w.done = true) (effect : w.effect = some run)
  (out : run { s with me := w.committing s.me } = .next r)
include running unparked silent unread done effect out

section
variable (passed : (w.committing s.me).passed r.me = true)
include passed

theorem commit_goesOn (next : r.me.pc = w.next) : s.commit = { r with me := goesOn s.me r.me rest } := by
  have bare := committing_eq running unparked unread
  simp only [State.commit, window, running, unparked, silent, done, effect, Option.any_none, beq_self_eq_true, Bool.true_or, Bool.not_true,
    Bool.or_self, Bool.false_eq_true, if_false, bare, out, passed, if_true, next, goesOn]

theorem commit_goesElsewhere (elsewhere : r.me.pc ≠ w.next) : s.commit = { r.squashYounger s.me rest with
    me := { (r.squashYounger s.me rest).me with fetched := [], yielded := w.ins.form.nx == .yield } } := by
  have bare := committing_eq running unparked unread
  simp only [State.commit, window, running, unparked, silent, done, effect, Option.any_none, beq_self_eq_true, Bool.true_or, Bool.not_true,
    Bool.or_self, Bool.false_eq_true, if_false, bare, out, passed, if_true, elsewhere]

end

section
variable (stops : (w.committing s.me).passed r.me = false)
include stops

theorem commit_traps (noPark : r.me.parked = none) (noWait : r.me.wait = none) : s.commit = r.squashYounger s.me rest := by
  have bare := committing_eq running unparked unread
  simp only [State.commit, window, running, unparked, silent, done, effect, Option.any_none, beq_self_eq_true, Bool.true_or, Bool.not_true,
    Bool.or_self, Bool.false_eq_true, if_false, bare, out, stops, noPark, noWait]

theorem commit_waits (noPark : r.me.parked = none) (waits : r.me.wait ≠ none) : s.commit = { r with me := goesOn s.me r.me s.me.win } := by
  have bare := committing_eq running unparked unread
  obtain ⟨x, hx⟩ := Option.ne_none_iff_exists'.1 waits
  simp only [State.commit, window, running, unparked, silent, done, effect, Option.any_none, beq_self_eq_true, Bool.true_or, Bool.not_true,
    Bool.or_self, Bool.false_eq_true, if_false, bare, out, stops, noPark, hx, goesOn]

theorem commit_parks {p : Parked} (parks : r.me.parked = some p) : s.commit = { r.squashYounger s.me [] with
    me := { goesOn s.me (r.squashYounger s.me []).me s.me.win with
      status := .parked, parked := some { p with reduced := w.reduced }, sched := .pending, wait := none, waited := 0 } } := by
  have bare := committing_eq running unparked unread
  simp only [State.commit, window, running, unparked, silent, done, effect, Option.any_none, beq_self_eq_true, Bool.true_or, Bool.not_true,
    Bool.or_self, Bool.false_eq_true, if_false, bare, out, stops, parks, goesOn]

end

end

/-! ### Issue ahead (08/R122-R124) -/

/-- Nothing that is judged before the instruction's own kind holds it. -/
theorem issueAhead_admitted {s t : State} {i : Instr} {late : List WinEntry} (leads : mayLead i = true)
    (room : t.me.goesAway i = true → (s.me.win.filter (·.away)).length < 16)
    (bound : meetsKeys (s.me.unsettled late) (boundKeys i) = false) :
    (!mayLead i || (t.me.goesAway i && decide (16 ≤ (s.me.win.filter (·.away)).length)) || meetsKeys (s.me.unsettled late) (boundKeys i))
      = false := by
  have seat : (t.me.goesAway i && decide (16 ≤ (s.me.win.filter (·.away)).length)) = false := by
    cases away : t.me.goesAway i with
    | false => rfl
    | true => exact decide_eq_false (Nat.not_le.2 (room away))
  rw [leads, seat, bound]
  rfl

section
variable {s t : State} {i : Instr} {late : List WinEntry} {lost : Option (List Nat)} (window : s.window = (t, late, lost))
include window

theorem issueAhead_noLead (stays : mayLead i = false) : s.issueAhead i = { s with me := s.me.waitOn .window s.time } := by
  simp only [State.issueAhead, window, stays, Bool.not_false, Bool.true_or, if_true]

theorem issueAhead_full (away : t.me.goesAway i = true) (full : 16 ≤ (s.me.win.filter (·.away)).length) :
    s.issueAhead i = { s with me := s.me.waitOn .window s.time } := by
  simp only [State.issueAhead, window, away, decide_eq_true full, Bool.and_self, Bool.or_true, Bool.true_or, if_true]

theorem issueAhead_unbound (unknown : meetsKeys (s.me.unsettled late) (boundKeys i) = true) :
    s.issueAhead i = { s with me := s.me.waitOn .window s.time } := by
  simp only [State.issueAhead, window, unknown, Bool.or_true, if_true]

variable (leads : mayLead i = true) (room : t.me.goesAway i = true → (s.me.win.filter (·.away)).length < 16)
  (bound : meetsKeys (s.me.unsettled late) (boundKeys i) = false)
include leads room bound

theorem issueAhead_qfree {f : Form} {r : State} (free : i = .qfree f) (out : execQfree f t = .next r)
    (passed : t.me.passed r.me = true) : s.issueAhead i = { s with me := s.me.push { t.entryOf i r.me.pc (t.me.goesAway i) with
      held := some (BitVec.ofNat 64 (s.freeSlots f.a.toNat)), done := true } } := by
  have admitted := issueAhead_admitted leads room bound
  subst free
  simp only [State.issueAhead, window, admitted, Bool.false_eq_true, if_false, out, passed, if_true]
  rfl

theorem issueAhead_pgr {f : Form} {r : State} (gates : i = .pgr f)
    (out : execPgr f { s with me := t.me, culverts := s.culvertView false } = .next r) (passed : t.me.passed r.me = true) :
    s.issueAhead i = { r with culverts := s.culverts, me := s.me.push { t.entryOf i r.me.pc (t.me.goesAway i) with
      held := some (r.me.scalar f.d), done := true } } := by
  have admitted := issueAhead_admitted leads room bound
  subst gates
  simp only [State.issueAhead, window, admitted, Bool.false_eq_true, if_false, out, passed, if_true]
  rfl

theorem issueAhead_pwrq {f : Form} {r : State} (asks : i = .pwrqLvl f ∨ i = .pwrqGate f ∨ i = .pwrqWeir f ∨ i = .pwrqTherm f)
    (out : exec i { s with me := t.me } = .next r) (passed : t.me.passed r.me = true) :
    s.issueAhead i = { r with culverts := s.culverts, me := s.me.push { t.entryOf i r.me.pc (t.me.goesAway i) with
      held := some (r.me.scalar f.d), done := true } } := by
  have admitted := issueAhead_admitted leads room bound
  rcases asks with rfl | rfl | rfl | rfl <;>
    (simp only [exec_pwrqLvl, exec_pwrqGate, exec_pwrqWeir, exec_pwrqTherm] at out
     simp only [State.issueAhead, window, admitted, Bool.false_eq_true, if_false, out, passed, if_true]
     rfl)

theorem issueAhead_st {f : Form} {r : State} (stores : i = .st f)
    (known : meetsKeys lost (t.me.readKeys i (t.me.address f)) = false) (noDevice : (s.queueView t).meetsDevice i = false)
    (out : execSt f (s.queueView t) = .next r) (passed : t.me.passed r.me = true)
    (flows : s.queueStalls (s.queueView t) i (t.entryOf i (s.me.pc + BitVec.ofNat 52 f.len.bytes) (t.me.goesAway i)) = false) :
    s.issueAhead i = { s with me := s.me.push (t.entryOf i r.me.pc (t.me.goesAway i)) } := by
  have admitted := issueAhead_admitted leads room bound
  subst stores
  have known' : meetsKeys lost (t.me.readKeys (.st f) (t.entryOf (.st f) (s.me.pc + BitVec.ofNat 52 f.len.bytes)
    (t.me.goesAway (.st f))).va) = false := known
  have len : (Instr.st f).form.len = f.len := rfl
  have run : meaning (.st f) = some (execSt f) := rfl
  have near (e : WinEntry) : s.nearFound (s.queueView t) (.st f) e = (none, s) := rfl
  simp only [State.issueAhead, window, admitted, Bool.false_eq_true, if_false, len, known', noDevice, run, out, passed,
    if_true, flows, near]
  rfl

end

/-- Settles O44: what each step of the window makes of its instruction. Completion and commit are steps of a named group; no effect of the
window moves the turn, so that the step leaves the state that its part on the group leaves. -/
theorem placeWindow : Obligations.PlaceWindow := by
  refine ⟨?_, ?_, ?_⟩
  · intro s r t n w late lost run named running unparked entry fresh before
    have may : (s.me.status == .running) = true := by rw [running]; rfl
    refine ⟨fun unknown => completion_eq named (complete_unknown entry before unknown) rfl, fun known effect out => ?_⟩
    refine ⟨fun passed unread => completion_eq named (complete_withoutRead entry before may fresh known effect out passed unread) rfl,
      fun read bs u passed loads next first finds => ⟨fun kept => ?_, fun drained => ?_⟩,
      fun read passed loads next later => ?_, fun stops noPark noWait => ?_, fun stops noPark waits younger => ?_,
      fun p stops parks => ?_⟩
    · exact completion_eq named (complete_reads entry before may fresh known effect out passed loads next first finds kept)
        (meets_meId loads)
    · exact completion_eq named (complete_drains entry before may fresh known effect out passed loads next first finds drained) rfl
    · exact completion_eq named (complete_readsLater entry before may fresh known effect out passed loads next later) rfl
    · exact completion_eq named (complete_traps entry before may fresh known effect out stops noPark noWait) rfl
    · exact completion_eq named (complete_answerLater entry before may fresh known effect out stops noPark waits younger) rfl
    · exact completion_eq named (complete_parks entry before may fresh known effect out stops unparked parks) (State.park_meId ..)
  · intro s w rest mine named window running unparked silent unread
    refine ⟨fun undone => commit_eq mine named (commit_undone window undone) rfl, fun run r done effect out => ?_⟩
    have turn : r.meId = s.meId := WinEntry.effect_inTurn effect { s with me := w.committing s.me } r out
    refine ⟨fun passed next => commit_eq mine named (commit_goesOn window running unparked silent unread done effect out passed next) turn,
      fun passed elsewhere => ?_, fun stops noPark noWait => ?_, fun stops noPark waits => ?_, fun p stops parks => ?_⟩
    · exact commit_eq mine named (commit_goesElsewhere window running unparked silent unread done effect out passed elsewhere)
        ((State.squashYounger_meId ..).trans turn)
    · exact commit_eq mine named (commit_traps window running unparked silent unread done effect out stops noPark noWait)
        ((State.squashYounger_meId ..).trans turn)
    · exact commit_eq mine named (commit_waits window running unparked silent unread done effect out stops noPark waits) turn
    · exact commit_eq mine named (commit_parks window running unparked silent unread done effect out stops parks)
        ((State.squashYounger_meId ..).trans turn)
  · intro s t i late lost window
    refine ⟨issueAhead_noLead window, issueAhead_full window, issueAhead_unbound window, fun leads room bound => ?_⟩
    exact ⟨fun f r => issueAhead_qfree window leads room bound, fun f r => issueAhead_pgr window leads room bound,
      fun f r => issueAhead_pwrq window leads room bound, fun f r => issueAhead_st window leads room bound⟩

end Sys2Proof.Machine
